-- ==== Sys2Proof/Word.lean ====
section
/-! DEFINITION. The byte of a frame and the types of the tables the part keeps. -/

namespace Sys2Proof

/-- One byte of a frame or of a grain's data. -/
abbrev Byte := BitVec 8

/-- The number of a server port, S0 to S3. -/
abbrev PortId := Fin 4

/-- The number of a pool tag, 0 to 63 (R10). -/
abbrev PoolTagId := Fin 64

/-- The number of a copy slot, 0 to 15 (R115). -/
abbrev SlotId := Fin 16

/-- A table keyed by a number: pairs of a key and a record, keys strictly rising. A key that is not
listed reads as the table's own default (a record at its reset value, or no record). -/
abbrev Table (α : Type) := List (Nat × α)

end Sys2Proof
end

