-- ==== Sys2Proof/Config.lean ====
section
/-! DEFINITION. The figures the manual fixes for the part, and the free values of what it leaves open. -/

namespace Sys2Proof.Config

/-- Pool timeout and tag quarantine, 5 s (R13), in milliseconds. -/
abbrev poolTimeout : Nat := 5000
/-- Second tick and quarter-second tick (R59), in milliseconds. -/
abbrev secondPeriod : Nat := 1000
abbrev quarterPeriod : Nat := 250
/-- Default cut drain timeout, 2.0 s (R99), in tenths of a second. -/
abbrev defaultDrain : Nat := 20
/-- Peer silence limit, 3 s (chapter 8, Note 2), in milliseconds. -/
abbrev silenceLimit : Nat := 3000
/-- The wait before a restore write is made again, 0.1 s (R126), in milliseconds. -/
abbrev retryWait : Nat := 100
/-- The greatest account usage and the limit of an account that has none (R24, R28). -/
abbrev accountMax : Nat := 4294967295
/-- The greatest group limit, 2^48 - 1 (R21). -/
abbrev groupMax : Nat := 281474976710655
/-- The greatest pool block address, 2^36 - 1 (chapter 4). -/
abbrev poolMax : Nat := 68719476735
/-- The greatest total capacity of the defined volumes (R61). -/
abbrev totalGrains : Nat := 2147483648
/-- The greatest preserve slot count (R60). -/
abbrev maxSlots : Nat := 4194304
/-- The last epoch (R65). -/
abbrev lastEpoch : Nat := 16777215
/-- Places of the pending grain table (R77). -/
abbrev pendingPlaces : Nat := 256
/-- Places of the cut-hold queue (R101). -/
abbrev holdPlaces : Nat := 256
/-- Records of a snapshot list (R97). -/
abbrev snapshotRecords : Nat := 16
/-- Records of the restore table, and how many may be RUNNING (R120). -/
abbrev restoreRecords : Nat := 24
abbrev runningRestores : Nat := 8
/-- Batches outstanding, grains of a batch, resends of a batch and of PASS END (chapter 8, Note 2). -/
abbrev maxBatches : Nat := 4
abbrev batchGrains : Nat := 256
abbrev maxResends : Nat := 3
/-- Places of the notice queue (R180). -/
abbrev noticePlaces : Nat := 64
/-- Bytes of a block and of a grain (terms). -/
abbrev blockBytes : Nat := 4096
/-- The codes IDENTIFY reports (R186). -/
abbrev vendorCode : Nat := 0x0A17
abbrev partCode : Nat := 0x0640
abbrev revisionCode : Nat := 0x01

/-- DESIGN CHOICE (entry 14). The bound on the number of consequences carried out within one event, far above what
the tables of the part can give rise to; it only makes the recursion structural. -/
abbrev consequenceBound : Nat := 4294967296

/-- Free value (entry 10): which of the ends that one event brings about comes next, where the manual gives them no
order (R14, R16, R114). No body: nothing can be proved about its values. -/
opaque endTurn : Nat → Nat

/-- Free value (entry 11): which of the blocks that still have notices to hand over at a PATH RESET is taken next.
R177 gives their notices "no fixed order among themselves". No body: nothing can be proved about its values. -/
opaque noticeTurn : Nat → Nat

end Sys2Proof.Config
end

