-- ==== Sys2Proof/Syntax.lean ====
section
/-! DEFINITION. The commands of the block: one constructor of Instr for each row of spec/opcode_table.json. -/

namespace Sys2Proof

/-- The transaction header of a server frame as delivered (chapter 11, section 11.1), without its kind byte, which
the row of the table gives. A field that lies past the delivered bytes reads as 0. -/
structure Header where
  /-- number of bytes the link delivered -/
  delivered : Nat
  /-- the frame length field -/
  length : Nat
  tag : Nat
  volume : Nat
  /-- declared grains (WRITE) -/
  declared : Nat
  account : Nat
  /-- block count (READ, WRITE) -/
  blocks : Nat
  /-- released grains (RELEASE) -/
  released : Nat
  /-- first block, an 8-byte number (READ, WRITE) -/
  first : Nat
deriving DecidableEq, Repr

/-- The status of a POOL DONE (R9). -/
inductive PoolStatus where
  | ok | mediaError | refused
deriving DecidableEq, Repr

/-- The reason of a REFUSE frame from the peer (section 11.4). -/
inductive RefuseReason where
  | data | order | full | noTarget
deriving DecidableEq, Repr

/-- What the lines report when RESET# returns high (R179): true is a link present. -/
structure Lines where
  server : Vector Bool 4
  pool : Bool
  offsite : Bool
deriving DecidableEq, Repr

/-- The commands: the events the part can take, each whole and indivisible (spec/95_what_each_step_holds.md). -/
inductive Instr where
  /-- READ (R7): a READ frame arrives on a server port. -/
  | read (port : PortId) (h : Header)
  /-- WRITE (R8): a WRITE frame with its payload arrives. -/
  | write (port : PortId) (h : Header) (payload : List Byte)
  /-- RELEASE (R31): a RELEASE frame arrives. -/
  | release (port : PortId) (h : Header)
  /-- MGMT_FRAME (R5): a MGMT frame arrives; name is bytes 24 to 39, area the bytes from offset 40. -/
  | mgmtFrame (port : PortId) (h : Header) (name : List Byte) (area : List Byte)
  /-- RUNT_FRAME (R185): a frame of fewer than 6 bytes. -/
  | runtFrame (port : PortId) (bytes : List Byte)
  /-- UNKNOWN_COMMAND (R173): the management unit takes a command whose name is not in the catalogue. -/
  | unknownCommand (port : PortId) (tag : Nat)
  /-- SERVER_LINK_UP (R1). -/
  | serverLinkUp (port : PortId)
  /-- SERVER_LINK_DOWN (R167). -/
  | serverLinkDown (port : PortId)
  /-- POOL_DONE (R13): the pool answers the named tag. -/
  | poolDone (tag : PoolTagId) (status : PoolStatus) (data : List Byte)
  /-- POOL_TIMEOUT (R13). -/
  | poolTimeout (tag : PoolTagId)
  /-- QUARANTINE_END (R10). -/
  | quarantineEnd (tag : PoolTagId)
  /-- POOL_LINK_DOWN (R14). -/
  | poolLinkDown
  /-- POOL_LINK_UP (R15). -/
  | poolLinkUp
  /-- SECOND_TICK (R46). -/
  | secondTick
  /-- GRACE_EXPIRY (R32). -/
  | graceExpiry (account : Nat)
  /-- QUARTER_SECOND_TICK (R162). -/
  | quarterSecondTick
  /-- LIVENESS_EXPIRY (R162). -/
  | livenessExpiry (port : PortId)
  /-- MAP_FILL_END (R63). -/
  | mapFillEnd (volume : Nat)
  /-- REMOVAL_END (R73). -/
  | removalEnd (volume : Nat)
  /-- CUT_COMPLETION (R103). -/
  | cutCompletion (volume : Nat)
  /-- DRAIN_TIMEOUT (R105). -/
  | drainTimeout (volume : Nat)
  /-- SWEEP_VISIT (R109). -/
  | sweepVisit (volume : Nat)
  /-- RETIREMENT_END (R110). -/
  | retirementEnd (volume : Nat)
  /-- RETRY_DUE (R126). -/
  | retryDue (slot : SlotId)
  /-- PASS_START (R138). -/
  | passStart
  /-- GRAIN_MAKE_READY (R143). -/
  | grainMakeReady
  /-- PLACEMENT_END (R144). -/
  | placementEnd (slot : SlotId)
  /-- TRANSMISSION_END (R145). -/
  | transmissionEnd
  /-- BATCH_IDLE_CLOSE (R147). -/
  | batchIdleClose
  /-- ACK_TIMEOUT (R149): the acknowledgement timer of the batch of this sequence expires. -/
  | ackTimeout (sequence : Nat)
  /-- SWEEP_END (R151). -/
  | sweepEnd
  /-- DRAIN_END (R151). -/
  | drainEnd
  /-- PASS_END_TIMEOUT (R152). -/
  | passEndTimeout
  /-- PEER_STATUS (R156). -/
  | peerStatus (ready : Bool)
  /-- ACK (R148). -/
  | ack (sequence : Nat)
  /-- REFUSE (R149). -/
  | refuse (sequence : Nat) (reason : RefuseReason)
  /-- PASS_ACK (R152). -/
  | passAck (target snapshot : Nat)
  /-- ATTENTION_FROM_PEER (R157). -/
  | attentionFromPeer (code : Nat)
  /-- UNREADABLE_PEER_FRAME (R187). -/
  | unreadablePeerFrame (bytes : List Byte)
  /-- OFFSITE_LINK_UP (R156). -/
  | offsiteLinkUp
  /-- OFFSITE_LINK_DOWN (R156). -/
  | offsiteLinkDown
  /-- SILENCE_TIMEOUT (R156). -/
  | silenceTimeout
  /-- IDENTIFY (R176): the management unit takes the command of the MGMT transaction (port, tag); the same operands
  name the transaction in every management command below. -/
  | identify (port : PortId) (tag : Nat)
  /-- KEEPALIVE (R163). -/
  | keepalive (port : PortId) (tag : Nat)
  /-- PORT_SET (R170). -/
  | portSet (port : PortId) (tag : Nat)
  /-- PORT_READ (R171). -/
  | portRead (port : PortId) (tag : Nat)
  /-- FENCE (R164). -/
  | fence (port : PortId) (tag : Nat)
  /-- UNFENCE (R168). -/
  | unfence (port : PortId) (tag : Nat)
  /-- PATH_RESET (R177). -/
  | pathReset (port : PortId) (tag : Nat)
  /-- TIME_SET (R49). -/
  | timeSet (port : PortId) (tag : Nat)
  /-- TIME_READ (R50). -/
  | timeRead (port : PortId) (tag : Nat)
  /-- SCHEDULE_SET (R55). -/
  | scheduleSet (port : PortId) (tag : Nat)
  /-- SCHEDULE_READ (R55). -/
  | scheduleRead (port : PortId) (tag : Nat)
  /-- ACCOUNT_LOAD (R37). -/
  | accountLoad (port : PortId) (tag : Nat)
  /-- ACCOUNT_READ (R42). -/
  | accountRead (port : PortId) (tag : Nat)
  /-- GROUP_LOAD (R41). -/
  | groupLoad (port : PortId) (tag : Nat)
  /-- GROUP_READ (R42). -/
  | groupRead (port : PortId) (tag : Nat)
  /-- PRESERVE_AREA (R60). -/
  | preserveArea (port : PortId) (tag : Nat)
  /-- VOLUME_DEFINE (R62). -/
  | volumeDefine (port : PortId) (tag : Nat)
  /-- VOLUME_READ (R74). -/
  | volumeRead (port : PortId) (tag : Nat)
  /-- VOLUME_REMOVE (R72). -/
  | volumeRemove (port : PortId) (tag : Nat)
  /-- RESERVE_SET (R70). -/
  | reserveSet (port : PortId) (tag : Nat)
  /-- CUT (R100). -/
  | cut (port : PortId) (tag : Nat)
  /-- RETIRE (R107). -/
  | retire (port : PortId) (tag : Nat)
  /-- SNAPSHOT_LIST (R113). -/
  | snapshotList (port : PortId) (tag : Nat)
  /-- RESTORE (R122). -/
  | restore (port : PortId) (tag : Nat)
  /-- RESTORE_STATUS (R131). -/
  | restoreStatus (port : PortId) (tag : Nat)
  /-- RESTORE_CANCEL (R130). -/
  | restoreCancel (port : PortId) (tag : Nat)
  /-- ENROL (R135). -/
  | enrol (port : PortId) (tag : Nat)
  /-- DUPLICATE_NOW (R137). -/
  | duplicateNow (port : PortId) (tag : Nat)
  /-- PACING_SET (R139). -/
  | pacingSet (port : PortId) (tag : Nat)
  /-- STAGING_SET (R159). -/
  | stagingSet (port : PortId) (tag : Nat)
  /-- PASS_STATUS (R158). -/
  | passStatus (port : PortId) (tag : Nat)
  /-- PASS_STOP (R155). -/
  | passStop (port : PortId) (tag : Nat)
  /-- SIGNAL_PEER (R157). -/
  | signalPeer (port : PortId) (tag : Nat)
  /-- NOTICE_READ (R182). -/
  | noticeRead (port : PortId) (tag : Nat)
  /-- RESET_ASSERT (R179): RESET# goes low, or power-up. -/
  | resetAssert
  /-- RESET_RELEASE (R179): RESET# returns high. -/
  | resetRelease (lines : Lines)
  /-- MALFORMED_FRAME (R185): a frame of 6 bytes or more whose kind byte is none of 01h to 04h. -/
  | malformedFrame (port : PortId) (kind : Byte) (tag : Byte)
deriving DecidableEq, Repr

end Sys2Proof
end

