-- ==== Sys2Proof/Machine/State.lean ====
section
/-! DEFINITION. Everything the spec gives the part to hold, as plain data, and its value right after a full reset. -/

namespace Sys2Proof.Machine

/-! ### Names and statuses -/

/-- The names in capitals that frames and notices carry in 16 bytes (section 11, opening). -/
inductive Name where
  | manager | data | clear | fenced | liveness | command | down | up | ready | under | soft | expired
  | valid | invalid | windowOpen | windowClose | scheduledCut | opened | closed | undefined | preparing | removing
  | idle | cutting | none | nightly | once | done | failed | stopped | cut | read | resend | close | full | noTarget
  | reset | stop | scheduled | manual | duplication | active | retiring | running | waiting | queued | ended | pending
  | quota | groupQuota | mediaError | timeout | poolDown | preserveFailed | reserveFull | cancelled | notRun
  | doneWithErrors | window | demand | sprint | share | trickle | sweeping | draining | closing | on | off | shut
  | resending | busy | exhausted | drain | link | notReady | silence
deriving DecidableEq, Repr

/-- Completion statuses, in the order of their codes 0 to 15 (section 11.1). Also the way a write or a copy read
ends inside the part (R9, R29). -/
inductive Status where
  | ok | malformed | tagBusy | noVolume | notReady | outOfRange | fenced | quota | groupQuota | reserveFull | retry
  | preserveFailed | mediaError | timeout | poolDown | aborted
deriving DecidableEq, Repr

/-- Management statuses, in the order of their codes 0 to 10 (section 11.1). -/
inductive MgmtStatus where
  | ok | malformed | notPermitted | badArgument | notFound | busy | full | conflict | exhausted | fenced | aborted
deriving DecidableEq, Repr

/-- Management response reasons; codes 1 to 6 in order, 0 for none (section 11.1). -/
inductive MgmtReason where
  | noVolume | notReady | range | snapshot | drain | reset
deriving DecidableEq, Repr

/-! ### Calendar -/

/-- A calendar time (R43). -/
structure CalTime where
  year : Nat
  month : Nat
  day : Nat
  hour : Nat
  minute : Nat
  second : Nat
deriving DecidableEq, Repr

/-! ### Server ports and transactions -/

/-- Link state of a server port or of the pool port (R1, R14). -/
inductive Link where
  | down | up
deriving DecidableEq, Repr

/-- Role of a server port (R161). -/
inductive Role where
  | manager | data
deriving DecidableEq, Repr

/-- Why a port is FENCED (R161). -/
inductive FenceReason where
  | liveness | command
deriving DecidableEq, Repr

/-- A port record (R161). fence is none while CLEAR. The open tags are the port's entries in Device.txns. -/
structure Port where
  link : Link
  role : Role
  fence : Option FenceReason
  reload : Nat
  counter : Nat
deriving DecidableEq, Repr

/-- Kind of a server transaction (R2). -/
inductive Kind where
  | read | write | release | mgmt
deriving DecidableEq, Repr

/-- Stage of a transaction or of a restore write (R2, R8); the pool tag is present in FORWARDED. -/
inductive Stage where
  | held | admitting | queued | forwarded (poolTag : PoolTagId) | command
deriving DecidableEq, Repr

/-- What a READ, a WRITE or a restore write carries through the part (R2, R66, R79, R125). -/
structure Job where
  volume : Nat
  account : Nat
  first : Nat
  blocks : Nat
  declared : Nat
  payload : List Byte
  stage : Stage
  /-- the charge c, present for an admitted WRITE -/
  charge : Option Nat
  /-- the epoch stamp of an admitted WRITE (R66) -/
  epoch : Option Nat
  /-- the grains of the pending entries the write waits on (R79) -/
  waits : List Nat
deriving DecidableEq, Repr

/-- The command of an accepted MGMT frame that the management unit has not yet taken: its 16 name bytes and its
argument area (R5, R185, R186). -/
structure Command where
  name : List Byte
  area : List Byte
deriving DecidableEq, Repr

/-- A transaction record (R2), keyed by port and tag in Device.txns. command is present until the management unit
takes a MGMT transaction's command (R173). -/
structure Txn where
  kind : Kind
  owed : Bool
  job : Job
  command : Option Command
deriving DecidableEq, Repr

/-- A write on the server write path: a server WRITE, or the restore write of a copy slot (R8, R125). -/
inductive WriteId where
  | server (port : PortId) (tag : Nat)
  | slot (k : SlotId)
deriving DecidableEq, Repr

/-! ### Pool port -/

/-- Who asked for a pool transaction (R10); its class follows from it (R11). -/
inductive Requester where
  | server (port : PortId) (tag : Nat)
  | preserve (volume grain : Nat)
  | slot (k : SlotId)
deriving DecidableEq, Repr

/-- A pool transaction: POOL READ or POOL WRITE with its pool block address and count (R11). -/
inductive PoolOp where
  | read (addr count : Nat)
  | write (addr count : Nat) (data : List Byte)
deriving DecidableEq, Repr

/-- A request that has no tag yet (R11). -/
structure PoolRequest where
  requester : Requester
  op : PoolOp
deriving DecidableEq, Repr

/-- State of a pool tag (R10). Moments are milliseconds of the reference oscillator. -/
inductive PoolTag where
  | free
  | busy (requester : Requester) (issuedAt : Nat)
  | quarantined (ends : Nat)
deriving DecidableEq, Repr

/-- The pool interface and arbiter: tags (R10), the three classes of the pool request queue in arrival order (R11),
the path streak (R12) and the pool link (R14). -/
structure Pool where
  tags : Vector PoolTag 64
  preserveQ : List PoolRequest
  pathQ : List PoolRequest
  copyQ : List PoolRequest
  streak : Nat
  link : Link
deriving DecidableEq, Repr

/-! ### Accounts and groups -/

/-- Quota state of an account (R19). -/
inductive QuotaState where
  | under | soft | expired
deriving DecidableEq, Repr

/-- An account record (R19). -/
structure Account where
  soft : Nat
  hard : Nat
  grace : Nat
  group : Nat
  usage : Nat
  held : Nat
  state : QuotaState
  deadline : Option CalTime
  hardArmed : Bool
  underflow : Bool
deriving DecidableEq, Repr

/-- An account after full reset (R19). -/
def Account.initial : Account :=
  { soft := 0, hard := 0, grace := 0, group := 0, usage := 0, held := 0, state := .under, deadline := none,
    hardArmed := true, underflow := false }

/-- A group record (R21). -/
structure Group where
  limit : Nat
  usage : Nat
  held : Nat
  fullArmed : Bool
deriving DecidableEq, Repr

/-- A group after full reset (R21). -/
def Group.initial : Group := { limit := 0, usage := 0, held := 0, fullArmed := true }

/-! ### Schedule clock -/

/-- Action of a schedule entry (R55). -/
inductive Action where
  | windowOpen | windowClose | scheduledCut
deriving DecidableEq, Repr

/-- A schedule entry (R55). none is ANY; bit n - 1 of weekdays is weekday n. -/
structure SchedEntry where
  enabled : Bool
  action : Action
  minute : Option Nat
  hour : Option Nat
  weekdays : BitVec 7
  day : Option Nat
deriving DecidableEq, Repr

/-- Window state (R57). -/
inductive Window where
  | opened | closed
deriving DecidableEq, Repr

/-- The schedule clock (R43, R52, R53, R55, R57) and its time base (R59): now is the moment the reference oscillator
is known to have reached, nextSecond and nextQuarter the moments of the next ticks (DESIGN CHOICE, entry 1). -/
structure Clock where
  time : CalTime
  valid : Bool
  schedule : Vector SchedEntry 8
  window : Window
  /-- accounts by deadline, then number; each deadline stands in the account's record -/
  graceList : List Nat
  /-- accounts in rising order (a set) -/
  undated : List Nat
  now : Nat
  nextSecond : Nat
  nextQuarter : Nat
deriving DecidableEq, Repr

/-! ### Volumes, snapshots, preservation -/

/-- The preserve area (R60). -/
structure Area where
  base : Nat
  slots : Nat
deriving DecidableEq, Repr

/-- State of a defined volume (R61); an UNDEFINED volume has no record. -/
inductive VolState where
  | preparing | ready | removing
deriving DecidableEq, Repr

/-- Kind of a cut and of the snapshot it makes (R97, R98). -/
inductive CutKind where
  | scheduled | manual | duplication
deriving DecidableEq, Repr

/-- State of a snapshot record (R97). -/
inductive SnapState where
  | active | retiring
deriving DecidableEq, Repr

/-- A MGMT transaction that a long command will answer: its port and tag (R174). -/
structure TxnRef where
  port : PortId
  tag : Nat
deriving DecidableEq, Repr

/-- A snapshot record (R97); answers is the RETIRE that waits for the record to leave the list (R110). -/
structure Snapshot where
  number : Nat
  kind : CutKind
  cutTime : Option CalTime
  state : SnapState
  pins : Nat
  answers : Option TxnRef
deriving DecidableEq, Repr

/-- Who asked for a cut (R98). -/
inductive CutRequester where
  | command (txn : TxnRef)
  | schedule
  | pass
deriving DecidableEq, Repr

/-- Room in the snapshot list for a cut in progress (R98). -/
inductive Room where
  | have | waiting
deriving DecidableEq, Repr

/-- The cut record of a CUTTING volume (R98); drainEnds is the moment its drain timer expires. -/
structure CutRecord where
  kind : CutKind
  requester : CutRequester
  acceptedAt : Option CalTime
  drainEnds : Nat
  room : Room
deriving DecidableEq, Repr

/-- Enrolment of a volume (R61, R135). -/
inductive Enrolment where
  | none | nightly | once
deriving DecidableEq, Repr

/-- Outcome of a pass (R153). -/
inductive PassOutcome where
  | done | failed | stopped
deriving DecidableEq, Repr

/-- Reason of a FAILED or STOPPED pass (R153). -/
inductive PassReason where
  | cut | read | resend | close | full | noTarget | reset | stop
deriving DecidableEq, Repr

/-- Last pass report of a volume (R61, R153). -/
structure PassReport where
  outcome : PassOutcome
  snapshot : Option Nat
  sent : Nat
  reason : Option PassReason
  endTime : Option CalTime
deriving DecidableEq, Repr

/-- The record of a defined volume (R61) with its grain map (R67), snapshot list (R97), cut record (R98; none is cut
state IDLE), slot-wait queue (R87), sweep order (R108) and the running sweep's place and count (R109, R110). -/
structure Volume where
  state : VolState
  base : Nat
  capacity : Nat
  epoch : Nat
  reserve : Nat
  slotsHeld : Nat
  reserveArmed : Bool
  cut : Option CutRecord
  inFlight : Nat
  retention : Nat
  enrolment : Enrolment
  target : Option Nat
  anchor : Nat
  report : Option PassReport
  /-- what an unlisted grain reads as: 1 with import, 0 without (R63) -/
  fill : Nat
  /-- grains whose last-written epoch differs from fill -/
  grains : Table Nat
  snapshots : List Snapshot
  /-- grains of the SLOT_WAIT entries in the order they entered -/
  slotWait : List Nat
  /-- numbers of the RETIRING records in the order their retirements started; the first is sweeping -/
  sweeps : List Nat
  /-- grain and first epoch of the last preserve entry the running sweep visited -/
  sweepAt : Option (Nat × Nat)
  sweepFreed : Nat
  /-- the VOLUME DEFINE or VOLUME REMOVE that will be answered (R63, R73) -/
  answers : Option TxnRef
deriving DecidableEq, Repr

/-- A preserve entry (R83). -/
structure PreserveEntry where
  volume : Nat
  grain : Nat
  first : Nat
  last : Nat
  slot : Nat
deriving DecidableEq, Repr

/-- Phase of a pending entry with the fields present in it (R77). -/
inductive PendPhase where
  | reading
  | slotWait (base p : Nat)
  | preserving (base p slot : Nat)
  | storing (base p slot : Nat) (buffer : List Byte)
deriving DecidableEq, Repr

/-- A pending entry (R77). -/
structure Pending where
  volume : Nat
  grain : Nat
  phase : PendPhase
  readers : Nat
  waiters : List WriteId
deriving DecidableEq, Repr

/-- The preservation unit: pending grain table (keyed by volume and grain), preserve map in order of volume, grain,
first epoch (R83), slot free queue (R60) and reader wait list (R93). -/
structure Preservation where
  table : Table Pending
  map : List PreserveEntry
  free : List Nat
  readerWait : List SlotId
deriving DecidableEq, Repr

/-! ### Copy engine -/

/-- The image of a grain as of a snapshot, with its version epoch (R91). -/
inductive Image where
  | unwritten
  | live (version : Nat)
  | slot (n version : Nat)
deriving DecidableEq, Repr

/-- The stream a copy slot works for (R115); dropped is a read of an ended pass that runs to its end and counts
against no stream (R119). -/
inductive Stream where
  | restore (id : Nat)
  | pass
  | dropped
deriving DecidableEq, Repr

/-- Phase of a working copy slot (R115); the buffer is the payload of the write or the data being placed. retryDue
is the moment the write is to be made again (R126). -/
inductive SlotPhase where
  | reading
  | writing (job : Job) (retryDue : Option Nat)
  | staging (data : List Byte)
deriving DecidableEq, Repr

/-- The record of a working copy slot (R115); dest and declared are a restore's. -/
structure CopySlot where
  stream : Stream
  volume : Nat
  grain : Nat
  snapshot : Nat
  image : Image
  destVolume : Nat
  destGrain : Nat
  declared : Nat
  phase : SlotPhase
deriving DecidableEq, Repr

/-- An extent of a restore (R120, section 7.4). -/
structure Extent where
  source : Nat
  count : Nat
  destVolume : Nat
  dest : Nat
  fresh : Bool
  notify : Bool
deriving DecidableEq, Repr

/-- State of a restore record (R120). -/
inductive RestoreState where
  | queued | running | ended
deriving DecidableEq, Repr

/-- Outcome of an extent (R120); failed carries QUOTA, GROUP_QUOTA, MEDIA_ERROR, TIMEOUT, POOL_DOWN,
PRESERVE_FAILED or RESERVE_FULL. -/
inductive ExtentOutcome where
  | pending | running | done | failed (s : Status) | cancelled | notRun
deriving DecidableEq, Repr

/-- Outcome of a restore (R120). -/
inductive RestoreOutcome where
  | done | doneWithErrors | cancelled
deriving DecidableEq, Repr

/-- Reason of a CANCELLED restore (R120). -/
inductive RestoreReason where
  | command | reset
deriving DecidableEq, Repr

/-- A restore record (R120). current counts the extents from 0 inside the model; frames carry 1 to 32. -/
structure Restore where
  id : Nat
  state : RestoreState
  cancel : Bool
  source : Nat
  snapshot : Nat
  account : Nat
  extents : List Extent
  current : Option Nat
  cursor : Option Nat
  inFlight : Nat
  copied : Nat
  unwritten : Nat
  alreadyCurrent : Nat
  outcomes : List ExtentOutcome
  outcome : Option RestoreOutcome
  reason : Option RestoreReason
deriving DecidableEq, Repr

/-- The kind of stream last given a slot (R117). -/
inductive StreamKind where
  | restore | pass
deriving DecidableEq, Repr

/-- The copy engine: slots (none is FREE, R115), restore table in acceptance order (R120), the order in which ENDED
records ended (R122), last id given, last served kind and restore cursor (R117, R120). -/
structure CopyEngine where
  slots : Vector (Option CopySlot) 16
  restores : List Restore
  endedOrder : List Nat
  lastId : Nat
  lastServed : Option StreamKind
  cursor : Nat
deriving DecidableEq, Repr

/-! ### Duplication unit -/

/-- Origin of a duplication queue entry (R136). -/
inductive Origin where
  | window | demand
deriving DecidableEq, Repr

/-- An entry of the duplication queue (R136). -/
structure DupEntry where
  volume : Nat
  origin : Origin
deriving DecidableEq, Repr

/-- Pacing mode (R139). -/
inductive Pacing where
  | sprint | share | trickle
deriving DecidableEq, Repr

/-- Staging settings (R159): idle close in tenths of a second, acknowledgement timeout in seconds. -/
structure Settings where
  low : Nat
  high : Nat
  idleClose : Nat
  ackTimeout : Nat
deriving DecidableEq, Repr

/-- State of a pass (section 8.4). -/
inductive PassState where
  | cutting | sweeping | draining | closing
deriving DecidableEq, Repr

/-- The pass record (R140). A backlog grain stands with the sequence of its RESENDING batch. passEndWaits is the
PASS END frame that waits for the transmitter (R151); passEndTimer is the moment its timer expires (R152). -/
structure Pass where
  volume : Nat
  origin : Origin
  target : Nat
  anchor : Nat
  snapshot : Option Nat
  state : PassState
  stopRequested : Bool
  cursor : Nat
  sent : Nat
  nextSeq : Nat
  issuing : Bool
  backlog : List (Nat × Nat)
  resends : Nat
  startTime : Option CalTime
  passEndWaits : Bool
  passEndTimer : Option Nat
deriving DecidableEq, Repr

/-- Where a staged grain came from (R143). -/
inductive PlaceSource where
  | sweep
  | resend (sequence : Nat)
deriving DecidableEq, Repr

/-- Phase of a staging place (R143): ready and reading are RESERVED (before and after a copy slot was granted to the
grain), placed is PLACED with the data and the grain check (R144). -/
inductive PlacePhase where
  | ready
  | reading (k : SlotId)
  | placed (data : List Byte) (check : BitVec 32)
deriving DecidableEq, Repr

/-- A place of the staging buffer (R143). -/
structure Place where
  grain : Nat
  version : Nat
  source : PlaceSource
  phase : PlacePhase
deriving DecidableEq, Repr

/-- State of a batch (R146). -/
inductive BatchState where
  | opened | shut | resending
deriving DecidableEq, Repr

/-- A batch (R146). resent counts the grains of a RESENDING batch taken since it was reopened; shutWaits is its SHUT
frame that waits for the transmitter (R147). -/
structure Batch where
  sequence : Nat
  state : BatchState
  grains : List Nat
  check : BitVec 32
  resends : Nat
  reopened : Bool
  resent : Nat
  idleEnds : Option Nat
  ackEnds : Option Nat
  shutWaits : Bool
deriving DecidableEq, Repr

/-- Offsite link state (R156); READY carries the moment the silence timer expires. -/
inductive OffsiteLink where
  | down | up
  | ready (silenceEnds : Nat)
deriving DecidableEq, Repr

/-- A frame from the part to the peer (section 11.4). -/
inductive OffsiteFrame where
  | openBatch (sequence target : Nat)
  | grain (target grain version : Nat) (data : List Byte) (check : BitVec 32)
  | shut (sequence count : Nat) (check : BitVec 32)
  | passEnd (target snapshot sent : Nat)
  | attention (code : Nat)
deriving DecidableEq, Repr

/-- The duplication unit (R136, R139, R140, R143, R145, R146, R156, R157, R159). transmitting is the frame in
transmission, none while the transmitter is idle; attention is the code of a waiting ATTENTION. -/
structure Duplication where
  queue : List DupEntry
  mode : Pacing
  settings : Settings
  pass : Option Pass
  staging : List Place
  batches : List Batch
  link : OffsiteLink
  transmitting : Option OffsiteFrame
  attention : Option Nat
deriving DecidableEq, Repr

/-! ### Management unit -/

/-- The eighteen notice kinds, in the order of their codes 1 to 18 (R180, section 11.3). -/
inductive NoticeKind where
  | quotaSoft | quotaExpired | quotaHard | groupFull | reserveLow | cutDone | cutFailed | snapshotRetired
  | restoreExtent | restoreEnd | passEnd | passFailed | windowOverrun | portFenced | peerLost | peerAttention
  | poolDown | clockInvalid
deriving DecidableEq, Repr

/-- Subject of a notice (R180). -/
inductive Subject where
  | absent
  | account (n : Nat)
  | group (n : Nat)
  | volume (n : Nat)
  | snapshot (volume number : Nat)
  | restore (id : Nat)
  | port (n : Nat)
deriving DecidableEq, Repr

/-- Value of a notice (R180, section 11.3). -/
inductive NoticeValue where
  | number (n : Nat)
  | name (n : Name)
  | extent (outcome : Name) (number : Nat)
  | restoreEnd (outcome : Name) (reason : Option RestoreReason)
  | code (n : Nat)
deriving DecidableEq, Repr

/-- A notice (R180). -/
structure Notice where
  kind : NoticeKind
  time : Option CalTime
  subject : Subject
  value : NoticeValue
deriving DecidableEq, Repr

/-- The record of a PATH RESET that has not yet answered (R177). left is the part of its tag set that is still
QUARANTINED. -/
structure PendingReset where
  txn : TxnRef
  left : List PoolTagId
  aborted : Nat
  restores : Nat
  passEnded : Bool
deriving DecidableEq, Repr

/-- The management unit (R180, R181, R183, R177). attnLow is ATTN# driven low. -/
structure Management where
  notices : List Notice
  overflow : Bool
  attnLow : Bool
  pathReset : Option PendingReset
deriving DecidableEq, Repr

/-! ### Frames the part sends -/

/-- One field of a response's result area (R186): a number of the given width in bytes, a 16-byte name, a calendar
time, or bytes as they stand. -/
inductive Item where
  | num (width value : Nat)
  | name (n : Name)
  | time (t : CalTime)
  | raw (bytes : List Byte)
deriving DecidableEq, Repr

/-- A completion (section 1.3, section 11.1); kind is the kind byte, count the charged or released grains. -/
structure Completion where
  kind : Byte
  tag : Nat
  status : Status
  count : Nat
  data : List Byte
deriving DecidableEq, Repr

/-- A management response (R174, section 11.1). -/
structure Response where
  tag : Nat
  status : MgmtStatus
  reason : Option MgmtReason
  result : List Item
deriving DecidableEq, Repr

/-- A frame the part sends on one of its six ports. -/
inductive Output where
  | completion (port : PortId) (c : Completion)
  | response (port : PortId) (r : Response)
  | pool (tag : PoolTagId) (op : PoolOp)
  | offsite (f : OffsiteFrame)
deriving DecidableEq, Repr

/-! ### The part -/

/-- Everything the part holds. -/
structure Device where
  /-- RESET# is low (R179) -/
  resetLow : Bool
  ports : Vector Port 4
  /-- transaction records, keyed by 32 times the port number plus the tag (R2) -/
  txns : Table Txn
  pool : Pool
  accounts : Table Account
  groups : Table Group
  clock : Clock
  area : Option Area
  volumes : Table Volume
  pres : Preservation
  /-- the cut-hold queue (R101) -/
  cutHold : List WriteId
  copy : CopyEngine
  dup : Duplication
  mgmt : Management
  /-- the model's own: the frames sent so far, oldest first (DESIGN CHOICE, entry 13) -/
  out : List Output
  /-- the model's own: index of the next free value (DESIGN CHOICE, entry 12) -/
  freeIndex : Nat
deriving DecidableEq, Repr

/-- The machine: the part, and the commands that wait to be taken, first in first out. -/
structure State where
  dev : Device
  pending : List Instr
deriving DecidableEq, Repr

/-- No command of the part stops it (INVENTORY.md, Faults): no constructor is ever raised. -/
inductive Fault where
  /-- raised by no command; safe -/
  | none
deriving DecidableEq, Repr

/-- Why a command has no meaning. -/
inductive Refusal where
  /-- raised by an arm of exec whose command has no meaning yet; no arm does; safe -/
  | notModelled (mnemonic : String)
deriving DecidableEq, Repr

/-! ### Full reset -/

/-- A port record after full reset (R161), its line reporting no link (DESIGN CHOICE, entry 3). -/
def Port.initial (role : Role) : Port := { link := .down, role := role, fence := none, reload := 0, counter := 0 }

/-- A schedule entry after full reset (R55). -/
def SchedEntry.initial : SchedEntry :=
  { enabled := false, action := .windowClose, minute := none, hour := none, weekdays := 127, day := none }

/-- 2000-01-01 00:00:00 (R43). -/
def CalTime.origin : CalTime := { year := 2000, month := 1, day := 1, hour := 0, minute := 0, second := 0 }

/-- The schedule clock after full reset (R43, R52, R53, R55, R57, R59). -/
def Clock.initial : Clock :=
  { time := .origin, valid := false, schedule := Vector.replicate 8 SchedEntry.initial, window := .closed,
    graceList := [], undated := [], now := 0, nextSecond := Config.secondPeriod, nextQuarter := Config.quarterPeriod }

/-- The pool interface and arbiter after full reset (R17), its line reporting no link (DESIGN CHOICE, entry 3). -/
def Pool.initial : Pool :=
  { tags := Vector.replicate 64 .free, preserveQ := [], pathQ := [], copyQ := [], streak := 0, link := .down }

/-- The copy engine after full reset (R134). -/
def CopyEngine.initial : CopyEngine :=
  { slots := Vector.replicate 16 none, restores := [], endedOrder := [], lastId := 0, lastServed := none, cursor := 0 }

/-- The duplication unit after full reset (R160), its line reporting no link (DESIGN CHOICE, entry 3). -/
def Duplication.initial : Duplication :=
  { queue := [], mode := .sprint, settings := { low := 16, high := 48, idleClose := 10, ackTimeout := 30 },
    pass := none, staging := [], batches := [], link := .down, transmitting := none, attention := none }

/-- The part after full reset (R17, R19, R21, R43, R75, R96, R114, R134, R160, R161, R184), RESET# high again and
every line reporting no link (DESIGN CHOICE, entry 3). -/
def Device.reset : Device :=
  { resetLow := false
    ports := #v[Port.initial .manager, Port.initial .data, Port.initial .data, Port.initial .data]
    txns := []
    pool := Pool.initial
    accounts := []
    groups := []
    clock := Clock.initial
    area := none
    volumes := []
    pres := { table := [], map := [], free := [], readerWait := [] }
    cutHold := []
    copy := CopyEngine.initial
    dup := Duplication.initial
    mgmt := { notices := [], overflow := false, attnLow := false, pathReset := none }
    out := []
    freeIndex := 0 }

/-- The machine right after a full reset: no command waits. -/
def State.reset : State := { dev := Device.reset, pending := [] }

end Sys2Proof.Machine
end

