-- ==== Sys2Proof/Machine/Operands.lean ====
section
/-! DEFINITION. The operands of frames: names, codes, little-endian numbers, the arguments of the management
commands (section 10.2, section 11.2) and the layouts of what the part sends (chapter 11). -/

namespace Sys2Proof.Machine

/-! ### Numbers and names in bytes -/

/-- A number from bytes, least significant byte first (chapter 11). -/
def leNat : List Byte → Nat
  | [] => 0
  | b :: bs => b.toNat + 256 * leNat bs

/-- A number as n bytes, least significant byte first (chapter 11). -/
def leBytes : Nat → Nat → List Byte
  | 0, _ => []
  | n + 1, v => BitVec.ofNat 8 v :: leBytes n (v / 256)

/-- n bytes of 0. -/
def zeros (n : Nat) : List Byte := List.replicate n 0

/-- A text in ASCII. -/
def ascii (s : String) : List Byte :=
  s.toList.map fun c => BitVec.ofNat 8 c.toNat

/-- A text in ASCII, padded with zero bytes to 16 bytes (chapter 11). -/
def padded (s : String) : List Byte :=
  let b := ascii s
  b ++ zeros (16 - b.length)

/-- The bytes up to the first zero byte (R185). -/
def upToZero (bs : List Byte) : List Byte :=
  bs.takeWhile fun b => b ≠ 0

/-- The bytes from offset i, n of them; bytes past the end read as 0. -/
def bytesAt (bs : List Byte) (i n : Nat) : List Byte :=
  let s := (bs.drop i).take n
  s ++ zeros (n - s.length)

/-- The number at offset i, n bytes wide. -/
def numAt (bs : List Byte) (i n : Nat) : Nat :=
  leNat (bytesAt bs i n)

/-- A name's text. -/
def Name.text : Name → String
  | .manager => "MANAGER" | .data => "DATA" | .clear => "CLEAR" | .fenced => "FENCED" | .liveness => "LIVENESS"
  | .command => "COMMAND" | .down => "DOWN" | .up => "UP" | .ready => "READY" | .under => "UNDER" | .soft => "SOFT"
  | .expired => "EXPIRED" | .valid => "VALID" | .invalid => "INVALID" | .windowOpen => "WINDOW_OPEN"
  | .windowClose => "WINDOW_CLOSE" | .scheduledCut => "SCHEDULED_CUT" | .opened => "OPEN" | .closed => "CLOSED"
  | .undefined => "UNDEFINED" | .preparing => "PREPARING" | .removing => "REMOVING" | .idle => "IDLE"
  | .cutting => "CUTTING" | .none => "NONE" | .nightly => "NIGHTLY" | .once => "ONCE" | .done => "DONE"
  | .failed => "FAILED" | .stopped => "STOPPED" | .cut => "CUT" | .read => "READ" | .resend => "RESEND"
  | .close => "CLOSE" | .full => "FULL" | .noTarget => "NO_TARGET" | .reset => "RESET" | .stop => "STOP"
  | .scheduled => "SCHEDULED" | .manual => "MANUAL" | .duplication => "DUPLICATION" | .active => "ACTIVE"
  | .retiring => "RETIRING" | .running => "RUNNING" | .waiting => "WAITING" | .queued => "QUEUED" | .ended => "ENDED"
  | .pending => "PENDING" | .quota => "QUOTA" | .groupQuota => "GROUP_QUOTA" | .mediaError => "MEDIA_ERROR"
  | .timeout => "TIMEOUT" | .poolDown => "POOL_DOWN" | .preserveFailed => "PRESERVE_FAILED"
  | .reserveFull => "RESERVE_FULL" | .cancelled => "CANCELLED" | .notRun => "NOT_RUN"
  | .doneWithErrors => "DONE_WITH_ERRORS" | .window => "WINDOW" | .demand => "DEMAND" | .sprint => "SPRINT"
  | .share => "SHARE" | .trickle => "TRICKLE" | .sweeping => "SWEEPING" | .draining => "DRAINING"
  | .closing => "CLOSING" | .on => "ON" | .off => "OFF" | .shut => "SHUT" | .resending => "RESENDING"
  | .busy => "BUSY" | .exhausted => "EXHAUSTED" | .drain => "DRAIN" | .link => "LINK" | .notReady => "NOT_READY"
  | .silence => "SILENCE"

/-! ### Codes -/

/-- Completion status codes (section 11.1). -/
def Status.code : Status → Nat
  | .ok => 0 | .malformed => 1 | .tagBusy => 2 | .noVolume => 3 | .notReady => 4 | .outOfRange => 5 | .fenced => 6
  | .quota => 7 | .groupQuota => 8 | .reserveFull => 9 | .retry => 10 | .preserveFailed => 11 | .mediaError => 12
  | .timeout => 13 | .poolDown => 14 | .aborted => 15

/-- Management status codes (section 11.1). -/
def MgmtStatus.code : MgmtStatus → Nat
  | .ok => 0 | .malformed => 1 | .notPermitted => 2 | .badArgument => 3 | .notFound => 4 | .busy => 5 | .full => 6
  | .conflict => 7 | .exhausted => 8 | .fenced => 9 | .aborted => 10

/-- Management response reason codes, 0 for none (section 11.1). -/
def reasonCode : Option MgmtReason → Nat
  | none => 0
  | some .noVolume => 1 | some .notReady => 2 | some .range => 3 | some .snapshot => 4 | some .drain => 5
  | some .reset => 6

/-- Kind bytes of a server frame (section 11.1). -/
def Kind.code : Kind → Byte
  | .read => 1 | .write => 2 | .release => 3 | .mgmt => 4

/-- Notice kind codes (section 11.3). -/
def NoticeKind.code : NoticeKind → Nat
  | .quotaSoft => 1 | .quotaExpired => 2 | .quotaHard => 3 | .groupFull => 4 | .reserveLow => 5 | .cutDone => 6
  | .cutFailed => 7 | .snapshotRetired => 8 | .restoreExtent => 9 | .restoreEnd => 10 | .passEnd => 11
  | .passFailed => 12 | .windowOverrun => 13 | .portFenced => 14 | .peerLost => 15 | .peerAttention => 16
  | .poolDown => 17 | .clockInvalid => 18

/-! ### Names of the states a frame carries -/

def Link.name : Link → Name | .down => .down | .up => .up
def Role.name : Role → Name | .manager => .manager | .data => .data
def FenceReason.name : FenceReason → Name | .liveness => .liveness | .command => .command
def fenceName : Option FenceReason → Name | none => .clear | some _ => .fenced
def QuotaState.name : QuotaState → Name | .under => .under | .soft => .soft | .expired => .expired
def Action.name : Action → Name
  | .windowOpen => .windowOpen | .windowClose => .windowClose | .scheduledCut => .scheduledCut
def Window.name : Window → Name | .opened => .opened | .closed => .closed
def VolState.name : VolState → Name | .preparing => .preparing | .ready => .ready | .removing => .removing
def CutKind.name : CutKind → Name | .scheduled => .scheduled | .manual => .manual | .duplication => .duplication
def SnapState.name : SnapState → Name | .active => .active | .retiring => .retiring
def Enrolment.name : Enrolment → Name | .none => .none | .nightly => .nightly | .once => .once
def PassOutcome.name : PassOutcome → Name | .done => .done | .failed => .failed | .stopped => .stopped
def PassReason.name : PassReason → Name
  | .cut => .cut | .read => .read | .resend => .resend | .close => .close | .full => .full | .noTarget => .noTarget
  | .reset => .reset | .stop => .stop
def RestoreState.name : RestoreState → Name | .queued => .queued | .running => .running | .ended => .ended
def RestoreOutcome.name : RestoreOutcome → Name
  | .done => .done | .doneWithErrors => .doneWithErrors | .cancelled => .cancelled
def RestoreReason.name : RestoreReason → Name | .command => .command | .reset => .reset
def Origin.name : Origin → Name | .window => .window | .demand => .demand
def Pacing.name : Pacing → Name | .sprint => .sprint | .share => .share | .trickle => .trickle
def PassState.name : PassState → Name
  | .cutting => .cutting | .sweeping => .sweeping | .draining => .draining | .closing => .closing
def BatchState.name : BatchState → Name | .opened => .opened | .shut => .shut | .resending => .resending
def OffsiteLink.name : OffsiteLink → Name | .down => .down | .up => .up | .ready _ => .ready

/-- The name of a status that an extent outcome or notice carries (R120). -/
def Status.name : Status → Name
  | .quota => .quota | .groupQuota => .groupQuota | .mediaError => .mediaError | .timeout => .timeout
  | .poolDown => .poolDown | .preserveFailed => .preserveFailed | .reserveFull => .reserveFull
  | .fenced => .fenced | .notReady => .notReady | _ => .failed

def ExtentOutcome.name : ExtentOutcome → Name
  | .pending => .pending | .running => .running | .done => .done | .failed s => s.name | .cancelled => .cancelled
  | .notRun => .notRun

/-! ### Management commands and their arguments -/

/-- The commands of section 10.2. -/
inductive CommandName where
  | identify | keepalive | portSet | portRead | fence | unfence | pathReset | timeSet | timeRead | scheduleSet
  | scheduleRead | accountLoad | accountRead | groupLoad | groupRead | preserveArea | volumeDefine | volumeRead
  | volumeRemove | reserveSet | cut | retire | snapshotList | restore | restoreStatus | restoreCancel | enrol
  | duplicateNow | pacingSet | stagingSet | passStatus | passStop | signalPeer | noticeRead
deriving DecidableEq, Repr

/-- A command's name as section 10.2 prints it. -/
def CommandName.text : CommandName → String
  | .identify => "IDENTIFY" | .keepalive => "KEEPALIVE" | .portSet => "PORT SET" | .portRead => "PORT READ"
  | .fence => "FENCE" | .unfence => "UNFENCE" | .pathReset => "PATH RESET" | .timeSet => "TIME SET"
  | .timeRead => "TIME READ" | .scheduleSet => "SCHEDULE SET" | .scheduleRead => "SCHEDULE READ"
  | .accountLoad => "ACCOUNT LOAD" | .accountRead => "ACCOUNT READ" | .groupLoad => "GROUP LOAD"
  | .groupRead => "GROUP READ" | .preserveArea => "PRESERVE AREA" | .volumeDefine => "VOLUME DEFINE"
  | .volumeRead => "VOLUME READ" | .volumeRemove => "VOLUME REMOVE" | .reserveSet => "RESERVE SET" | .cut => "CUT"
  | .retire => "RETIRE" | .snapshotList => "SNAPSHOT LIST" | .restore => "RESTORE"
  | .restoreStatus => "RESTORE STATUS" | .restoreCancel => "RESTORE CANCEL" | .enrol => "ENROL"
  | .duplicateNow => "DUPLICATE NOW" | .pacingSet => "PACING SET" | .stagingSet => "STAGING SET"
  | .passStatus => "PASS STATUS" | .passStop => "PASS STOP" | .signalPeer => "SIGNAL PEER"
  | .noticeRead => "NOTICE READ"

/-- Every command of section 10.2. -/
def CommandName.all : List CommandName :=
  [.identify, .keepalive, .portSet, .portRead, .fence, .unfence, .pathReset, .timeSet, .timeRead, .scheduleSet,
   .scheduleRead, .accountLoad, .accountRead, .groupLoad, .groupRead, .preserveArea, .volumeDefine, .volumeRead,
   .volumeRemove, .reserveSet, .cut, .retire, .snapshotList, .restore, .restoreStatus, .restoreCancel, .enrol,
   .duplicateNow, .pacingSet, .stagingSet, .passStatus, .passStop, .signalPeer, .noticeRead]

/-- R185: the bytes of offsets 24 to 39 spell the command's name. -/
def Command.isNamed (c : Command) (n : CommandName) : Bool :=
  upToZero c.name = ascii n.text

/-- The catalogue entry a command's name bytes spell (R173 check 1). -/
def Command.lookup (c : Command) : Option CommandName :=
  CommandName.all.find? fun n => c.isNamed n

/-- The commands a DATA port may issue (R172). -/
def CommandName.forData : CommandName → Bool
  | .identify | .keepalive | .accountRead | .restoreStatus => true
  | _ => false

/-- One argument: a number, or 16 bytes that carry a name (section 11.2). -/
inductive Arg where
  | num (n : Nat)
  | text (bytes : List Byte)
deriving DecidableEq, Repr

/-- The shape of one argument: a number of so many bytes, or a 16-byte name. -/
inductive ArgShape where
  | num (width : Nat)
  | text
deriving DecidableEq, Repr

def ArgShape.width : ArgShape → Nat
  | .num w => w
  | .text => 16

/-- R186: the arguments in the order of section 10.2, each in its width. The optional usage of ACCOUNT LOAD is a
presence byte and 4 bytes. RESTORE's extent list follows its three fixed arguments and is read by readExtents. -/
def CommandName.shape : CommandName → List ArgShape
  | .identify | .keepalive | .portRead | .pathReset | .timeRead | .scheduleRead | .passStatus | .passStop => []
  | .portSet => [.num 1, .text, .num 2]
  | .fence | .unfence => [.num 1]
  | .timeSet => [.num 2, .num 1, .num 1, .num 1, .num 1, .num 1]
  | .scheduleSet => [.num 1, .num 1, .text, .num 1, .num 1, .num 1, .num 1]
  | .accountLoad => [.num 2, .num 4, .num 4, .num 2, .num 2, .num 1, .num 4]
  | .accountRead => [.num 2]
  | .groupLoad => [.num 2, .num 8]
  | .groupRead => [.num 2]
  | .preserveArea => [.num 8, .num 4]
  | .volumeDefine => [.num 1, .num 8, .num 4, .num 4, .num 1, .num 1]
  | .volumeRead | .volumeRemove | .snapshotList | .duplicateNow => [.num 1]
  | .reserveSet => [.num 1, .num 4, .num 1]
  | .cut => [.num 1, .num 2]
  | .retire => [.num 1, .num 4]
  | .restore => [.num 1, .num 4, .num 2]
  | .restoreStatus | .restoreCancel => [.num 2]
  | .enrol => [.num 1, .text, .num 2]
  | .pacingSet => [.text]
  | .stagingSet => [.num 1, .num 1, .num 1, .num 1]
  | .signalPeer => [.num 4]
  | .noticeRead => [.num 1]

/-- The arguments of an area of exactly the shape's length (R173 check 2, R186). -/
def readArgs : List ArgShape → List Byte → Option (List Arg)
  | [], [] => some []
  | [], _ :: _ => none
  | s :: ss, bs =>
    if bs.length < s.width then none
    else
      let a := match s with
        | .num w => Arg.num (leNat (bs.take w))
        | .text => Arg.text (bs.take 16)
      (readArgs ss (bs.drop s.width)).map (a :: ·)

/-- One extent of 13 bytes (section 11.2). -/
def readExtent (bs : List Byte) : Extent :=
  { source := numAt bs 0 4, count := numAt bs 4 2, destVolume := numAt bs 6 1, dest := numAt bs 7 4
    fresh := numAt bs 11 1 ≠ 0, notify := numAt bs 12 1 ≠ 0 }

/-- n extents of 13 bytes each. -/
def readExtentsN : Nat → List Byte → List Extent
  | 0, _ => []
  | n + 1, bs => readExtent (bs.take 13) :: readExtentsN n (bs.drop 13)

/-- R186: the RESTORE extent list, a count byte of 0 to 32 and that many extents, nothing left over. -/
def readExtents (bs : List Byte) : Option (List Extent) :=
  match bs with
  | [] => none
  | c :: rest =>
    if c.toNat ≤ 32 ∧ rest.length = 13 * c.toNat then some (readExtentsN c.toNat rest) else none

/-- The 16 bytes carry this name, padded with zero bytes (chapter 11, opening). -/
def isName (bs : List Byte) (n : Name) : Bool := bs = padded n.text

def readRole (bs : List Byte) : Option Role :=
  if isName bs .manager then some .manager else if isName bs .data then some .data else none

def readAction (bs : List Byte) : Option Action :=
  if isName bs .windowOpen then some .windowOpen
  else if isName bs .windowClose then some .windowClose
  else if isName bs .scheduledCut then some .scheduledCut
  else none

def readEnrolment (bs : List Byte) : Option Enrolment :=
  if isName bs .none then some .none
  else if isName bs .nightly then some .nightly
  else if isName bs .once then some .once
  else none

/-- R139: any other value is stored as TRICKLE. -/
def readPacing (bs : List Byte) : Pacing :=
  if isName bs .sprint then .sprint else if isName bs .share then .share else .trickle

/-- A minute, hour or day argument: FFh is ANY (section 11.2); none when it is out of its range (R55). -/
def readPattern (lo hi n : Nat) : Option (Option Nat) :=
  if n = 255 then some none else if lo ≤ n ∧ n ≤ hi then some (some n) else none

/-! ### Fields of a result area (R186) -/

/-- A yes-or-no result. -/
def Item.flag (b : Bool) : Item := .num 1 (if b then 1 else 0)

/-- A number that may be absent: a presence byte, then the number or zeros. -/
def Item.optNum (width : Nat) : Option Nat → List Item
  | none => [.num 1 0, .raw (zeros width)]
  | some n => [.num 1 1, .num width n]

/-- A name that may be absent. -/
def Item.optName : Option Name → List Item
  | none => [.num 1 0, .raw (zeros 16)]
  | some n => [.num 1 1, .name n]

/-- A calendar time that may be absent. -/
def Item.optTime : Option CalTime → List Item
  | none => [.num 1 0, .raw (zeros 8)]
  | some t => [.num 1 1, .time t]

/-- A calendar time, 8 bytes (section 11.2). -/
def CalTime.bytes (t : CalTime) : List Byte :=
  leBytes 2 t.year ++ leBytes 1 t.month ++ leBytes 1 t.day ++ leBytes 1 t.hour ++ leBytes 1 t.minute
    ++ leBytes 1 t.second ++ zeros 1

def Item.bytes : Item → List Byte
  | .num w v => leBytes w v
  | .name n => padded n.text
  | .time t => t.bytes
  | .raw bs => bs

/-- A list in a result: a 1-byte count followed by its items. -/
def Item.counted (items : List (List Item)) : List Item :=
  .num 1 items.length :: items.flatten

/-! ### Layouts of what the part sends (chapter 11) -/

/-- A completion (section 11.1 and its Note 1). -/
def Completion.bytes (c : Completion) : List Byte :=
  leBytes 4 (12 + c.data.length) ++ [c.kind] ++ leBytes 1 c.tag ++ leBytes 1 c.status.code ++ [0]
    ++ leBytes 2 c.count ++ leBytes 2 0 ++ c.data

/-- A management response (section 11.1 and its Note 1). -/
def Response.bytes (r : Response) : List Byte :=
  let area := (r.result.map Item.bytes).flatten
  leBytes 4 (8 + area.length) ++ [4] ++ leBytes 1 r.tag ++ leBytes 1 r.status.code ++ leBytes 1 (reasonCode r.reason)
    ++ area

/-- An offsite frame (section 11.4). -/
def OffsiteFrame.bytes : OffsiteFrame → List Byte
  | .openBatch s t => leBytes 4 8 ++ [0x11] ++ leBytes 1 s ++ leBytes 2 t
  | .grain t g v d c => leBytes 4 32787 ++ [0x12] ++ leBytes 2 t ++ leBytes 4 g ++ leBytes 4 v ++ d ++ leBytes 4 c.toNat
  | .shut s n c => leBytes 4 12 ++ [0x13] ++ leBytes 1 s ++ leBytes 2 n ++ leBytes 4 c.toNat
  | .passEnd t d n => leBytes 4 15 ++ [0x14] ++ leBytes 2 t ++ leBytes 4 d ++ leBytes 4 n
  | .attention c => leBytes 4 7 ++ [0x15] ++ leBytes 2 c

/-- Subject type and subject of a notice record (section 11.3). -/
def Subject.code : Subject → Nat
  | .absent => 0 | .account _ => 1 | .group _ => 2 | .volume _ => 3 | .snapshot _ _ => 4 | .restore _ => 5 | .port _ => 6

def Subject.bytes : Subject → List Byte
  | .absent => zeros 4
  | .account n | .group n | .volume n | .restore n | .port n => leBytes 4 n
  | .snapshot v n => leBytes 1 v ++ leBytes 3 n

/-- The 20 value bytes of a notice record (section 11.3). -/
def NoticeValue.bytes : NoticeValue → List Byte
  | .number n => leBytes 8 n ++ zeros 12
  | .name n => padded n.text ++ zeros 4
  | .extent o n => padded o.text ++ leBytes 1 n ++ zeros 3
  | .restoreEnd o r =>
    padded o.text ++ [match r with | none => 0 | some .command => 1 | some .reset => 2] ++ zeros 3
  | .code n => leBytes 2 n ++ zeros 18

/-- The 36-byte notice record (section 11.3). -/
def Notice.bytes (n : Notice) : List Byte :=
  leBytes 1 n.kind.code ++ leBytes 1 (if n.time.isSome then 1 else 0) ++ leBytes 1 n.subject.code ++ [0]
    ++ (match n.time with | none => zeros 8 | some t => t.bytes)
    ++ n.subject.bytes ++ n.value.bytes

/-- The grain check: the sum modulo 2^32 of the 32-bit words, each read least significant byte first (R144). -/
def grainCheck : List Byte → BitVec 32
  | a :: b :: c :: d :: rest => BitVec.ofNat 32 (leNat [a, b, c, d]) + grainCheck rest
  | _ => 0

end Sys2Proof.Machine
end

