-- ==== Sys2Proof/Decode.lean ====
section
/-! DEFINITION. From what arrives to a command. No row of spec/opcode_table.json gives bits, so no word spells a
command; what a server port or the offsite port delivers is read by the layouts of chapter 11. -/

namespace Sys2Proof

/-- The command a word spells by the table's bits: no row has any. -/
def decodeTableWord (_nbits _w : Nat) : Option Instr := none

/-- The transaction header of a server frame (section 11.1). A field past the delivered bytes reads as 0. -/
def readHeader (bytes : List Byte) : Header :=
  { delivered := bytes.length
    length := Machine.numAt bytes 0 4
    tag := Machine.numAt bytes 5 1
    volume := Machine.numAt bytes 6 1
    declared := Machine.numAt bytes 7 1
    account := Machine.numAt bytes 8 2
    blocks := Machine.numAt bytes 10 2
    released := Machine.numAt bytes 12 2
    first := Machine.numAt bytes 16 8 }

/-- R185: the event that the bytes delivered on a server port are. -/
def decodeServerFrame (port : PortId) (bytes : List Byte) : Instr :=
  if bytes.length < 6 then .runtFrame port bytes
  else
    let h := readHeader bytes
    match Machine.numAt bytes 4 1 with
    | 1 => .read port h
    | 2 => .write port h (bytes.drop 24)
    | 3 => .release port h
    | 4 => .mgmtFrame port h ((bytes.drop 24).take 16) (bytes.drop 40)
    | k => .malformedFrame port (BitVec.ofNat 8 k) (BitVec.ofNat 8 h.tag)

/-- The reason byte of a REFUSE frame (section 11.4). -/
def readRefuseReason : Nat → Option RefuseReason
  | 1 => some .data
  | 2 => some .order
  | 3 => some .full
  | 4 => some .noTarget
  | _ => none

/-- R187: the event that the bytes delivered on the offsite port are. -/
def decodePeerFrame (bytes : List Byte) : Instr :=
  if Machine.numAt bytes 0 4 ≠ bytes.length then .unreadablePeerFrame bytes
  else
    match Machine.numAt bytes 4 1, bytes.length with
    | 0x21, 6 =>
      match Machine.numAt bytes 5 1 with
      | 1 => .peerStatus true
      | 0 => .peerStatus false
      | _ => .unreadablePeerFrame bytes
    | 0x22, 6 => .ack (Machine.numAt bytes 5 1)
    | 0x23, 7 =>
      match readRefuseReason (Machine.numAt bytes 6 1) with
      | some r => .refuse (Machine.numAt bytes 5 1) r
      | none => .unreadablePeerFrame bytes
    | 0x24, 11 => .passAck (Machine.numAt bytes 5 2) (Machine.numAt bytes 7 4)
    | 0x25, 7 => .attentionFromPeer (Machine.numAt bytes 5 2)
    | _, _ => .unreadablePeerFrame bytes

end Sys2Proof
end

