-- ==== Sys2Proof/Machine/Calendar.lean ====
section
/-! DEFINITION. The calendar's arithmetic: month lengths, weekday, the advance of one second, deadlines (chapter 3). -/

namespace Sys2Proof.Machine

/-- R44: leap years. -/
def isLeap (year : Nat) : Bool :=
  year % 4 = 0 && (year % 100 ≠ 0 || year % 400 = 0)

/-- R44: month lengths. -/
def monthLength (year month : Nat) : Nat :=
  if month = 2 then (if isLeap year then 29 else 28)
  else if month = 4 ∨ month = 6 ∨ month = 9 ∨ month = 11 then 30
  else 31

/-- Days of a year. -/
def yearLength (year : Nat) : Nat :=
  if isLeap year then 366 else 365

/-- Days from 2000-01-01 to the date, which counts as 0 itself (R45). -/
def CalTime.dayNumber (t : CalTime) : Nat :=
  ((List.range (t.year - 2000)).map fun i => yearLength (2000 + i)).sum
    + ((List.range (t.month - 1)).map fun i => monthLength t.year (i + 1)).sum
    + (t.day - 1)

/-- R45: weekday 1 is Monday, weekday 7 is Sunday. -/
def CalTime.weekday (t : CalTime) : Nat :=
  (t.dayNumber + 5) % 7 + 1

/-- R48: a date and time of the calendar. -/
def CalTime.valid (t : CalTime) : Bool :=
  2000 ≤ t.year && t.year ≤ 2199 && 1 ≤ t.month && t.month ≤ 12
    && 1 ≤ t.day && t.day ≤ monthLength t.year t.month
    && t.hour ≤ 23 && t.minute ≤ 59 && t.second ≤ 59

/-- The last second of the calendar (R47, R51). -/
def CalTime.last : CalTime :=
  { year := 2199, month := 12, day := 31, hour := 23, minute := 59, second := 59 }

/-- The fields as one number that grows with time, to compare two times. -/
def CalTime.rank (t : CalTime) : Nat :=
  ((((t.year * 13 + t.month) * 32 + t.day) * 24 + t.hour) * 60 + t.minute) * 60 + t.second

/-- At or before. -/
def CalTime.le (a b : CalTime) : Bool := a.rank ≤ b.rank

/-- The date one day later, the time of day kept (R46's carry from day through year). -/
def CalTime.nextDay (t : CalTime) : CalTime :=
  if t.day < monthLength t.year t.month then { t with day := t.day + 1 }
  else if t.month < 12 then { t with month := t.month + 1, day := 1 }
  else { t with year := t.year + 1, month := 1, day := 1 }

/-- The date n days later. -/
def CalTime.addDays : Nat → CalTime → CalTime
  | 0, t => t
  | n + 1, t => CalTime.addDays n t.nextDay

/-- R46: the advance of one second, carries included. -/
def CalTime.nextSecond (t : CalTime) : CalTime :=
  if t.second < 59 then { t with second := t.second + 1 }
  else if t.minute < 59 then { t with second := 0, minute := t.minute + 1 }
  else if t.hour < 23 then { t with second := 0, minute := 0, hour := t.hour + 1 }
  else CalTime.nextDay { t with second := 0, minute := 0, hour := 0 }

/-- R51: the time g hours later, at most the last second of the calendar. -/
def CalTime.addHours (t : CalTime) (g : Nat) : CalTime :=
  let h := t.hour + g
  let r := CalTime.addDays (h / 24) { t with hour := h % 24 }
  if r.year > 2199 then CalTime.last else r

/-- The calendar time an event carries: absent while the clock is INVALID (R59, R180). -/
def Clock.stamp (c : Clock) : Option CalTime :=
  if c.valid then some c.time else none

/-- A schedule entry matches the minute (R55). -/
def SchedEntry.matches (e : SchedEntry) (t : CalTime) : Bool :=
  e.enabled
    && (e.minute = none || e.minute = some t.minute)
    && (e.hour = none || e.hour = some t.hour)
    && e.weekdays.getLsbD (t.weekday - 1)
    && (e.day = none || e.day = some t.day)

end Sys2Proof.Machine
end

