-- ==== Sys2Proof/Machine/Table.lean ====
section
/-! DEFINITION. The operations on the part's tables. A table lists its keys in rising order; with a default, it lists
no key whose record equals the default, so equal tables are equal lists. The grain map in table DRAM (R67) is such
a table, and so are the account and group tables (R19, R21). -/

namespace Sys2Proof

/-- The record a table lists for a key. -/
def Table.find {α : Type} : Table α → Nat → Option α
  | [], _ => none
  | (k', v) :: t, k => if k' = k then some v else Table.find t k

/-- The table with the key's record set, keys kept rising. -/
def Table.insert {α : Type} : Table α → Nat → α → Table α
  | [], k, v => [(k, v)]
  | (k', v') :: t, k, v =>
    if k < k' then (k, v) :: (k', v') :: t
    else if k' = k then (k, v) :: t
    else (k', v') :: Table.insert t k v

/-- The table without the key. -/
def Table.erase {α : Type} (t : Table α) (k : Nat) : Table α :=
  t.filter fun e => e.1 ≠ k

/-- What a key reads as in a table whose unlisted keys read as d. -/
def Table.get {α : Type} (d : α) (t : Table α) (k : Nat) : α :=
  (t.find k).getD d

/-- The write that keeps the canonical form: a key given the default value is not listed. -/
def Table.put {α : Type} [DecidableEq α] (d : α) (t : Table α) (k : Nat) (v : α) : Table α :=
  if v = d then t.erase k else t.insert k v

/-- The keys of a table rise strictly. -/
abbrev Table.Sorted {α : Type} (t : Table α) : Prop :=
  t.Pairwise fun a b => a.1 < b.1

/-- The canonical form: keys rise strictly and no listed record equals the default. -/
abbrev Table.Wf {α : Type} (d : α) (t : Table α) : Prop :=
  t.Sorted ∧ ∀ e ∈ t, e.2 ≠ d

end Sys2Proof
end

