-- ==== Sys2Proof/Machine/Ops.lean ====
section
/-! DEFINITION. The named reads and writes of the part's records, and the sending of completions and responses. -/

namespace Sys2Proof.Machine

/-! ### Records -/

def Device.account (d : Device) (a : Nat) : Account := d.accounts.get Account.initial a

def Device.setAccount (d : Device) (a : Nat) (x : Account) : Device :=
  { d with accounts := d.accounts.put Account.initial a x }

def Device.group (d : Device) (g : Nat) : Group := d.groups.get Group.initial g

def Device.setGroup (d : Device) (g : Nat) (x : Group) : Device :=
  { d with groups := d.groups.put Group.initial g x }

/-- The record of a defined volume; none while UNDEFINED (R61). -/
def Device.volume? (d : Device) (v : Nat) : Option Volume := d.volumes.find v

def Device.setVolume (d : Device) (v : Nat) (x : Volume) : Device :=
  { d with volumes := d.volumes.insert v x }

def Device.onVolume (d : Device) (v : Nat) (f : Volume → Volume) : Device :=
  match d.volume? v with
  | some x => d.setVolume v (f x)
  | none => d

/-- Key of a transaction record: 32 tags to a port (R2). -/
def txnKey (p : PortId) (tag : Nat) : Nat := p.val * 32 + tag

/-- The open transaction that holds a tag; none while the tag is FREE (R2). -/
def Device.txn? (d : Device) (p : PortId) (tag : Nat) : Option Txn := d.txns.find (txnKey p tag)

def Device.setTxn (d : Device) (p : PortId) (tag : Nat) (t : Txn) : Device :=
  { d with txns := d.txns.insert (txnKey p tag) t }

def Device.onTxn (d : Device) (p : PortId) (tag : Nat) (f : Txn → Txn) : Device :=
  match d.txn? p tag with
  | some t => d.setTxn p tag (f t)
  | none => d

/-- The tag becomes FREE and its record closes. -/
def Device.freeTag (d : Device) (p : PortId) (tag : Nat) : Device :=
  { d with txns := d.txns.erase (txnKey p tag) }

/-- The port of a transaction key. -/
def keyPort (key : Nat) : PortId := ⟨key / 32 % 4, Nat.mod_lt _ (by decide)⟩

/-- The open transactions of a port in ascending tag order. -/
def Device.portTxns (d : Device) (p : PortId) : List (Nat × Txn) :=
  (d.txns.filter fun e => e.1 / 32 = p.val).map fun e => (e.1 % 32, e.2)

def Device.port (d : Device) (p : PortId) : Port := d.ports[p]

def Device.setPort (d : Device) (p : PortId) (x : Port) : Device :=
  { d with ports := d.ports.set p.val x p.isLt }

/-- Key of a pending entry: its volume and grain; a grain is below 2^31 (R61). -/
def pendKey (v g : Nat) : Nat := v * Config.totalGrains + g

def Device.entry? (d : Device) (v g : Nat) : Option Pending := d.pres.table.find (pendKey v g)

def Device.setEntry (d : Device) (x : Pending) : Device :=
  { d with pres.table := d.pres.table.insert (pendKey x.volume x.grain) x }

def Device.onEntry (d : Device) (v g : Nat) (f : Pending → Pending) : Device :=
  match d.entry? v g with
  | some x => { d with pres.table := d.pres.table.insert (pendKey v g) (f x) }
  | none => d

/-- The entry gives up its place (R84). -/
def Device.removeEntry (d : Device) (v g : Nat) : Device :=
  { d with pres.table := d.pres.table.erase (pendKey v g) }

/-- A free place of the pending grain table exists (R77). -/
def Device.hasPlace (d : Device) : Bool := d.pres.table.length < Config.pendingPlaces

def Device.slot? (d : Device) (k : SlotId) : Option CopySlot := d.copy.slots[k]

def Device.setSlot (d : Device) (k : SlotId) (x : Option CopySlot) : Device :=
  { d with copy.slots := d.copy.slots.set k.val x k.isLt }

def Device.restore? (d : Device) (id : Nat) : Option Restore := d.copy.restores.find? fun x => x.id = id

def Device.onRestore (d : Device) (id : Nat) (f : Restore → Restore) : Device :=
  { d with copy.restores := d.copy.restores.map fun x => if x.id = id then f x else x }

def Device.setTag (d : Device) (t : PoolTagId) (x : PoolTag) : Device :=
  { d with pool.tags := d.pool.tags.set t.val x t.isLt }

def Device.onPass (d : Device) (f : Pass → Pass) : Device :=
  { d with dup.pass := d.dup.pass.map f }

/-- The reference oscillator has reached the moment (DESIGN CHOICE, entry 1). -/
def Device.reach (d : Device) (moment : Nat) : Device :=
  { d with clock.now := max d.clock.now moment }

/-- A list in an order that is open (entry 10): as long as more than one item is left, a free value, from index i on,
says which comes next; n is one less than the number of items. -/
def openOrder {α : Type} : Nat → Nat → List α → List α
  | 0, _, l => l
  | n + 1, i, l =>
    let k := Config.endTurn i % l.length
    match l[k]? with
    | some x => x :: openOrder n (i + 1) (l.eraseIdx k)
    | none => l

/-! ### The write a WriteId names -/

/-- The job of a write on the server write path: a server WRITE's, or a WRITING copy slot's (R8, R125). -/
def Device.job? (d : Device) : WriteId → Option Job
  | .server p tag =>
    match d.txn? p tag with
    | some t => if t.kind = .write then some t.job else none
    | none => none
  | .slot k =>
    match d.slot? k with
    | some s =>
      match s.phase with
      | .writing j _ => some j
      | _ => none
    | none => none

def Device.onJob (d : Device) (w : WriteId) (f : Job → Job) : Device :=
  match w with
  | .server p tag => d.onTxn p tag fun t => { t with job := f t.job }
  | .slot k =>
    match d.slot? k with
    | some s =>
      match s.phase with
      | .writing j due => d.setSlot k (some { s with phase := .writing (f j) due })
      | _ => d
    | none => d

/-- R23: the number of touched grains. -/
def touchedCount (first blocks : Nat) : Nat := (first % 8 + blocks - 1) / 8 + 1

/-- R23: the touched grains, ascending. -/
def Job.touched (j : Job) : List Nat :=
  (List.range (touchedCount j.first j.blocks)).map fun i => j.first / 8 + i

/-! ### Grain map and snapshots of a volume -/

/-- R67: the last-written epoch of a grain. -/
def Volume.w (x : Volume) (g : Nat) : Nat := x.grains.get x.fill g

def Volume.setW (x : Volume) (g e : Nat) : Volume :=
  { x with grains := x.grains.put x.fill g e }

/-- Some ACTIVE snapshot has a number from lo to hi (R76, R82, R90, R109). -/
def Volume.activeIn (x : Volume) (lo hi : Nat) : Bool :=
  x.snapshots.any fun s => s.state = .active && lo ≤ s.number && s.number ≤ hi

/-- R76: the grain needs preservation. -/
def Volume.needs (x : Volume) (g : Nat) : Bool :=
  1 ≤ x.w g && x.w g < x.epoch && x.activeIn (x.w g) (x.epoch - 1)

/-- The volume's cut state is CUTTING (R98). -/
def Volume.cutting (x : Volume) : Bool := x.cut.isSome

/-- Some record of the volume's list is RETIRING. -/
def Volume.hasRetiring (x : Volume) : Bool := x.snapshots.any fun s => s.state = .retiring

def Device.needs (d : Device) (v g : Nat) : Bool :=
  match d.volume? v with
  | some x => x.needs g
  | none => false

/-- R91: the image of a grain as of snapshot k. -/
def Device.resolve (d : Device) (v k g : Nat) : Image :=
  match d.volume? v with
  | none => .unwritten
  | some x =>
    if x.w g = 0 then .unwritten
    else if x.w g ≤ k then .live (x.w g)
    else
      match d.pres.map.find? fun e => e.volume = v && e.grain = g && e.first ≤ k && k ≤ e.last with
      | some e => .slot e.slot e.first
      | none => .unwritten

/-! ### Frames sent on the server ports -/

def Device.emit (d : Device) (o : Output) : Device := { d with out := d.out ++ [o] }

/-- A refusal at acceptance is sent at once (R6). -/
def Device.refuse (d : Device) (p : PortId) (kind : Byte) (tag : Nat) (st : Status) : Device :=
  d.emit (.completion p { kind := kind, tag := tag, status := st, count := 0, data := [] })

/-- A MGMT frame refused at acceptance is answered with a response (R5). -/
def Device.refuseMgmt (d : Device) (p : PortId) (tag : Nat) (st : MgmtStatus) : Device :=
  d.emit (.response p { tag := tag, status := st, reason := none, result := [] })

/-- An answer of a transaction is sent when it is owed and the port is UP (R1, R6, R174). -/
def Device.mayAnswer (d : Device) (p : PortId) (t : Txn) : Bool := t.owed && (d.port p).link = .up

/-- R6: a READ, WRITE or RELEASE ends; its completion is sent or dropped and its tag is freed. -/
def Device.endTxn (d : Device) (p : PortId) (tag : Nat) (st : Status) (count : Nat) (data : List Byte) : Device :=
  match d.txn? p tag with
  | none => d
  | some t =>
    let sent :=
      if d.mayAnswer p t then
        d.emit (.completion p { kind := t.kind.code, tag := tag, status := st, count := count, data := data })
      else d
    sent.freeTag p tag

/-- R174: a MGMT transaction ends; its response is sent or dropped and its tag is freed. -/
def Device.reply (d : Device) (p : PortId) (tag : Nat) (st : MgmtStatus) (reason : Option MgmtReason)
    (result : List Item) : Device :=
  match d.txn? p tag with
  | none => d
  | some t =>
    let sent :=
      if d.mayAnswer p t then
        d.emit (.response p { tag := tag, status := st, reason := reason, result := result })
      else d
    sent.freeTag p tag

/-- The transaction a long command left to be answered, if any, is answered (R174). -/
def Device.answer (d : Device) (r : Option TxnRef) (st : MgmtStatus) (reason : Option MgmtReason)
    (result : List Item) : Device :=
  match r with
  | some r => d.reply r.port r.tag st reason result
  | none => d

end Sys2Proof.Machine
end

