-- ==== Sys2Proof/Machine/Flags.lean ====
section
/-! DEFINITION. The notice queue with its overflow flag and ATTN# (R180, R181, R183), and the armed flags of the
notices that fire once per crossing (R34, R35, R71). -/

namespace Sys2Proof.Machine

/-- R180, R181, R183: a notice is handed over; it joins at the tail, or is dropped and sets the overflow flag. -/
def Device.queueNotice (d : Device) (n : Notice) : Device :=
  if d.mgmt.notices.length < Config.noticePlaces then
    { d with mgmt.notices := d.mgmt.notices ++ [n], mgmt.attnLow := true }
  else { d with mgmt.overflow := true }

/-- A block hands over a notice of this event, timed by the calendar (R180). -/
def Device.notify (d : Device) (k : NoticeKind) (subject : Subject) (value : NoticeValue) : Device :=
  d.queueNotice { kind := k, time := d.clock.stamp, subject := subject, value := value }

/-- R24: the effective limit L. -/
def Account.limit (a : Account) : Nat :=
  if a.state = .expired ∧ a.soft > 0 then a.soft
  else if a.hard > 0 then a.hard
  else Config.accountMax

/-- R34: the check that may re-arm an account's hard notice. -/
def Account.rearm (a : Account) : Account :=
  if a.hardArmed = false ∧ a.limit < Config.accountMax ∧ a.usage + a.held ≤ a.limit - a.limit / 16 then
    { a with hardArmed := true }
  else a

/-- R35: the check that may re-arm a group's full notice. -/
def Group.rearm (g : Group) : Group :=
  if g.fullArmed = false ∧ (g.limit = 0 ∨ g.usage + g.held ≤ g.limit - g.limit / 16) then
    { g with fullArmed := true }
  else g

def Device.rearmAccount (d : Device) (a : Nat) : Device := d.setAccount a (d.account a).rearm

def Device.rearmGroup (d : Device) (g : Nat) : Device := d.setGroup g (d.group g).rearm

/-- R71: the RESERVE_LOW check, after a rise of slots held and after RESERVE SET. -/
def Device.reserveLowCheck (d : Device) (v : Nat) : Device :=
  match d.volume? v with
  | none => d
  | some x =>
    if x.reserveArmed ∧ x.reserve > 0 ∧ x.slotsHeld ≥ x.reserve - x.reserve / 8 then
      (d.setVolume v { x with reserveArmed := false }).notify .reserveLow (.volume v) (.number x.slotsHeld)
    else d

/-- R71: the re-arm check, after a fall of slots held and after RESERVE SET. -/
def Device.reserveRearm (d : Device) (v : Nat) : Device :=
  d.onVolume v fun x =>
    if x.reserveArmed = false ∧ x.slotsHeld ≤ x.reserve - x.reserve / 4 then { x with reserveArmed := true } else x

end Sys2Proof.Machine
end

