-- ==== Sys2Proof/Machine/Admission.lean ====
section
/-! DEFINITION. The admission unit: the admission computation, the ends of charged writes, RELEASE, grace (chapter 2)
and the grace list and undated set (R52, R53). -/

namespace Sys2Proof.Machine

/-! ### Grace list and undated set -/

/-- R52: the grace list's order, by deadline and then by account number. -/
def Device.graceBefore (d : Device) (a b : Nat) : Bool :=
  let ra := ((d.account a).deadline.map CalTime.rank).getD 0
  let rb := ((d.account b).deadline.map CalTime.rank).getD 0
  ra < rb || (ra = rb && a < b)

/-- A list with an item put before the first item it comes before. -/
def insertBefore {α : Type} (before : α → α → Bool) (x : α) : List α → List α
  | [] => [x]
  | y :: ys => if before x y then x :: y :: ys else y :: insertBefore before x ys

/-- R52: an account with a deadline joins the grace list at the place its deadline and number give it. -/
def Device.joinGrace (d : Device) (a : Nat) : Device :=
  { d with clock.graceList := insertBefore d.graceBefore a (d.clock.graceList.filter (· ≠ a)) }

/-- R53: an account joins the undated set. -/
def Device.joinUndated (d : Device) (a : Nat) : Device :=
  { d with clock.undated := insertBefore (fun x y => decide (x < y)) a (d.clock.undated.filter (· ≠ a)) }

/-- R52, R53: an account leaves the grace list or the undated set, whichever holds it. -/
def Device.leaveGrace (d : Device) (a : Nat) : Device :=
  { d with clock.graceList := d.clock.graceList.filter (· ≠ a), clock.undated := d.clock.undated.filter (· ≠ a) }

/-- R27: an account enters grace from UNDER. -/
def Device.enterGrace (d : Device) (a : Nat) : Device :=
  let x := d.account a
  let d := d.setAccount a { x with state := .soft }
  let d := d.notify .quotaSoft (.account a) (.number (x.usage + x.held))
  if x.grace = 0 then
    let d := d.setAccount a { x with state := .expired, deadline := none }
    d.notify .quotaExpired (.account a) (.number x.soft)
  else if d.clock.valid then
    let d := d.setAccount a { x with state := .soft, deadline := some (d.clock.time.addHours x.grace) }
    d.joinGrace a
  else
    let d := d.setAccount a { x with state := .soft, deadline := none }
    d.joinUndated a

/-! ### Admission -/

/-- R24: a QUOTA refusal hands over QUOTA_HARD while the hard notice is armed, and disarms it. -/
def Device.refuseQuota (d : Device) (a : Nat) : Device :=
  let x := d.account a
  if x.hardArmed then
    (d.setAccount a { x with hardArmed := false }).notify .quotaHard (.account a) (.number x.limit)
  else d

/-- R25: a GROUP_QUOTA refusal hands over GROUP_FULL while the full notice is armed, and disarms it. -/
def Device.refuseGroup (d : Device) (g : Nat) : Device :=
  let x := d.group g
  if x.fullArmed then
    (d.setGroup g { x with fullArmed := false }).notify .groupFull (.group g) (.number x.limit)
  else d

/-- R26: the charge, and the soft check after it. -/
def Device.charge (d : Device) (a c : Nat) : Device :=
  let x := d.account a
  let g := d.group x.group
  let d := d.setAccount a { x with held := x.held + c }
  let d := d.setGroup x.group { g with held := g.held + c }
  if x.soft > 0 ∧ x.state = .under ∧ x.usage + x.held + c > x.soft then d.enterGrace a else d

/-- R24: stage 3 refuses a charge of c. -/
def Device.overQuota (d : Device) (a c : Nat) : Bool :=
  let x := d.account a
  x.usage + x.held + c > x.limit

/-- R25: stage 4 refuses a charge of c. -/
def Device.overGroup (d : Device) (a c : Nat) : Bool :=
  let i := (d.account a).group
  let g := d.group i
  i ≠ 0 && g.limit ≠ 0 && g.usage + g.held + c > g.limit

/-- R23 to R27: the admission computation for a charge of c; none when the write passes stage 5. -/
def Device.admission (d : Device) (a c : Nat) : Device × Option Status :=
  if c = 0 then (d, none)
  else if d.overQuota a c then (d.refuseQuota a, some .quota)
  else if d.overGroup a c then (d.refuseGroup (d.account a).group, some .groupQuota)
  else (d.charge a c, none)

/-- R23: the charge of a job, its declared grains clamped to its touched grains. -/
def Job.chargeOf (j : Job) : Nat := min j.declared (touchedCount j.first j.blocks)

/-! ### Ends of charged writes -/

/-- R30: the state re-check. -/
def Device.recheckState (d : Device) (a : Nat) : Device :=
  let x := d.account a
  if x.state ≠ .under ∧ x.usage + x.held ≤ x.soft then
    (d.setAccount a { x with state := .under, deadline := none }).leaveGrace a
  else d

/-- R30, R34, R35: the checks that follow a write end or a RELEASE. -/
def Device.quotaChecks (d : Device) (a : Nat) : Device :=
  let d := d.recheckState a
  let d := d.rearmAccount a
  d.rearmGroup (d.account a).group

/-- R28 without its checks: held moves to usage; usage stops at its greatest value. -/
def Device.chargeToUsage (d : Device) (a c : Nat) : Device :=
  let x := d.account a
  let g := d.group x.group
  let u := min (x.usage + c) Config.accountMax
  let d := d.setAccount a { x with held := x.held - c, usage := u }
  d.setGroup x.group { g with held := g.held - c, usage := g.usage + (u - x.usage) }

/-- R29 without its checks: held is released. -/
def Device.releaseCharge (d : Device) (a c : Nat) : Device :=
  let x := d.account a
  let g := d.group x.group
  let d := d.setAccount a { x with held := x.held - c }
  d.setGroup x.group { g with held := g.held - c }

/-- R28, R29: the end of an admitted write of charge c; a charge of 0 has no effect. -/
def Device.settleCharge (d : Device) (a c : Nat) (ok : Bool) : Device :=
  if c = 0 then d
  else (if ok then d.chargeToUsage a c else d.releaseCharge a c).quotaChecks a

/-- R31: what a RELEASE of r grains removes. -/
def Device.removedCount (d : Device) (a r : Nat) : Nat := min r (d.account a).usage

/-- R31: RELEASE on the account and its group, with its checks. -/
def Device.releaseGrains (d : Device) (a r : Nat) : Device :=
  let x := d.account a
  let g := d.group x.group
  let n := d.removedCount a r
  let d := d.setAccount a { x with usage := x.usage - n, underflow := x.underflow || decide (r > x.usage) }
  let d := d.setGroup x.group { g with usage := g.usage - n }
  d.quotaChecks a

/-- R32: an account's grace expires. -/
def Device.expire (d : Device) (a : Nat) : Device :=
  let d := { d with clock.graceList := d.clock.graceList.filter (· ≠ a) }
  let x := d.account a
  let d := d.setAccount a { x with state := .expired, deadline := none }
  let d := d.notify .quotaExpired (.account a) (.number x.soft)
  let d := d.rearmAccount a
  d.rearmGroup x.group

/-- R54: the expiry scan, at most n accounts. -/
def expiryScan : Nat → Device → Device
  | 0, d => d
  | n + 1, d =>
    match d.clock.graceList with
    | [] => d
    | a :: _ =>
      match (d.account a).deadline with
      | some t => if t.le d.clock.time then expiryScan n (d.expire a) else d
      | none => d

/-! ### ACCOUNT LOAD and GROUP LOAD -/

/-- R39: the account moves to another group, its usage and held with it. -/
def Device.moveGroup (d : Device) (a g' : Nat) : Device :=
  let x := d.account a
  if x.group = g' then d
  else
    let old := d.group x.group
    let d := d.setGroup x.group { old with usage := old.usage - x.usage, held := old.held - x.held }
    let new := d.group g'
    let d := d.setGroup g' { new with usage := new.usage + x.usage, held := new.held + x.held }
    d.setAccount a { x with group := g' }

/-- R40: the account's usage is set and its group follows by the difference. -/
def Device.loadUsage (d : Device) (a u : Nat) : Device :=
  let x := d.account a
  let g := d.group x.group
  let d := d.setAccount a { x with usage := u, underflow := false }
  d.setGroup x.group { g with usage := g.usage + u - x.usage }

/-- R38: the state after a load. -/
def Device.loadState (d : Device) (a : Nat) : Device :=
  let x := d.account a
  if x.soft = 0 ∨ x.usage + x.held ≤ x.soft then
    (d.setAccount a { x with state := .under, deadline := none }).leaveGrace a
  else if x.state = .under then d.enterGrace a
  else d

/-- R37: the limits, grace and group of an account, and its usage when given, taken whole as one event. -/
def Device.loadAccount (d : Device) (a soft hard grace group : Nat) (usage : Option Nat) : Device :=
  let x := d.account a
  let s := if hard > 0 ∧ soft > hard then hard else soft
  let old := x.group
  let d := d.setAccount a { x with soft := s, hard := hard, grace := min grace 2160 }
  let d := d.moveGroup a group
  let d := match usage with
    | some u => d.loadUsage a u
    | none => d
  let d := d.loadState a
  let d := d.rearmAccount a
  let d := d.rearmGroup old
  d.rearmGroup group

end Sys2Proof.Machine
end

