-- ==== Sys2Proof/Machine/PoolPort.lean ====
section
/-! DEFINITION. The pool request queue and the pool arbiter (R10 to R13). -/

namespace Sys2Proof.Machine

/-- The lowest-numbered FREE pool tag from lo to hi (R12). -/
def Pool.firstFree (p : Pool) (lo hi : Nat) : Option PoolTagId :=
  (List.finRange 64).find? fun t => decide (lo ≤ t.val) && decide (t.val ≤ hi) && p.tags[t] = .free

/-- Lowest FREE reserved tag, 60 to 63. -/
def Pool.freeReserved (p : Pool) : Option PoolTagId := p.firstFree 60 63

/-- Lowest FREE unreserved tag, 0 to 59. -/
def Pool.freeUnreserved (p : Pool) : Option PoolTagId := p.firstFree 0 59

/-- R13: a granted request is issued; its requester's record moves to FORWARDED with the tag. -/
def Device.issue (d : Device) (t : PoolTagId) (r : PoolRequest) : Device :=
  let d := d.setTag t (.busy r.requester d.clock.now)
  let d := match r.requester with
    | .server p tag => d.onTxn p tag fun x => { x with job := { x.job with stage := .forwarded t } }
    | .slot k => d.onJob (.slot k) fun j => { j with stage := .forwarded t }
    | .preserve _ _ => d
  d.emit (.pool t r.op)

/-- R12: the one grant the arbiter makes now, if some FREE tag can be taken by some waiting request. -/
def Device.grantOne (d : Device) : Option Device :=
  match d.pool.preserveQ with
  | r :: rest =>
    match d.pool.freeReserved <|> d.pool.freeUnreserved with
    | some t => some ({ d with pool.preserveQ := rest }.issue t r)
    | none => none
  | [] =>
    match d.pool.freeUnreserved with
    | none => none
    | some t =>
      match d.pool.pathQ, d.pool.copyQ with
      | r :: rest, [] => some ({ d with pool.pathQ := rest, pool.streak := 0 }.issue t r)
      | r :: rest, c :: crest =>
        if d.pool.streak < 3 then
          some ({ d with pool.pathQ := rest, pool.streak := d.pool.streak + 1 }.issue t r)
        else some ({ d with pool.copyQ := crest, pool.streak := 0 }.issue t c)
      | [], c :: crest => some ({ d with pool.copyQ := crest, pool.streak := 0 }.issue t c)
      | [], [] => none

/-- R12: grants one at a time while such a pair remains, at most n. -/
def grantLoop : Nat → Device → Device
  | 0, d => d
  | n + 1, d =>
    match d.grantOne with
    | some d' => grantLoop n d'
    | none => d

/-- The number of requests that wait. -/
def Pool.waiting (p : Pool) : Nat := p.preserveQ.length + p.pathQ.length + p.copyQ.length

/-- R12: the arbiter makes its grants. -/
def Device.grantPool (d : Device) : Device := grantLoop d.pool.waiting d

/-- R11: a request joins at the tail of its class, and the arbiter looks. Called only while the pool link is UP; a
request made while it is DOWN ends at once with POOL_DOWN (R14). -/
def Device.joinPool (d : Device) (r : PoolRequest) : Device :=
  let d := match r.requester with
    | .server _ _ => { d with pool.pathQ := d.pool.pathQ ++ [r] }
    | .preserve _ _ => { d with pool.preserveQ := d.pool.preserveQ ++ [r] }
    | .slot _ => { d with pool.copyQ := d.pool.copyQ ++ [r] }
  d.grantPool

/-- R11: the PATH request of a discarded server transaction is withdrawn. -/
def Device.withdrawPath (d : Device) (p : PortId) (tag : Nat) : Device :=
  { d with pool.pathQ := d.pool.pathQ.filter fun r => r.requester ≠ .server p tag }

/-- R13: the pool transaction of a server READ or WRITE, or of a restore write. -/
def Device.jobOp (d : Device) (j : Job) (isRead : Bool) : PoolOp :=
  let base := match d.volume? j.volume with
    | some x => x.base
    | none => 0
  if isRead then .read (base + j.first) j.blocks else .write (base + j.first) j.blocks j.payload

/-- R13: pool block address of a live grain. -/
def Device.grainAddr (d : Device) (v g : Nat) : Nat :=
  match d.volume? v with
  | some x => x.base + 8 * g
  | none => 8 * g

/-- R13: pool block address of a preserve slot. -/
def Device.slotAddr (d : Device) (s : Nat) : Nat :=
  match d.area with
  | some a => a.base + 8 * s
  | none => 8 * s

end Sys2Proof.Machine
end

