-- ==== Sys2Proof/Machine/Tasks.lean ====
section
/-! DEFINITION. The consequences that one event carries from block to block. An operation answers the part as it left
it and the consequences still to be carried out, in order; a consequence's own consequences come before the next
(DESIGN CHOICE, entry 14). -/

namespace Sys2Proof.Machine

/-- A consequence of an event, carried out within the event. -/
inductive Task where
  /-- an admitted write ends (R9, R28, R29, R66, R85) -/
  | writeEnd (w : WriteId) (r : Status)
  /-- the state re-check and notice checks after a discarded write's release (R30, R34, R35, R165) -/
  | recheck (account : Nat)
  /-- the conditions of a cut's completion (R103) and of a removal's end (R72) are looked at -/
  | volumeCheck (v : Nat)
  /-- the conditions of a removal's end (R72) are looked at, a pending entry having left -/
  | removalCheck (v : Nat)
  /-- a SLOT_WAIT entry that lost its last waiter gives up its wait (R85) -/
  | giveUp (v g : Nat)
  /-- a write is charged or refused, stamped and taken by the preservation unit (R22, R66, R78) -/
  | admission (w : WriteId)
  /-- the preservation unit takes the write's remaining touched grains (R79) -/
  | walk (w : WriteId) (grains : List Nat)
  /-- a write that waits on no entry goes on to the pool request queue (R8, R79) -/
  | handOn (w : WriteId)
  /-- a preservation starts on an entry (R80) -/
  | startPreservation (v g : Nat)
  /-- the preserve store of an entry ended OK (R82) -/
  | storeDone (v g : Nat)
  /-- a preservation fails (R86) -/
  | preservationFailed (v g : Nat)
  /-- an entry that is READING with no reader is removed (R84) -/
  | dropEntry (v g : Nat)
  /-- a waiter of a removed entry looks at the grain again (R84) -/
  | reevaluate (w : WriteId) (v g : Nat)
  /-- the reader wait list is served (R93) -/
  | serveReaders
  /-- the slot-wait queue of a volume is served (R87) -/
  | serveSlots (v : Nat)
  /-- an auto-retirement of a volume is asked for (R88) -/
  | askRetirement (v : Nat)
  /-- a SLOT_WAIT entry of preserve epoch p fails, no candidate having been found (R88) -/
  | failWait (v g p : Nat)
  /-- after a retirement, whether a SLOT_WAIT entry's need has lapsed (R90) -/
  | lapse (v g : Nat)
  /-- after a retirement, the request of R88 when SLOT_WAIT entries remain (R90) -/
  | askIfWaiting (v : Nat)
  /-- a cut whose room is WAITING gets room HAVE (R110) -/
  | roomFreed (v : Nat)
  /-- a RETIRE is answered with the number of entries freed (R110) -/
  | answerRetire (txn : TxnRef) (freed : Nat)
  /-- the outcome of a pool transaction goes to its requester (R9, R13, R14) -/
  | poolEnd (r : Requester) (st : Status) (data : List Byte)
  /-- the loss of the pool link queues its notice (R14) -/
  | notePoolDown (ended : Nat)
  /-- a copy slot's read is resolved, registered and requested (R92) -/
  | startRead (k : SlotId)
  /-- a copy slot's read ends; its registration ends first (R94) -/
  | readEnd (k : SlotId) (st : Status) (data : List Byte)
  /-- the copy engine acts on a read's end (R119, R124) -/
  | readOutcome (k : SlotId) (st : Status) (data : List Byte)
  /-- a restore write is made (R125) -/
  | makeWrite (k : SlotId)
  /-- whether a restore's current extent ends, and what follows (R123, R128, R129) -/
  | extentCheck (id : Nat)
  /-- QUEUED restores become RUNNING (R122) -/
  | promote
  /-- the copy engine makes its grants (R117) -/
  | grant
  /-- the rest of a cut's completion, after its held writes were admitted (R103 steps 5 to 7) -/
  | cutDone (v : Nat) (c : CutRecord) (number released : Nat)
  /-- the rest of a cut's abandonment by its drain timer (R105) -/
  | cutDrained (v : Nat) (c : CutRecord)
  /-- the pass is told that a cut of the volume completed or was abandoned (R99, R141) -/
  | tellPass (v : Nat)
  /-- the pass asks for its cut (R141) -/
  | passCut
  /-- the running pass ends (R153) -/
  | passEnd (o : PassOutcome) (r : Option PassReason)
  /-- whether a pass starts (R138) -/
  | passStart
  /-- the older DUPLICATION snapshots of a volume start retiring (R154 step 5) -/
  | retireOlder (v d : Nat)
  /-- whether the pass's sweep or draining ends (R151) -/
  | passCheck
  /-- the transmitter takes a frame (R145) -/
  | transmit
  /-- a schedule entry that matches fires (R56) -/
  | fire (entry : Fin 8)
  /-- a firing asks for a scheduled cut of a volume (R58) -/
  | scheduledCut (v : Nat)
  /-- one port record at a quarter-second tick (R162) -/
  | portTick (p : PortId)
  /-- RESTORE is answered with the state at the end of the event (R122) -/
  | replyRestore (p : PortId) (tag id : Nat)
  /-- RESTORE CANCEL is answered with the record at the end of the event (R130) -/
  | replyCancel (p : PortId) (tag id : Nat)
deriving DecidableEq, Repr

/-- What an operation leaves: the part, and the consequences to carry out. -/
abbrev Effect := Device × List Task

end Sys2Proof.Machine
end

