-- ==== Sys2Proof/Machine/WritePath.lean ====
section
/-! DEFINITION. The server write path: admission, epoch stamp, the walk over the touched grains, the hand-over to the
pool, and the end of a write (R8, R9, R22, R66, R78, R79, R127). -/

namespace Sys2Proof.Machine

/-! ### Ends -/

/-- R85: the write leaves every waiter list it is on. -/
def Device.leaveWaits (d : Device) (w : WriteId) (j : Job) : Device :=
  j.waits.foldl (fun d g => d.onEntry j.volume g fun e => { e with waiters := e.waiters.filter (· ≠ w) }) d

/-- R66: the volume's epoch writes in flight fall by 1. -/
def Device.lowerInFlight (d : Device) (v : Nat) : Device :=
  d.onVolume v fun x => { x with inFlight := x.inFlight - 1 }

/-- The outcome of a restore's current extent. -/
def Restore.currentOutcome (x : Restore) : Option ExtentOutcome :=
  x.current.bind fun i => x.outcomes[i]?

/-- R127: a copy of the restore ends; a failure stops the current extent unless it already has an outcome or a cancel
has been requested. -/
def Restore.copyEnded (x : Restore) (r : Status) : Restore :=
  if r = .ok then { x with inFlight := x.inFlight - 1, copied := x.copied + 1 }
  else if x.currentOutcome = some .running ∧ x.cancel = false then
    { x with inFlight := x.inFlight - 1, outcomes := x.outcomes.set (x.current.getD 0) (.failed r) }
  else { x with inFlight := x.inFlight - 1 }

/-- R124, R127: a copy ends; its slot becomes FREE and its restore is told. -/
def Device.finishCopy (d : Device) (k : SlotId) (r : Status) : Effect :=
  match d.slot? k with
  | some s =>
    match s.stream with
    | .restore id => ((d.setSlot k none).onRestore id fun x => x.copyEnded r, [.extentCheck id, .grant])
    | _ => (d.setSlot k none, [.grant])
  | none => (d, [])

/-- R126: a restore write handed back with RETRY waits 0.1 s in its slot, charged and counted nowhere. -/
def Device.retryLater (d : Device) (k : SlotId) : Device :=
  match d.slot? k with
  | some s =>
    match s.phase with
    | .writing j _ =>
      d.setSlot k (some { s with
        phase := .writing { j with stage := .admitting, charge := none, epoch := none, waits := [] }
          (some (d.clock.now + Config.retryWait)) })
    | _ => d
  | none => d

/-- R6, R127: the end of a write is reported, to its port or to its copy slot. -/
def Device.reportWrite (d : Device) (w : WriteId) (r : Status) (count : Nat) : Effect :=
  match w with
  | .server p tag => (d.endTxn p tag r count [], [])
  | .slot k => if r = .retry then (d.retryLater k, []) else d.finishCopy k r

/-- R9, R28, R29, R66, R85: an admitted write ends; its charge is settled, its volume's count falls, it leaves the
entries it waits on and its end is reported, all at this event. -/
def endWrite (w : WriteId) (r : Status) (d : Device) : Effect :=
  match d.job? w with
  | none => (d, [])
  | some j =>
    match j.charge with
    | none => (d, [])
    | some c =>
      let d := d.leaveWaits w j
      let d := d.settleCharge j.account c (r = .ok)
      let d := d.lowerInFlight j.volume
      let (d, more) := d.reportWrite w r (if r = .ok then c else 0)
      (d, j.waits.map (Task.giveUp j.volume) ++ [.volumeCheck j.volume] ++ more)

/-! ### Admission -/

/-- R78: the new entries a write would need. -/
def Device.newEntries (d : Device) (j : Job) : List Nat :=
  j.touched.filter fun g => d.needs j.volume g && (d.entry? j.volume g).isNone

/-- R66: the write is stamped with its volume's current epoch and counted in flight; R26: it keeps its charge. -/
def Device.stampWrite (d : Device) (w : WriteId) (j : Job) (c : Nat) : Device :=
  let e := match d.volume? j.volume with
    | some x => x.epoch
    | none => 0
  let d := d.onJob w fun j => { j with stage := .admitting, charge := some c, epoch := some e, waits := [] }
  d.onVolume j.volume fun x => { x with inFlight := x.inFlight + 1 }

/-- R22, R66, R78: a write is admitted or refused; when admitted it is stamped and meets the pending grain table. -/
def admitWrite (w : WriteId) (d : Device) : Effect :=
  match d.job? w with
  | none => (d, [])
  | some j =>
    let c := j.chargeOf
    match d.admission j.account c with
    | (d, some r) => d.reportWrite w r 0
    | (d, none) =>
      let d := d.stampWrite w j c
      if (d.newEntries j).length + d.pres.table.length > Config.pendingPlaces then (d, [.writeEnd w .retry])
      else (d, [.walk w j.touched])

/-- A write joins the waiters of an entry at the tail, and keeps the entry in its record (R79). -/
def Device.joinEntry (d : Device) (w : WriteId) (v g : Nat) : Device :=
  let d := d.onEntry v g fun e => { e with waiters := e.waiters ++ [w] }
  d.onJob w fun j => { j with waits := j.waits ++ [g] }

/-- A write creates an entry in READING with itself as first waiter (R79, R84). -/
def Device.createEntry (d : Device) (w : WriteId) (v g : Nat) : Device :=
  let d := d.setEntry { volume := v, grain := g, phase := .reading, readers := 0, waiters := [w] }
  d.onJob w fun j => { j with waits := j.waits ++ [g] }

/-- R68: the grain's last-written epoch is set to the volume's current epoch. -/
def Device.setCurrent (d : Device) (v g : Nat) : Device :=
  d.onVolume v fun x => x.setW g x.epoch

/-- R79: the preservation unit takes the write's touched grains in ascending order, while the write lives. -/
def walkGrains (w : WriteId) (grains : List Nat) (d : Device) : Effect :=
  match d.job? w with
  | none => (d, [])
  | some j =>
    if j.charge = none then (d, [])
    else
      match grains with
      | [] => (d, [.handOn w])
      | g :: rest =>
        let need := d.needs j.volume g
        match d.entry? j.volume g with
        | some e =>
          let joined := d.joinEntry w j.volume g
          if need then
            (joined, (if e.phase = .reading then [.startPreservation j.volume g] else []) ++ [.walk w rest])
          else (joined.setCurrent j.volume g, [.walk w rest])
        | none =>
          if need then (d.createEntry w j.volume g, [.startPreservation j.volume g, .walk w rest])
          else (d.setCurrent j.volume g, [.walk w rest])

/-- R8, R14, R79: a write that waits on no entry joins the pool request queue, PATH for a server's and COPY for a
restore's; with the pool link DOWN it ends at once with POOL_DOWN. -/
def handOnWrite (w : WriteId) (d : Device) : Effect :=
  match d.job? w with
  | none => (d, [])
  | some j =>
    if j.charge ≠ none ∧ j.waits = [] ∧ j.stage = .admitting then
      if d.pool.link = .down then (d, [.writeEnd w .poolDown])
      else
        let d := d.onJob w fun j => { j with stage := .queued }
        let requester := match w with
          | .server p tag => Requester.server p tag
          | .slot k => Requester.slot k
        (d.joinPool { requester := requester, op := d.jobOp j false }, [])
    else (d, [])

/-- R84: a waiter of a removed entry looks at the grain again; where the grain needs preservation it joins the entry that
an earlier waiter created, or creates one. -/
def reevaluateGrain (w : WriteId) (v g : Nat) (d : Device) : Effect :=
  match d.job? w with
  | none => (d, [])
  | some j =>
    if j.charge = none then (d, [])
    else
      let d := d.onJob w fun j => { j with waits := j.waits.filter (· ≠ g) }
      if d.needs v g then
        (if (d.entry? v g).isSome then d.joinEntry w v g else d.createEntry w v g, [])
      else (d.setCurrent v g, [])

/-- R101: a write for a CUTTING volume joins the cut-hold queue; none when the queue is full. -/
def Device.joinHold (d : Device) (w : WriteId) : Option Device :=
  if d.cutHold.length < Config.holdPlaces then
    some ({ d with cutHold := d.cutHold ++ [w] }.onJob w fun j => { j with stage := .held })
  else none

/-- The volume's cut state is CUTTING. -/
def Device.cutting (d : Device) (v : Nat) : Bool :=
  match d.volume? v with
  | some x => x.cutting
  | none => false

/-- R8, R101: a write enters the write path: held while its volume is CUTTING, refused with RETRY when the cut-hold
queue is full, otherwise admitted. -/
def enterWritePath (w : WriteId) (v : Nat) (d : Device) : Effect :=
  if d.cutting v then
    match d.joinHold w with
    | some d' => (d', [])
    | none => d.reportWrite w .retry 0
  else (d, [.admission w])

/-- The outcome of a preserve step, a server transaction or a copy slot's transaction goes to its requester (R13). -/
def poolOutcome (r : Requester) (st : Status) (data : List Byte) (d : Device) : Effect :=
  match r with
  | .server p tag =>
    match d.txn? p tag with
    | none => (d, [])
    | some t =>
      match t.kind with
      | .read => (d.endTxn p tag st 0 (if st = .ok then data else []), [])
      | _ => (d, [.writeEnd (.server p tag) st])
  | .preserve v g =>
    match d.entry? v g with
    | none => (d, [])
    | some e =>
      match e.phase with
      | .preserving base p slot =>
        if st = .ok then
          let d := d.onEntry v g fun e => { e with phase := .storing base p slot data }
          if d.pool.link = .down then (d, [.preservationFailed v g])
          else (d.joinPool { requester := .preserve v g, op := .write (d.slotAddr slot) 8 data }, [])
        else (d, [.preservationFailed v g])
      | .storing _ _ _ _ => if st = .ok then (d, [.storeDone v g]) else (d, [.preservationFailed v g])
      | _ => (d, [])
  | .slot k =>
    match d.slot? k with
    | none => (d, [])
    | some s =>
      match s.phase with
      | .reading => (d, [.readEnd k st data])
      | .writing _ _ => (d, [.writeEnd (.slot k) st])
      | .staging _ => (d, [])

end Sys2Proof.Machine
end

