-- ==== Sys2Proof/Machine/Preservation.lean ====
section
/-! DEFINITION. The preservation unit: preservations, the preserve map, slot waits and the reader wait list
(chapter 5). -/

namespace Sys2Proof.Machine

/-- R69, R71: slots held falls by 1 as a slot returns to the tail of the free queue, with the re-arm check. -/
def Device.returnSlot (d : Device) (v s : Nat) : Device :=
  let d := { d with pres.free := d.pres.free ++ [s] }
  let d := d.onVolume v fun x => { x with slotsHeld := x.slotsHeld - 1 }
  d.reserveRearm v

/-- R69, R71, R80: the slot at the head of the free queue is taken, slots held rises by 1 and the RESERVE_LOW check
runs; none when the volume is at its reserve limit or no slot is free. -/
def Device.takeSlot (d : Device) (v : Nat) : Option (Device × Nat) :=
  match d.volume? v, d.pres.free with
  | some x, s :: rest =>
    if x.slotsHeld < x.reserve then
      let d := { d with pres.free := rest }
      let d := d.setVolume v { x with slotsHeld := x.slotsHeld + 1 }
      some (d.reserveLowCheck v, s)
    else none
  | _, _ => none

/-- R80: the preserve read of an entry that has taken slot s is requested, or fails at once with the pool link DOWN. -/
def Device.startPreserveRead (d : Device) (v g base p s : Nat) : Effect :=
  let d := d.onEntry v g fun e => { e with phase := .preserving base p s }
  if d.pool.link = .down then (d, [.preservationFailed v g])
  else (d.joinPool { requester := .preserve v g, op := .read (d.grainAddr v g) 8 }, [])

/-- R80: a preservation starts on a READING entry. -/
def startPreservation (v g : Nat) (d : Device) : Effect :=
  match d.volume? v, d.entry? v g with
  | some x, some e =>
    if e.phase = .reading then
      match d.takeSlot v with
      | some (d, s) => d.startPreserveRead v g (x.w g) x.epoch s
      | none =>
        let d := d.onEntry v g fun e => { e with phase := .slotWait (x.w g) x.epoch }
        let d := d.onVolume v fun x => { x with slotWait := x.slotWait ++ [g] }
        (d, [.askRetirement v])
    else (d, [])
  | _, _ => (d, [])

/-- R83: the map's order, by volume, grain and first epoch. -/
def PreserveEntry.before (a b : PreserveEntry) : Bool :=
  a.volume < b.volume
    || (a.volume = b.volume && (a.grain < b.grain || (a.grain = b.grain && a.first < b.first)))

/-- R83: a preserve entry joins the map at its place. -/
def Device.addPreserve (d : Device) (e : PreserveEntry) : Device :=
  { d with pres.map := insertBefore PreserveEntry.before e d.pres.map }

/-- R82: the preserve store of an entry ended OK. -/
def storeDone (v g : Nat) (d : Device) : Effect :=
  match d.volume? v, d.entry? v g with
  | some x, some e =>
    match e.phase with
    | .storing base p s _ =>
      let keep := x.activeIn base (p - 1)
      let d :=
        if keep then d.addPreserve { volume := v, grain := g, first := base, last := p - 1, slot := s }
        else d.returnSlot v s
      let d := d.onVolume v fun x => if x.w g < p then x.setW g p else x
      let d := d.onEntry v g fun e => { e with phase := .reading }
      (d, (if keep then [] else [.serveSlots v]) ++ [.dropEntry v g])
    | _ => (d, [])
  | _, _ => (d, [])

/-- R86: a preservation fails. -/
def preservationFailed (v g : Nat) (d : Device) : Effect :=
  match d.entry? v g with
  | some e =>
    let fail (s : Nat) : Effect :=
      let d := d.returnSlot v s
      let d := d.onEntry v g fun e => { e with phase := .reading, waiters := [] }
      (d, [.serveSlots v] ++ e.waiters.map (Task.writeEnd · .preserveFailed) ++ [.dropEntry v g])
    match e.phase with
    | .preserving _ _ s => fail s
    | .storing _ _ s _ => fail s
    | _ => (d, [])
  | none => (d, [])

/-- R84: an entry that is READING with no reader is removed; its waiters look at the grain again in arrival order, the
preservation of an entry that one of them created starts, those that wait on nothing are handed on, and the reader wait
list is served. All waiters look before that preservation starts, so that a later one joins the entry that an earlier one
created (DEDUCED, entry 14). -/
def dropEntry (v g : Nat) (d : Device) : Effect :=
  match d.entry? v g with
  | some e =>
    if e.phase = .reading ∧ e.readers = 0 then
      (d.removeEntry v g,
        e.waiters.map (Task.reevaluate · v g) ++ [.startPreservation v g] ++ e.waiters.map Task.handOn
          ++ [.serveReaders, .removalCheck v])
    else (d, [])
  | none => (d, [])

/-- A SLOT_WAIT entry leaves its queue and becomes READING (R85, R88, R90). -/
def Device.leaveSlotWait (d : Device) (v g : Nat) : Device :=
  let d := d.onVolume v fun x => { x with slotWait := x.slotWait.filter (· ≠ g) }
  d.onEntry v g fun e => { e with phase := .reading }

/-- R85: a SLOT_WAIT entry whose last waiter has gone gives up its wait. -/
def giveUpWait (v g : Nat) (d : Device) : Effect :=
  match d.entry? v g with
  | some e =>
    match e.phase with
    | .slotWait _ _ => if e.waiters = [] then (d.leaveSlotWait v g, [.dropEntry v g]) else (d, [])
    | _ => (d, [])
  | none => (d, [])

/-- R87: the head SLOT_WAIT entry of a volume takes a slot while the volume is below its reserve limit. -/
def serveSlots (v : Nat) (d : Device) : Effect :=
  match d.volume? v with
  | none => (d, [])
  | some x =>
    match x.slotWait with
    | [] => (d, [])
    | g :: _ =>
      match d.entry? v g with
      | some e =>
        match e.phase with
        | .slotWait base p =>
          match d.takeSlot v with
          | some (d, s) =>
            let d := d.leaveSlotWait v g
            let (d, more) := d.startPreserveRead v g base p s
            (d, more ++ [.serveSlots v])
          | none => (d, [])
        | _ => (d, [])
      | none => (d, [])

/-- R88: a SLOT_WAIT entry fails with RESERVE_FULL: it leaves the queue, its waiters end in arrival order, and it is
removed. It fails only in the wait it was in at the answer: its preserve epoch p tells that wait from a later one. -/
def failWait (v g p : Nat) (d : Device) : Effect :=
  match d.entry? v g with
  | some e =>
    match e.phase with
    | .slotWait _ q =>
      if q = p then
        ((d.leaveSlotWait v g).onEntry v g fun e => { e with waiters := [] },
          e.waiters.map (Task.writeEnd · .reserveFull) ++ [.dropEntry v g])
      else (d, [])
    | _ => (d, [])
  | none => (d, [])

/-- R90: after a retirement, a SLOT_WAIT entry whose need has lapsed leaves the queue. -/
def lapseWait (v g : Nat) (d : Device) : Effect :=
  match d.volume? v, d.entry? v g with
  | some x, some e =>
    match e.phase with
    | .slotWait base p =>
      if x.activeIn base (p - 1) then (d, []) else (d.leaveSlotWait v g, [.dropEntry v g])
    | _ => (d, [])
  | _, _ => (d, [])

/-- R90: SLOT_WAIT entries that remain lead to the request of R88. -/
def askIfWaiting (v : Nat) (d : Device) : Effect :=
  match d.volume? v with
  | some x => if x.slotWait = [] then (d, []) else (d, [.askRetirement v])
  | none => (d, [])

/-- The image is one whose read needs no place, or the grain has an entry, or a place is free (R93). -/
def Device.canRead (d : Device) (s : CopySlot) : Bool :=
  match d.resolve s.volume s.snapshot s.grain with
  | .live _ => (d.entry? s.volume s.grain).isSome || d.hasPlace
  | _ => true

/-- R93: the oldest waiting copy read is served, and then the next. -/
def serveReaders (d : Device) : Effect :=
  match d.pres.readerWait with
  | [] => (d, [])
  | k :: rest =>
    let go : Effect := ({ d with pres.readerWait := rest }, [.startRead k, .serveReaders])
    match d.slot? k with
    | some s => if d.canRead s then go else (d, [])
    | none => go

end Sys2Proof.Machine
end

