-- ==== Sys2Proof/Machine/Snapshots.lean ====
section
/-! DEFINITION. The snapshot unit: cuts, the cut-hold release, retention, retirement, auto-retirement and pins
(chapter 6), and the end of a volume's removal (R72, R73). -/

namespace Sys2Proof.Machine

/-- The name of a cut's failure in a CUT_FAILED notice (R106). -/
inductive CutRefusal where
  | busy | exhausted | full
deriving DecidableEq, Repr

def CutRefusal.name : CutRefusal → Name
  | .busy => .busy | .exhausted => .exhausted | .full => .full

/-- An ACTIVE snapshot with pin count 0. -/
def Snapshot.loose (s : Snapshot) : Bool := s.state = .active && s.pins = 0

/-- An ACTIVE unpinned SCHEDULED snapshot (R99, R104). -/
def Snapshot.looseScheduled (s : Snapshot) : Bool := s.loose && s.kind = .scheduled

/-! ### Retirement -/

/-- R107, R108: snapshot k becomes RETIRING and joins its volume's sweep order; with no other RETIRING its sweep
begins at once. -/
def Volume.startRetirement (x : Volume) (k : Nat) (answers : Option TxnRef) : Volume :=
  let x := if x.sweeps = [] then { x with sweepAt := none, sweepFreed := 0 } else x
  { x with
    snapshots := x.snapshots.map fun s => if s.number = k then { s with state := .retiring, answers := answers } else s
    sweeps := x.sweeps ++ [k] }

def Device.startRetirement (d : Device) (v k : Nat) (answers : Option TxnRef) : Device :=
  d.onVolume v fun x => x.startRetirement k answers

/-- R104: retirements of the oldest ACTIVE unpinned SCHEDULED snapshots while they are more than the retention, at
most n. -/
def Volume.retain : Nat → Volume → Volume
  | 0, x => x
  | n + 1, x =>
    match x.snapshots.filter Snapshot.looseScheduled with
    | [] => x
    | s :: rest => if rest.length + 1 > x.retention then Volume.retain n (x.startRetirement s.number none) else x

/-- R88: the failures of a volume's SLOT_WAIT entries as they stand, in queue order. -/
def Device.failWaits (d : Device) (v : Nat) (gs : List Nat) : List Task :=
  gs.filterMap fun g =>
    match d.entry? v g with
    | some e =>
      match e.phase with
      | .slotWait _ p => some (.failWait v g p)
      | _ => none
    | none => none

/-- R88, R111: an auto-retirement of a volume is asked for, when none of its snapshots is RETIRING. With no candidate
the entries that wait now fail, and no entry that comes to wait later. -/
def askRetirement (v : Nat) (d : Device) : Effect :=
  match d.volume? v with
  | none => (d, [])
  | some x =>
    if x.hasRetiring then (d, [])
    else
      match x.snapshots.find? Snapshot.loose with
      | some s => (d.startRetirement v s.number none, [])
      | none => (d, d.failWaits v x.slotWait)

/-- R109: the next preserve entry of a volume that the running sweep visits. -/
def Device.nextVisit (d : Device) (v : Nat) (x : Volume) : Option PreserveEntry :=
  d.pres.map.find? fun e =>
    e.volume = v &&
      match x.sweepAt with
      | none => true
      | some (g, a) => g < e.grain || (g = e.grain && a < e.first)

/-- R89, R109: the sweep of a volume visits its next preserve entry and frees it when no ACTIVE snapshot lies in its
range. -/
def sweepVisit (v : Nat) (d : Device) : Effect :=
  match d.volume? v with
  | none => (d, [])
  | some x =>
    if x.sweeps = [] then (d, [])
    else
      match d.nextVisit v x with
      | none => (d, [])
      | some e =>
        let d := d.setVolume v { x with sweepAt := some (e.grain, e.first) }
        if x.activeIn e.first e.last then (d, [])
        else
          let d := { d with pres.map := d.pres.map.filter (· ≠ e) }
          let d := d.onVolume v fun x => { x with sweepFreed := x.sweepFreed + 1 }
          (d.returnSlot v e.slot, [.serveSlots v])

/-- R110: the running sweep of a volume has visited every entry; its record leaves the list. -/
def endRetirement (v : Nat) (d : Device) : Effect :=
  match d.volume? v with
  | none => (d, [])
  | some x =>
    match x.sweeps with
    | [] => (d, [])
    | k :: rest =>
      if (d.nextVisit v x).isSome then (d, [])
      else
        let freed := x.sweepFreed
        let txn := (x.snapshots.find? fun s => s.number = k).bind fun s => s.answers
        let d := d.setVolume v { x with
          snapshots := x.snapshots.filter (fun s => s.number ≠ k)
          sweeps := rest, sweepAt := none, sweepFreed := 0 }
        let d := d.notify .snapshotRetired (.snapshot v k) (.number freed)
        (d, x.slotWait.map (Task.lapse v) ++ [.askIfWaiting v, .roomFreed v]
              ++ txn.toList.map (Task.answerRetire · freed) ++ [.volumeCheck v])

/-- R110: a cut of the volume whose room is WAITING gets room HAVE. -/
def roomFreed (v : Nat) (d : Device) : Effect :=
  match d.volume? v with
  | none => (d, [])
  | some x =>
    match x.cut with
    | some c =>
      if x.snapshots.length < Config.snapshotRecords then
        (d.setVolume v { x with cut := some { c with room := .have } }, [.volumeCheck v])
      else (d, [])
    | none => (d, [])

/-! ### Pins -/

/-- R112: a snapshot's pin count rises by 1. -/
def Device.pin (d : Device) (v k : Nat) : Device :=
  d.onVolume v fun x =>
    { x with snapshots := x.snapshots.map fun s => if s.number = k then { s with pins := s.pins + 1 } else s }

/-- R112: a snapshot's pin count falls by 1. -/
def Device.unpin (d : Device) (v k : Nat) : Device :=
  d.onVolume v fun x =>
    { x with snapshots := x.snapshots.map fun s => if s.number = k then { s with pins := s.pins - 1 } else s }

/-! ### Cuts -/

/-- R99 checks 3 to 5 of a cut of a defined volume that is not REMOVING. -/
def Volume.cutRefusal (x : Volume) : Option CutRefusal :=
  if x.state = .preparing ∨ x.cutting then some .busy
  else if x.epoch = Config.lastEpoch then some .exhausted
  else if x.snapshots.length ≥ Config.snapshotRecords ∧ x.hasRetiring = false
      ∧ x.snapshots.any Snapshot.looseScheduled = false then some .full
  else none

/-- R100: the room of an accepted cut, and the retirement it may start. -/
def Volume.makeRoom (x : Volume) : Volume × Room :=
  if x.snapshots.length < Config.snapshotRecords then (x, .have)
  else if x.hasRetiring then (x, .waiting)
  else
    match x.snapshots.find? Snapshot.looseScheduled with
    | some s => (x.startRetirement s.number none, .waiting)
    | none => (x, .waiting)

/-- R100: an accepted cut; drain is in tenths of a second. -/
def Device.acceptCut (d : Device) (v : Nat) (kind : CutKind) (requester : CutRequester) (drain : Nat) : Device :=
  d.onVolume v fun x =>
    let (x, room) := x.makeRoom
    { x with cut := some {
        kind := kind, requester := requester, acceptedAt := d.clock.stamp,
        drainEnds := d.clock.now + 100 * drain, room := room } }

/-- R99, R100: a cut is asked for; refused, or accepted and its completion looked at. -/
def Device.askCut (d : Device) (v : Nat) (kind : CutKind) (requester : CutRequester) (drain : Nat) :
    CutRefusal ⊕ Effect :=
  match d.volume? v with
  | none => .inl .busy
  | some x =>
    match x.cutRefusal with
    | some r => .inl r
    | none => .inr (d.acceptCut v kind requester drain, [.volumeCheck v])

/-- The volume a write on the server write path is for. -/
def Device.writeVolume (d : Device) (w : WriteId) : Option Nat := (d.job? w).map Job.volume

/-- The held writes of a volume, in arrival order (R101). -/
def Device.heldOf (d : Device) (v : Nat) : List WriteId := d.cutHold.filter fun w => d.writeVolume w = some v

/-- R103, R105: a volume's held writes leave the cut-hold queue; the writes of other volumes keep their places. -/
def Device.releaseHeld (d : Device) (v : Nat) : Device :=
  { d with cutHold := d.cutHold.filter fun w => d.writeVolume w ≠ some v }

/-- R103 steps 1 to 4: a cut completes. -/
def Device.completeCut (d : Device) (v : Nat) (x : Volume) (c : CutRecord) : Effect :=
  let held := d.heldOf v
  let record : Snapshot :=
    { number := x.epoch, kind := c.kind, cutTime := c.acceptedAt, state := .active
      pins := if c.kind = .duplication then 1 else 0, answers := none }
  let d := d.releaseHeld v
  let d := d.setVolume v { x with snapshots := x.snapshots ++ [record], epoch := x.epoch + 1, cut := none }
  (d, held.map Task.admission ++ [.cutDone v c x.epoch held.length])

/-- R141: the pass hears that its cut completed with snapshot n. -/
def passCutCompleted (n : Nat) (d : Device) : Effect :=
  match d.dup.pass with
  | some p =>
    let d := d.onPass fun p => { p with snapshot := some n, state := .sweeping }
    (d, if p.stopRequested then [.passEnd .stopped (some .stop)] else [])
  | none => (d, [])

/-- R141, R155: the pass hears that its cut was abandoned by its drain timer. -/
def passCutAbandoned (d : Device) : Effect :=
  match d.dup.pass with
  | some p =>
    (d, [if p.stopRequested then .passEnd .stopped (some .stop) else .passEnd .failed (some .cut)])
  | none => (d, [])

/-- R103 steps 5 to 7: the notice, retention after a SCHEDULED cut, and the answer. -/
def finishCut (v : Nat) (c : CutRecord) (number released : Nat) (d : Device) : Effect :=
  let d := d.notify .cutDone (.volume v) (.number number)
  let d :=
    if c.kind = .scheduled then d.onVolume v fun x => Volume.retain x.snapshots.length x else d
  match c.requester with
  | .command txn =>
    (d.answer (some txn) .ok none [.num 4 number, .num 4 (number + 1), .num 2 released], [.tellPass v])
  | .schedule => (d, [.tellPass v])
  | .pass => passCutCompleted number d

/-- R105: a cut is abandoned by its drain timer: the state and the held writes. -/
def Device.abandonCut (d : Device) (v : Nat) (x : Volume) (c : CutRecord) : Effect :=
  let held := d.heldOf v
  let d := d.reach c.drainEnds
  let d := d.releaseHeld v
  let d := d.setVolume v { x with cut := none }
  (d, held.map Task.admission ++ [.cutDrained v c])

/-- R105: the notice and the answers of a cut abandoned by its drain timer. -/
def finishDrained (v : Nat) (c : CutRecord) (d : Device) : Effect :=
  let d := d.notify .cutFailed (.volume v) (.name .drain)
  match c.requester with
  | .command txn => (d.answer (some txn) .aborted (some .drain) [], [.tellPass v])
  | .schedule => (d, [.tellPass v])
  | .pass => passCutAbandoned d

/-- R99, R141: a pass that found the volume CUTTING asks for its cut again. -/
def tellPass (v : Nat) (d : Device) : Effect :=
  match d.dup.pass with
  | some p => if p.volume = v ∧ p.state = .cutting ∧ d.cutting v = false then (d, [.passCut]) else (d, [])
  | none => (d, [])

/-- R58, R99: a firing asks for a scheduled cut of a volume; a skip queues CUT_FAILED. -/
def scheduledCut (v : Nat) (d : Device) : Effect :=
  match d.askCut v .scheduled .schedule Config.defaultDrain with
  | .inl r => (d.notify .cutFailed (.volume v) (.name r.name), [])
  | .inr e => e

/-! ### The end of a removal -/

/-- R72: the three conditions that end the removal of a REMOVING volume. -/
def Device.removalDone (d : Device) (v : Nat) (x : Volume) : Bool :=
  x.state = .removing && x.inFlight = 0 && x.hasRetiring = false
    && d.pres.table.all fun e => e.2.volume ≠ v

/-- R73: the removal ends; entries, slots, list and map are freed and the volume becomes UNDEFINED. -/
def Device.finishRemoval (d : Device) (v : Nat) (x : Volume) : Device :=
  let mine := d.pres.map.filter fun e => e.volume = v
  let d := { d with
    pres.map := d.pres.map.filter fun e => e.volume ≠ v
    pres.free := d.pres.free ++ mine.map PreserveEntry.slot
    volumes := d.volumes.erase v }
  d.answer x.answers .ok none [.num 4 mine.length]

/-- R72, R73: the first event at which a removal's conditions hold. -/
def removalCheck (v : Nat) (d : Device) : Effect :=
  match d.volume? v with
  | some x => if d.removalDone v x then (d.finishRemoval v x, []) else (d, [])
  | none => (d, [])

/-- R72, R103: the first event at which a cut's conditions, or a removal's, hold. -/
def volumeCheck (v : Nat) (d : Device) : Effect :=
  match d.volume? v with
  | none => (d, [])
  | some x =>
    match x.cut with
    | some c =>
      if x.inFlight = 0 ∧ c.room = .have then d.completeCut v x c else (d, [])
    | none => removalCheck v d

end Sys2Proof.Machine
end

