-- ==== Sys2Proof/Machine/CopyEngine.lean ====
section
/-! DEFINITION. The copy engine: grants of copy slots, reads, restore writes, extents and the ends of restores
(chapter 7, R91 to R94). -/

namespace Sys2Proof.Machine

/-! ### Grants -/

/-- The lowest-numbered FREE copy slot (R117). -/
def Device.freeSlot (d : Device) : Option SlotId :=
  (List.finRange 16).find? fun k => (d.slot? k).isNone

/-- The current extent of a restore. -/
def Restore.currentExtent (x : Restore) : Option Extent := x.current.bind fun i => x.extents[i]?

/-- The cursor has grains of the current extent still to take (R116, R123). -/
def Restore.hasGrains (x : Restore) : Bool :=
  match x.currentExtent, x.cursor with
  | some e, some c => c < e.source + e.count
  | _, _ => false

/-- R116: a restore is eligible for a slot. -/
def Restore.eligible (x : Restore) : Bool :=
  x.state = .running && x.cancel = false && x.hasGrains && x.currentOutcome = some .running

/-- R117: the eligible restore whose id comes first after the restore cursor, taken round. -/
def Device.chosenRestore (d : Device) : Option Restore :=
  let ids := (d.copy.restores.filter Restore.eligible).map Restore.id
  let next := match (ids.filter fun i => d.copy.cursor < i).min? with
    | some i => some i
    | none => ids.min?
  next.bind d.restore?

/-- R139: the mode in force. -/
def Device.modeInForce (d : Device) : Pacing :=
  if d.clock.window = .opened then d.dup.mode else .trickle

/-- R116: the cap of a pacing mode on the slots of the pass. -/
def Pacing.cap : Pacing → Nat
  | .sprint => 12 | .share => 6 | .trickle => 1

/-- R115: copy slots in use by the pass. -/
def Device.passSlots (d : Device) : Nat :=
  (d.copy.slots.toList.filter fun o => match o with
    | some s => s.stream = .pass
    | none => false).length

/-- R143: the place of the grain that is ready. -/
def Device.readyPlace (d : Device) : Option Place := d.dup.staging.find? fun p => p.phase = .ready

/-- R116: the pass is eligible for a slot. -/
def Device.passEligible (d : Device) : Bool :=
  d.dup.pass.isSome && d.readyPlace.isSome && decide (d.passSlots < d.modeInForce.cap)

/-- What the taking of an extent's grains came to (R118). -/
structure Taking where
  cursor : Nat
  unwritten : Nat
  alreadyCurrent : Nat
  found : Option (Nat × Image)
deriving DecidableEq, Repr

/-- R118: the grains of the current extent are taken from the cursor upward, at most n, until one needs a slot. -/
def Device.takeGrains (d : Device) (x : Restore) (e : Extent) : Nat → Taking → Taking
  | 0, t => t
  | n + 1, t =>
    if t.cursor < e.source + e.count then
      match d.resolve x.source x.snapshot t.cursor with
      | .unwritten => d.takeGrains x e n { t with cursor := t.cursor + 1, unwritten := t.unwritten + 1 }
      | .slot s v => { t with cursor := t.cursor + 1, found := some (t.cursor, .slot s v) }
      | .live v =>
        if e.destVolume = x.source ∧ e.dest + (t.cursor - e.source) = t.cursor then
          d.takeGrains x e n { t with cursor := t.cursor + 1, alreadyCurrent := t.alreadyCurrent + 1 }
        else { t with cursor := t.cursor + 1, found := some (t.cursor, .live v) }
    else t

/-- R117, R118: the chosen restore is given slot k, or finds no grain left to copy. -/
def Device.grantRestore (d : Device) (k : SlotId) (x : Restore) : Effect :=
  match x.currentExtent, x.cursor with
  | some e, some c =>
    let t := d.takeGrains x e e.count { cursor := c, unwritten := 0, alreadyCurrent := 0, found := none }
    let d := d.onRestore x.id fun x =>
      { x with cursor := some t.cursor, unwritten := x.unwritten + t.unwritten
               alreadyCurrent := x.alreadyCurrent + t.alreadyCurrent }
    match t.found with
    | some (g, image) =>
      let d := d.onRestore x.id fun x => { x with inFlight := x.inFlight + 1 }
      let d := d.setSlot k (some {
        stream := .restore x.id, volume := x.source, grain := g, snapshot := x.snapshot, image := image
        destVolume := e.destVolume, destGrain := e.dest + (g - e.source)
        declared := if e.fresh then 1 else 0, phase := .reading })
      let d := { d with copy.lastServed := some .restore, copy.cursor := x.id }
      (d, [.startRead k, .grant])
    | none => (d, [.extentCheck x.id, .grant])
  | _, _ => (d, [])

/-- R117, R119: the ready grain of the pass is given slot k. -/
def Device.grantPass (d : Device) (k : SlotId) (p : Pass) (pl : Place) : Effect :=
  let snap := p.snapshot.getD 0
  let d := d.setSlot k (some {
    stream := .pass, volume := p.volume, grain := pl.grain, snapshot := snap
    image := d.resolve p.volume snap pl.grain, destVolume := 0, destGrain := 0, declared := 0, phase := .reading })
  let d := { d with
    copy.lastServed := some .pass
    dup.staging := d.dup.staging.map fun q => if q.phase = .ready then { q with phase := .reading k } else q }
  (d, [.startRead k, .grant])

/-- R117: the copy engine makes its next grant, if a slot is FREE and some stream is eligible. -/
def grantSlot (d : Device) : Effect :=
  match d.freeSlot with
  | none => (d, [])
  | some k =>
    let pass : Option (Pass × Place) :=
      if d.passEligible then
        match d.dup.pass, d.readyPlace with
        | some p, some pl => some (p, pl)
        | _, _ => none
      else none
    match d.chosenRestore, pass with
    | some x, some (p, pl) =>
      if d.copy.lastServed = some .restore then d.grantPass k p pl else d.grantRestore k x
    | some x, none => d.grantRestore k x
    | none, some (p, pl) => d.grantPass k p pl
    | none, none => (d, [])

/-! ### Reads -/

/-- The read of a slot's image is requested (R11, R92); with the pool link DOWN it ends at once (R14). -/
def Device.requestRead (d : Device) (k : SlotId) (addr : Nat) : Effect :=
  if d.pool.link = .down then (d, [.readEnd k .poolDown []])
  else (d.joinPool { requester := .slot k, op := .read addr 8 }, [])

/-- A copy whose grain turns out unwritten: nothing is read (R92, R93). -/
def Device.skipCopy (d : Device) (k : SlotId) (s : CopySlot) : Effect :=
  let d := d.setSlot k none
  match s.stream with
  | .restore id =>
    (d.onRestore id fun x => { x with inFlight := x.inFlight - 1, unwritten := x.unwritten + 1 },
      [.extentCheck id, .grant])
  | .pass =>
    ({ d with dup.staging := d.dup.staging.filter fun q => q.phase ≠ .reading k }, [.grant, .passCheck, .transmit])
  | .dropped => (d, [.grant])

/-- R92: a READING slot's grain is resolved; a live image's read is registered on the grain's pending entry or waits
on the reader wait list, and the read is requested. -/
def startRead (k : SlotId) (d : Device) : Effect :=
  match d.slot? k with
  | none => (d, [])
  | some s =>
    let image := d.resolve s.volume s.snapshot s.grain
    match image with
    | .unwritten => d.skipCopy k s
    | .slot n _ => (d.setSlot k (some { s with image := image })).requestRead k (d.slotAddr n)
    | .live _ =>
      let d := d.setSlot k (some { s with image := image })
      match d.entry? s.volume s.grain with
      | some _ =>
        (d.onEntry s.volume s.grain fun e => { e with readers := e.readers + 1 }).requestRead k
          (d.grainAddr s.volume s.grain)
      | none =>
        if d.hasPlace then
          (d.setEntry { volume := s.volume, grain := s.grain, phase := .reading, readers := 1, waiters := [] }).requestRead k
            (d.grainAddr s.volume s.grain)
        else ({ d with pres.readerWait := d.pres.readerWait ++ [k] }, [])

/-- R94: a slot's read ends; a registered read's count falls first, and its entry may be removed. -/
def endRead (k : SlotId) (st : Status) (data : List Byte) (d : Device) : Effect :=
  match d.slot? k with
  | none => (d, [])
  | some s =>
    match s.image with
    | .live _ =>
      (d.onEntry s.volume s.grain fun e => { e with readers := e.readers - 1 },
        [.dropEntry s.volume s.grain, .readOutcome k st data])
    | _ => (d, [.readOutcome k st data])

/-- The staging place a slot reads for, unless a go-back has discarded it (R143, R144). -/
def Device.placeOf (d : Device) (k : SlotId) : Option Place := d.dup.staging.find? fun p => p.phase = .reading k

/-- The restore write of a slot (R125). -/
def CopySlot.restoreJob (s : CopySlot) (account : Nat) (data : List Byte) : Job :=
  { volume := s.destVolume, account := account, first := 8 * s.destGrain, blocks := 8, declared := s.declared
    payload := data, stage := .admitting, charge := none, epoch := none, waits := [] }

/-- R119, R124, R144: what the engine does with a read's end; with its place discarded by a go-back, a read of the pass
has no more effect than to free its slot. -/
def readOutcome (k : SlotId) (st : Status) (data : List Byte) (d : Device) : Effect :=
  match d.slot? k with
  | none => (d, [])
  | some s =>
    match s.stream with
    | .restore id =>
      if st = .ok then
        let account := match d.restore? id with
          | some x => x.account
          | none => 0
        (d.setSlot k (some { s with phase := .writing (s.restoreJob account data) none }), [.makeWrite k])
      else d.finishCopy k st
    | .pass =>
      if (d.placeOf k).isNone then (d.setSlot k none, [.grant])
      else if st = .ok then (d.setSlot k (some { s with phase := .staging data }), [])
      else (d.setSlot k none, [.passEnd .failed (some .read)])
    | .dropped => (d.setSlot k none, [.grant])

/-- R125, R126: a restore write is made; its retry due becomes absent. -/
def makeWrite (k : SlotId) (d : Device) : Effect :=
  match d.slot? k with
  | none => (d, [])
  | some s =>
    match s.phase with
    | .writing j _ => enterWritePath (.slot k) j.volume (d.setSlot k (some { s with phase := .writing j none }))
    | _ => (d, [])

/-! ### Extents and restores -/

/-- R122: extent i becomes the restore's current extent. -/
def Restore.enterExtent (x : Restore) (i : Nat) : Restore :=
  { x with
    current := some i
    cursor := (x.extents[i]?).map Extent.source
    outcomes := x.outcomes.set i .running }

/-- R129, R130, R133: a restore ends; its pin is dropped and RESTORE_END is handed over. -/
def Device.endRestore (d : Device) (x : Restore) (o : RestoreOutcome) (r : Option RestoreReason) : Device :=
  let d := d.onRestore x.id fun x =>
    { x with state := .ended, current := none, cursor := none, outcome := some o, reason := r }
  let d := { d with copy.endedOrder := d.copy.endedOrder ++ [x.id] }
  d.unpin x.source x.snapshot

/-- The notice of a restore's end (R132). -/
def Device.notifyRestoreEnd (d : Device) (id : Nat) (o : RestoreOutcome) (r : Option RestoreReason) : Device :=
  d.notify .restoreEnd (.restore id) (.restoreEnd o.name r)

/-- R123: the current extent of a RUNNING restore ends now. -/
def Restore.extentOver (x : Restore) : Bool :=
  x.state = .running && x.inFlight = 0 && x.current.isSome
    && (x.hasGrains = false || x.currentOutcome ≠ some .running || x.cancel)

/-- R128: the outcome an extent ends with. -/
def Restore.finalOutcome (x : Restore) : ExtentOutcome :=
  match x.currentOutcome with
  | some .running => if x.cancel then .cancelled else .done
  | some o => o
  | none => .done

/-- The extents after the i-th get NOT_RUN (R128, R133). -/
def notRunAfter (i : Nat) (os : List ExtentOutcome) : List ExtentOutcome :=
  os.take (i + 1) ++ List.replicate (os.length - (i + 1)) .notRun

/-- R128, R132: the RESTORE_EXTENT notice of an extent with notify set. -/
def Device.notifyExtent (d : Device) (x : Restore) (i : Nat) (o : ExtentOutcome) : Device :=
  match x.extents[i]? with
  | some e => if e.notify then d.notify .restoreExtent (.restore x.id) (.extent o.name (i + 1)) else d
  | none => d

/-- R123, R128, R129: the current extent of a restore ends, and the next starts or the restore ends. -/
def extentCheck (id : Nat) (d : Device) : Effect :=
  match d.restore? id with
  | none => (d, [])
  | some x =>
    match x.current with
    | none => (d, [])
    | some i =>
      if x.extentOver then
        let o := x.finalOutcome
        let os := x.outcomes.set i o
        let d := d.onRestore id fun x => { x with outcomes := os }
        let d := d.notifyExtent x i o
        if x.cancel then
          let d := d.onRestore id fun x => { x with outcomes := notRunAfter i os }
          let d := d.endRestore x .cancelled (some .command)
          (d.notifyRestoreEnd id .cancelled (some .command), [.promote, .grant])
        else if i + 1 < x.extents.length then
          (d.onRestore id fun x => x.enterExtent (i + 1), [.grant])
        else
          let out : RestoreOutcome := if os.all fun o => o = .done then .done else .doneWithErrors
          let d := d.endRestore x out none
          (d.notifyRestoreEnd id out none, [.promote, .grant])
      else (d, [])

/-- The number of RUNNING restores. -/
def Device.runningCount (d : Device) : Nat := (d.copy.restores.filter fun x => x.state = .running).length

/-- R122: the oldest QUEUED restore becomes RUNNING while fewer than 8 run. -/
def promoteRestore (d : Device) : Effect :=
  if d.runningCount < Config.runningRestores then
    match d.copy.restores.find? fun x => x.state = .queued with
    | some x => (d.onRestore x.id fun x => { x.enterExtent 0 with state := .running }, [.promote, .grant])
    | none => (d, [])
  else (d, [])

end Sys2Proof.Machine
end

