-- ==== Sys2Proof/Machine/Duplication.lean ====
section
/-! DEFINITION. The duplication unit: queue, passes, staging, batches, go-back, the transmitter and the offsite link
(chapter 8). -/

namespace Sys2Proof.Machine

/-! ### Batches -/

/-- R147: a batch is shut. -/
def Batch.close (b : Batch) (now ack : Nat) : Batch :=
  { b with state := .shut, reopened := false, idleEnds := none, ackEnds := some (now + 1000 * ack), shutWaits := true }

/-- The batch of a sequence in the table (R146). -/
def Device.batch? (d : Device) (q : Nat) : Option Batch := d.dup.batches.find? fun b => b.sequence = q

def Device.onBatch (d : Device) (q : Nat) (f : Batch → Batch) : Device :=
  { d with dup.batches := d.dup.batches.map fun b => if b.sequence = q then f b else b }

/-- The OPEN batch of the table (R146). -/
def Device.openBatch (d : Device) : Option Batch := d.dup.batches.find? fun b => b.state = .opened

/-- R147: the batch of this sequence is shut now. -/
def Device.shutBatch (d : Device) (q : Nat) : Device :=
  d.onBatch q fun b => b.close d.clock.now d.dup.settings.ackTimeout

/-- R147: the OPEN batch, if there is one, is shut now. -/
def Device.shutOpen (d : Device) : Device :=
  match d.openBatch with
  | some b => d.shutBatch b.sequence
  | none => d

/-! ### The transmitter -/

/-- A frame goes to the peer: the transmitter is busy with it from its taking (R145, R187). -/
def Device.transmitFrame (d : Device) (f : OffsiteFrame) : Device :=
  { d with dup.transmitting := some f }.emit (.offsite f)

/-- R143: issuing becomes ON when occupancy has fallen to the low mark or below. -/
def Device.checkLow (d : Device) : Device :=
  if d.dup.staging.length ≤ d.dup.settings.low then d.onPass fun p => { p with issuing := true } else d

/-- R145, R146: the GRAIN frame of the head place is taken and joins the batch of sequence q. -/
def Device.takeGrainFrame (d : Device) (p : Pass) (pl : Place) (data : List Byte) (check : BitVec 32) (b : Batch) :
    Device :=
  let d := { d with dup.staging := d.dup.staging.tail }
  let d := match b.state with
    | .resending =>
      let d := d.onBatch b.sequence fun b => { b with check := b.check ^^^ check, resent := b.resent + 1 }
      if b.resent + 1 = b.grains.length then d.shutBatch b.sequence else d
    | _ =>
      let d := d.onBatch b.sequence fun b =>
        { b with grains := b.grains ++ [pl.grain], check := b.check ^^^ check
                 idleEnds := some (d.clock.now + 100 * d.dup.settings.idleClose) }
      let d := d.onPass fun p => { p with sent := p.sent + 1 }
      if b.grains.length + 1 = Config.batchGrains then d.shutBatch b.sequence else d
  d.checkLow.transmitFrame (.grain p.target pl.grain pl.version data check)

/-- R145: what the transmitter takes from the head place of staging. -/
def Device.takeStaged (d : Device) (p : Pass) : Device :=
  match d.dup.staging with
  | [] => d
  | pl :: _ =>
    match pl.phase with
    | .placed data check =>
      match pl.source with
      | .resend q =>
        match d.batch? q with
        | some b =>
          if b.reopened then d.takeGrainFrame p pl data check b
          else
            (d.onBatch q fun b => { b with reopened := true, check := 0, resent := 0 }).transmitFrame
              (.openBatch q p.target)
        | none => d
      | .sweep =>
        match d.openBatch with
        | some b => d.takeGrainFrame p pl data check b
        | none =>
          if d.dup.batches.length < Config.maxBatches then
            let b : Batch := { sequence := p.nextSeq, state := .opened, grains := [], check := 0, resends := 0
                               reopened := false, resent := 0, idleEnds := none, ackEnds := none, shutWaits := false }
            let d := { d with dup.batches := d.dup.batches ++ [b] }
            let d := d.onPass fun p => { p with nextSeq := (p.nextSeq + 1) % 256 }
            d.transmitFrame (.openBatch b.sequence p.target)
          else d
    | _ => d

/-- The offsite link is READY (R156). -/
def OffsiteLink.isReady : OffsiteLink → Bool
  | .ready _ => true
  | _ => false

/-- R145: the transmitter, idle and the link READY, takes the first frame that waits. -/
def transmit (d : Device) : Effect :=
  if d.dup.link.isReady = false ∨ d.dup.transmitting.isSome then (d, [])
  else
    match d.dup.attention with
    | some c => ({ d with dup.attention := none }.transmitFrame (.attention c), [])
    | none =>
      match d.dup.batches.find? fun b => b.shutWaits with
      | some b =>
        ((d.onBatch b.sequence fun b => { b with shutWaits := false }).transmitFrame
          (.shut b.sequence b.grains.length b.check), [])
      | none =>
        match d.dup.pass with
        | none => (d, [])
        | some p =>
          if p.passEndWaits then
            ((d.onPass fun p => { p with passEndWaits := false }).transmitFrame
              (.passEnd p.target (p.snapshot.getD 0) p.sent), [])
          else (d.takeStaged p, [.passCheck])

/-! ### Passes -/

/-- R151: the sweep or the draining of the pass ends at the first event at which its conditions hold. -/
def passCheck (d : Device) : Effect :=
  match d.dup.pass with
  | none => (d, [])
  | some p =>
    let capacity := match d.volume? p.volume with
      | some x => x.capacity
      | none => 0
    if p.state = .sweeping ∧ capacity ≤ p.cursor ∧ p.backlog = [] ∧ d.dup.staging = [] then
      (d.shutOpen.onPass fun p => { p with state := .draining }, [.passCheck, .transmit])
    else if p.state = .draining ∧ d.dup.batches = [] ∧ p.backlog = [] ∧ d.dup.staging = [] then
      (d.onPass fun p =>
        { p with state := .closing, passEndWaits := true
                 passEndTimer := some (d.clock.now + 1000 * d.dup.settings.ackTimeout) }, [.transmit])
    else (d, [])

/-- R138: the entry that may start: the head while the window is OPEN, the oldest DEMAND entry while CLOSED. -/
def Device.startable (d : Device) : Option DupEntry :=
  if d.clock.window = .opened then d.dup.queue.head? else d.dup.queue.find? fun e => e.origin = .demand

/-- R138, R140: a pass starts when none runs and an entry may start; it asks for its cut. -/
def passStart (d : Device) : Effect :=
  match d.dup.pass, d.startable with
  | none, some e =>
    let x := d.volume? e.volume
    let p : Pass := {
      volume := e.volume, origin := e.origin, target := (x.bind Volume.target).getD 0
      anchor := (x.map Volume.anchor).getD 0, snapshot := none, state := .cutting, stopRequested := false
      cursor := 0, sent := 0, nextSeq := 0, issuing := true, backlog := [], resends := 0
      startTime := d.clock.stamp, passEndWaits := false, passEndTimer := none }
    ({ d with dup.queue := d.dup.queue.filter (fun q => q.volume ≠ e.volume), dup.pass := some p }, [.passCut])
  | _, _ => (d, [])

/-- R141: the pass asks for its DUPLICATION cut. -/
def passCut (d : Device) : Effect :=
  match d.dup.pass with
  | none => (d, [])
  | some p =>
    if p.state = .cutting then
      match d.askCut p.volume .duplication .pass Config.defaultDrain with
      | .inl .busy => (d, [])
      | .inl _ => (d, [.passEnd .failed (some .cut)])
      | .inr e => e
    else (d, [])

/-- R119: what the pass's end does to a copy slot: a read on the reader wait list and a STAGING slot become FREE, any
other read runs on and counts against no stream. -/
def Device.releasePassSlot (d : Device) (k : SlotId) : Device :=
  match d.slot? k with
  | some s =>
    if s.stream = .pass then
      match s.phase with
      | .reading =>
        if k ∈ d.pres.readerWait then
          { d with pres.readerWait := d.pres.readerWait.filter (· ≠ k) }.setSlot k none
        else d.setSlot k (some { s with stream := .dropped })
      | _ => d.setSlot k none
    else d
  | none => d

/-- R153: the report a pass leaves in its volume's record. -/
def Pass.report (p : Pass) (o : PassOutcome) (r : Option PassReason) (endTime : Option CalTime) : PassReport :=
  { outcome := o, snapshot := p.snapshot, sent := p.sent, reason := r, endTime := endTime }

/-- R153 without the notice and the start of the next pass: pin, slots, staging, batches, frames, report, record. -/
def Device.closePass (d : Device) (p : Pass) (o : PassOutcome) (r : Option PassReason) : Device :=
  let d := match p.snapshot with
    | some n => d.unpin p.volume n
    | none => d
  let d := (List.finRange 16).foldl (fun d k => d.releasePassSlot k) d
  let d := { d with dup.staging := [], dup.batches := [] }
  let d := d.onVolume p.volume fun x => { x with report := some (p.report o r d.clock.stamp) }
  { d with dup.pass := none }

/-- R153: the running pass ends. -/
def passEnd (o : PassOutcome) (r : Option PassReason) (d : Device) : Effect :=
  match d.dup.pass with
  | none => (d, [])
  | some p =>
    let d := d.closePass p o r
    let d := match o, r with
      | .done, _ => d
      | _, some r => d.notify .passFailed (.volume p.volume) (.name r.name)
      | _, none => d
    (d, [.passStart, .grant, .transmit])

/-- R154 step 5: the ACTIVE unpinned DUPLICATION snapshots numbered below n start retiring, oldest first. -/
def retireOlder (v n : Nat) (d : Device) : Effect :=
  match d.volume? v with
  | none => (d, [])
  | some x =>
    let old := (x.snapshots.filter fun s => s.loose && s.kind = .duplication && s.number < n).map Snapshot.number
    (old.foldl (fun d k => d.startRetirement v k none) d, [])

/-! ### Making grains ready -/

/-- The version epoch of an image (R91). -/
def Image.version : Image → Option Nat
  | .unwritten => none
  | .live v => some v
  | .slot _ v => some v

/-- R142: the sweep's walk over at most n grains from cursor c: the first grain to be sent and its version epoch. -/
def Device.walkSweep (d : Device) (p : Pass) : Nat → Nat → Option (Nat × Nat)
  | 0, _ => none
  | n + 1, c =>
    match (d.resolve p.volume (p.snapshot.getD 0) c).version with
    | some v => if v > p.anchor then some (c, v) else d.walkSweep p n (c + 1)
    | none => d.walkSweep p n (c + 1)

/-- The capacity of the pass's volume. -/
def Device.passCapacity (d : Device) (p : Pass) : Nat :=
  match d.volume? p.volume with
  | some x => x.capacity
  | none => 0

/-- R142: the next grain the sweep will send, with its version epoch. -/
def Device.nextSweep (d : Device) (p : Pass) : Option (Nat × Nat) :=
  d.walkSweep p (d.passCapacity p - p.cursor) p.cursor

/-- R143: a place is reserved at the tail, and issuing becomes OFF at the high mark. -/
def Device.reservePlace (d : Device) (g v : Nat) (source : PlaceSource) : Device :=
  let d := { d with dup.staging := d.dup.staging ++ [{ grain := g, version := v, source := source, phase := .ready }] }
  if d.dup.staging.length ≥ d.dup.settings.high then d.onPass fun p => { p with issuing := false } else d

/-- R143: making ready is allowed: the pass is SWEEPING or DRAINING, issuing is ON and no grain is ready. -/
def Device.mayMakeReady (d : Device) (p : Pass) : Bool :=
  (p.state = .sweeping || p.state = .draining) && p.issuing && d.readyPlace.isNone

/-- R142, R143: the next grain of the backlog or of the sweep is made ready; a walk that finds none passes the last
grain. -/
def makeReady (d : Device) : Effect :=
  match d.dup.pass with
  | none => (d, [])
  | some p =>
    if d.mayMakeReady p then
      match p.backlog with
      | (g, q) :: rest =>
        let v := ((d.resolve p.volume (p.snapshot.getD 0) g).version).getD 0
        let d := d.onPass fun p => { p with backlog := rest }
        (d.reservePlace g v (.resend q), [.grant])
      | [] =>
        if p.state = .sweeping then
          match d.nextSweep p with
          | some (g, v) =>
            if d.dup.batches.length ≥ Config.maxBatches ∧ d.openBatch.isNone then
              (d.onPass fun p => { p with cursor := g }, [])
            else
              let d := d.onPass fun p => { p with cursor := g + 1 }
              (d.reservePlace g v .sweep, [.grant])
          | none => (d.onPass fun p => { p with cursor := max p.cursor (d.passCapacity p) }, [.passCheck])
        else (d, [])
    else (d, [])

/-- R151: the sweep's walk passes the last grain with nothing left to send, backlog and staging empty. -/
def endSweep (d : Device) : Effect :=
  match d.dup.pass with
  | none => (d, [])
  | some p =>
    if p.state = .sweeping ∧ p.backlog = [] ∧ d.dup.staging = [] ∧ d.nextSweep p = none then
      (d.onPass fun p => { p with cursor := max p.cursor (d.passCapacity p) }, [.passCheck])
    else (d, [])

/-- R144: a STAGING slot's data is placed with its grain check and the slot becomes FREE; a place discarded by a
go-back takes nothing. -/
def placeGrain (k : SlotId) (d : Device) : Effect :=
  match d.slot? k with
  | none => (d, [])
  | some s =>
    match s.phase with
    | .staging data =>
      let place (q : Place) : Place :=
        if q.phase = .reading k then { q with phase := .placed data (grainCheck data) } else q
      let d := { d with dup.staging := d.dup.staging.map place }
      (d.setSlot k none, [.grant, .transmit])
    | _ => (d, [])

/-! ### Go-back -/

/-- R150: the batches a go-back from sequence q leaves untouched, and those it covers. -/
def coverFrom (q : Nat) (bs : List Batch) : List Batch × List Batch :=
  let older := bs.takeWhile fun b => b.sequence ≠ q && b.state ≠ .resending
  (older, bs.drop older.length)

/-- R150 step 1: a covered batch. -/
def Batch.goBack (b : Batch) (now ack : Nat) : Batch :=
  { b with state := .resending, reopened := false, resent := 0, resends := b.resends + 1, idleEnds := none
           ackEnds := some (now + 1000 * ack), shutWaits := false }

/-- The lowest grain of the discarded places of the sweep (R150 step 3). -/
def lowestSweep (ps : List Place) : Option Nat :=
  ((ps.filter fun p => p.source = .sweep).map Place.grain).min?

/-- R150: a go-back from batch q, which stands in the table. -/
def goBack (q : Nat) (d : Device) : Effect :=
  let (older, covered) := coverFrom q d.dup.batches
  if covered.any fun b => b.resends ≥ Config.maxResends then (d, [.passEnd .failed (some .resend)])
  else
    let empty := covered.find? fun b => b.state = .opened && b.grains = []
    let kept := covered.filter fun b => !(b.state = .opened && b.grains = [])
    let again := kept.map fun b => b.goBack d.clock.now d.dup.settings.ackTimeout
    let back := lowestSweep d.dup.staging
    let d := { d with dup.batches := older ++ again, dup.staging := [] }
    let d := d.onPass fun p =>
      { p with
        nextSeq := (empty.map Batch.sequence).getD p.nextSeq
        cursor := back.getD p.cursor
        backlog := (again.map fun b => b.grains.map fun g => (g, b.sequence)).flatten
        issuing := true }
    (d, [.passCheck, .transmit])

/-! ### Offsite link -/

/-- R145, R156: the link leaves READY or changes; a frame in transmission when READY is left is lost. The transmitter is
idle from that event on, so that a link READY again takes a frame at once (DESIGN CHOICE, entry 28). -/
def Device.setOffsite (d : Device) (l : OffsiteLink) : Device :=
  { d with
    dup.link := l
    dup.transmitting := if l.isReady then d.dup.transmitting else none }

/-- R156: the link leaves READY with a PEER_LOST notice. -/
def Device.losePeer (d : Device) (l : OffsiteLink) (why : Name) : Device :=
  (d.setOffsite l).notify .peerLost .absent (.name why)

/-! ### Window -/

/-- R136: at a window opening every READY enrolled volume without an entry joins, in ascending volume number. -/
def Device.queueWindow (d : Device) : Device :=
  let join (q : List DupEntry) (e : Nat × Volume) : List DupEntry :=
    if e.2.state = .ready ∧ e.2.enrolment ≠ .none ∧ (q.any fun x => x.volume = e.1) = false then
      q ++ [{ volume := e.1, origin := .window }]
    else q
  { d with dup.queue := d.volumes.foldl join d.dup.queue }

/-- R57, R139: a window closing while a pass runs hands over WINDOW_OVERRUN. -/
def Device.overrun (d : Device) : Device :=
  match d.dup.pass with
  | some p => d.notify .windowOverrun (.volume p.volume) (.number p.sent)
  | none => d

/-- R56, R57, R58: a schedule entry fires. -/
def fireEntry (i : Fin 8) (d : Device) : Effect :=
  match d.clock.schedule[i].action with
  | .windowOpen =>
    if d.clock.window = .closed then
      ({ d with clock.window := .opened }.queueWindow, [.passStart, .grant])
    else (d, [])
  | .windowClose =>
    if d.clock.window = .opened then ({ d with clock.window := .closed }.overrun, []) else (d, [])
  | .scheduledCut =>
    let asked := d.volumes.filter fun e => e.2.state = .ready && 1 ≤ e.2.retention
    (d, asked.map fun e => Task.scheduledCut e.1)

end Sys2Proof.Machine
end

