-- ==== Sys2Proof/Machine/Oversight.lean ====
section
/-! DEFINITION. The oversight unit: liveness, fences and link losses of the server ports (chapter 9). -/

namespace Sys2Proof.Machine

/-- The port is FENCED (R161). -/
def Port.fenced (x : Port) : Bool := x.fence.isSome

/-- R162: the port counts. -/
def Port.counts (x : Port) : Bool := x.link = .up && x.fence = none && x.reload > 0 && x.counter > 0

/-- R163: the counter is loaded from the reload. -/
def Port.load (x : Port) : Port := { x with counter := x.reload }

/-- R169: a MANAGER port is both UP and CLEAR. -/
def Device.managerUpClear (d : Device) : Bool :=
  d.ports.toList.any fun x => x.role = .manager && x.link = .up && x.fence = none

/-- R169: the last-manager rule lets this port unfence itself. -/
def Device.mayUnfenceSelf (d : Device) (p : PortId) : Bool :=
  (d.port p).role = .manager && d.managerUpClear = false

/-- R165: an admitted write that is discarded: it leaves its entries, its charge is released, its volume's count falls
and its tag is FREE. -/
def Device.discardWrite (d : Device) (p : PortId) (tag : Nat) (j : Job) : Device :=
  let d := d.leaveWaits (.server p tag) j
  let c := j.charge.getD 0
  let d := if c = 0 then d else d.releaseCharge j.account c
  (d.lowerInFlight j.volume).freeTag p tag

/-- R165: the transaction is an admitted write not yet FORWARDED, which a fence ends. -/
def Txn.endsAtFence (t : Txn) : Bool :=
  match t.job.stage with
  | .admitting => true
  | .queued => t.kind = .write
  | _ => false

/-- R165, R167: one open transaction of a fenced or lost port, by its stage. -/
def Device.discardTxn (d : Device) (p : PortId) (tag : Nat) (t : Txn) : Device :=
  let d := d.setTxn p tag { t with owed := false }
  match t.job.stage with
  | .held => { d with cutHold := d.cutHold.filter fun w => w ≠ WriteId.server p tag }.freeTag p tag
  | .admitting => d.discardWrite p tag t.job
  | .queued =>
    let d := d.withdrawPath p tag
    if t.kind = .write then d.discardWrite p tag t.job else d.freeTag p tag
  | .forwarded _ => d
  | .command => d

/-- R165: what follows from the discarded writes, after the last of them: the SLOT_WAIT entries that lost their last
waiter give up their waits (R85), the volumes are looked at, and the accounts with a released charge are checked again.
R165 names the three without an order: this one is the model's (DESIGN CHOICE, entry 27). -/
def discardTasks (js : List Job) : List Task :=
  (js.map fun j => j.waits.map (Task.giveUp j.volume)).flatten
    ++ js.map (fun j => Task.volumeCheck j.volume)
    ++ (js.filter fun j => j.charge.getD 0 ≠ 0).map fun j => Task.recheck j.account

/-- R165: every open transaction of the port in ascending tag order, then what follows from the discards. -/
def Device.discardPort (d : Device) (p : PortId) : Effect :=
  let txns := d.portTxns p
  (txns.foldl (fun d t => d.discardTxn p t.1 t.2) d,
    discardTasks ((txns.filter fun t => t.2.endsAtFence).map fun t => t.2.job))

/-- R165: a CLEAR port is fenced, with its PORT_FENCED notice (R162, R164). -/
def Device.fencePort (d : Device) (p : PortId) (r : FenceReason) : Effect :=
  let d := d.setPort p { d.port p with fence := some r, counter := 0 }
  let d := d.notify .portFenced (.port p.val) (.name r.name)
  d.discardPort p

/-- R162: one port record at a quarter-second tick. -/
def portTick (p : PortId) (d : Device) : Effect :=
  let x := d.port p
  if x.counts then
    let d := d.setPort p { x with counter := x.counter - 1 }
    if x.counter = 1 then d.fencePort p .liveness else (d, [])
  else (d, [])

/-- R165: the state re-check and notice checks after a discarded write's release. -/
def recheckAccount (a : Nat) (d : Device) : Effect := (d.quotaChecks a, [])

end Sys2Proof.Machine
end

