-- ==== Sys2Proof/Machine/Results.lean ====
section
/-! DEFINITION. The results that responses carry: each record field by field in the order of its table (R186). -/

namespace Sys2Proof.Machine

/-- The fields of a result, one group after another. -/
def fields (groups : List (List Item)) : List Item := groups.flatten

/-- A port record of PORT READ (R171): link, role, fence and reason, reload and counter, the number of open tags and of
those whose answer owed mark is clear. -/
def Device.portItems (d : Device) (p : PortId) : List Item :=
  let x := d.port p
  let txns := d.portTxns p
  fields [[.name x.link.name, .name x.role.name, .name (fenceName x.fence)], Item.optName (x.fence.map FenceReason.name),
    [.num 2 x.reload, .num 1 x.counter, .num 1 txns.length, .num 1 (txns.filter fun t => t.2.owed = false).length]]

/-- The record PORT SET answers with, in the order of R161's table: link, role, fence, reason, reload, counter and the
list of the tags IN USE, ascending (R186). -/
def Device.portRecord (d : Device) (p : PortId) : List Item :=
  let x := d.port p
  fields [[.name x.link.name, .name x.role.name, .name (fenceName x.fence)], Item.optName (x.fence.map FenceReason.name),
    [.num 2 x.reload, .num 1 x.counter], Item.counted ((d.portTxns p).map fun t => [.num 1 t.1])]

/-- The account record as ACCOUNT LOAD stores it (R37). -/
def Account.loadItems (a : Account) : List Item :=
  fields [[.num 4 a.soft, .num 4 a.hard, .num 2 a.grace, .num 2 a.group, .num 4 a.usage, .num 4 a.held,
    .name a.state.name], Item.optTime a.deadline, [.flag a.hardArmed, .flag a.underflow]]

/-- The account record as ACCOUNT READ gives it, with the effective limit (R42). -/
def Account.readItems (a : Account) : List Item :=
  fields [[.num 4 a.soft, .num 4 a.hard, .num 2 a.grace, .num 2 a.group, .num 4 a.usage, .num 4 a.held,
    .name a.state.name], Item.optTime a.deadline, [.num 4 a.limit, .flag a.hardArmed, .flag a.underflow]]

/-- The group record (R41, R42). -/
def Group.items (g : Group) : List Item := [.num 8 g.limit, .num 8 g.usage, .num 8 g.held, .flag g.fullArmed]

/-- A minute, hour or day of a schedule entry, FFh for ANY (section 11.2). -/
def anyByte (n : Option Nat) : Item := .num 1 (n.getD 255)

/-- A schedule entry (R55). -/
def SchedEntry.items (e : SchedEntry) : List Item :=
  [.flag e.enabled, .name e.action.name, anyByte e.minute, anyByte e.hour, .num 1 e.weekdays.toNat, anyByte e.day]

/-- The calendar fields one by one (R50). -/
def CalTime.items (t : CalTime) : List Item :=
  [.num 2 t.year, .num 1 t.month, .num 1 t.day, .num 1 t.hour, .num 1 t.minute, .num 1 t.second]

/-- The last pass report of a volume, absent until the first pass ends (R61). -/
def reportItems : Option PassReport → List Item
  | none => [.num 1 0, .raw (zeros 51)]
  | some r =>
    fields [[.num 1 1, .name r.outcome.name], Item.optNum 4 r.snapshot, [.num 4 r.sent],
      Item.optName (r.reason.map PassReason.name), Item.optTime r.endTime]

/-- The state of a volume, UNDEFINED included (R61). -/
def volStateName (x : Option Volume) : Name :=
  match x with
  | none => .undefined
  | some x => x.state.name

/-- The cut state of a volume (R98). -/
def Volume.cutName (x : Volume) : Name := if x.cutting then .cutting else .idle

/-- A volume record, field by field (R61, R63, R74): every field but the state is absent while UNDEFINED, so each is
preceded by its presence byte (DEDUCED, entry 18). -/
def volumeItems (x : Option Volume) : List Item :=
  fields [[.name (volStateName x)], Item.optNum 8 (x.map Volume.base), Item.optNum 4 (x.map Volume.capacity),
    Item.optNum 4 (x.map Volume.epoch), Item.optNum 4 (x.map Volume.reserve), Item.optNum 4 (x.map Volume.slotsHeld),
    Item.optNum 1 (x.map fun x => if x.reserveArmed then 1 else 0), Item.optName (x.map Volume.cutName),
    Item.optNum 1 (x.map Volume.inFlight), Item.optNum 1 (x.map Volume.retention),
    Item.optName (x.map fun x => x.enrolment.name), Item.optNum 2 (x.bind Volume.target),
    Item.optNum 4 (x.map Volume.anchor), reportItems (x.bind Volume.report)]

/-- What VOLUME READ answers with: the record and the two derived values (R74). -/
def Device.volumeReadItems (d : Device) (v : Nat) : List Item :=
  let x := d.volume? v
  fields [volumeItems x, Item.optNum 4 (x.map fun _ => (d.pres.map.filter fun e => e.volume = v).length),
    Item.optNum 2 (x.map fun _ => (d.pres.table.filter fun e => e.2.volume = v).length)]

/-- A snapshot record (R97, R113); a RETIRING one shows whether its sweep is running or waiting, as a presence byte and
the name RUNNING or WAITING, for which R113 and R186 give no form (DESIGN CHOICE, entry 18). -/
def Volume.snapshotItems (x : Volume) (s : Snapshot) : List Item :=
  fields [[.num 4 s.number, .name s.kind.name], Item.optTime s.cutTime, [.name s.state.name, .num 1 s.pins],
    Item.optName (if s.state = .retiring then
        some (if x.sweeps.head? = some s.number then .running else .waiting) else none)]

/-- What SNAPSHOT LIST answers with (R113). -/
def Device.snapshotListItems (d : Device) (v : Nat) : List Item :=
  let x := d.volume? v
  fields [[.name (volStateName x)], Item.optNum 4 (x.map Volume.epoch), Item.optName (x.map Volume.cutName),
    Item.optNum 2 (x.map fun _ => (d.heldOf v).length), Item.optNum 1 (x.map Volume.retention),
    Item.counted (match x with
        | none => []
        | some x => x.snapshots.map x.snapshotItems)]

/-- An extent, in the layout of an extent of RESTORE (section 11.2). -/
def Extent.items (e : Extent) : List Item :=
  [.num 4 e.source, .num 2 e.count, .num 1 e.destVolume, .num 4 e.dest, .flag e.fresh, .flag e.notify]

/-- The restore record that RESTORE CANCEL answers with, every field in the order of R120's table (R130, R186). -/
def Restore.recordItems (x : Restore) : List Item :=
  fields [[.num 2 x.id, .name x.state.name, .flag x.cancel, .num 1 x.source, .num 4 x.snapshot, .num 2 x.account],
    Item.counted (x.extents.map Extent.items), Item.optNum 1 (x.current.map (· + 1)), Item.optNum 4 x.cursor,
    [.num 1 x.inFlight, .num 4 x.copied, .num 4 x.unwritten, .num 4 x.alreadyCurrent],
    Item.counted (x.outcomes.map fun o => [.name o.name]),
    Item.optName (x.outcome.map RestoreOutcome.name), Item.optName (x.reason.map RestoreReason.name)]

/-- What RESTORE STATUS answers with: the fields that R131 names, in its order. -/
def Restore.items (x : Restore) : List Item :=
  fields [[.name x.state.name, .flag x.cancel, .num 1 x.source, .num 4 x.snapshot, .num 2 x.account,
      .num 1 x.extents.length],
    Item.optNum 1 (x.current.map (· + 1)),
    [.num 1 x.inFlight, .num 4 x.copied, .num 4 x.unwritten, .num 4 x.alreadyCurrent],
    Item.counted (x.outcomes.map fun o => [.name o.name]),
    Item.optName (x.outcome.map RestoreOutcome.name), Item.optName (x.reason.map RestoreReason.name)]

/-- The staging settings (R158, R159). -/
def Settings.items (s : Settings) : List Item :=
  [.num 1 s.low, .num 1 s.high, .num 1 s.idleClose, .num 1 s.ackTimeout]

/-- The pass record as PASS STATUS gives it, the backlog by its length (R140, R158). -/
def Pass.items (p : Pass) : List Item :=
  fields [[.num 1 p.volume, .name p.origin.name, .num 2 p.target, .num 4 p.anchor], Item.optNum 4 p.snapshot,
    [.name p.state.name, .flag p.stopRequested, .num 4 p.cursor, .num 4 p.sent, .num 1 p.nextSeq,
      .name (if p.issuing then .on else .off), .num 2 p.backlog.length, .num 1 p.resends],
    Item.optTime p.startTime]

/-- A batch as PASS STATUS gives it (R158). -/
def Batch.items (b : Batch) : List Item :=
  [.num 1 b.sequence, .name b.state.name, .num 2 b.grains.length, .num 1 b.resends]

/-- The place is PLACED (R143). -/
def Place.isPlaced (p : Place) : Bool :=
  match p.phase with
  | .placed _ _ => true
  | _ => false

/-- What PASS STATUS tells of the running pass, behind one presence byte (R158; DEDUCED, entry 18). -/
def Device.runningPassItems (d : Device) : List Item :=
  match d.dup.pass with
  | none => [.num 1 0, .raw (zeros 85)]
  | some p =>
    fields [[.num 1 1], p.items, [.num 1 d.dup.staging.length, .num 1 (d.dup.staging.filter Place.isPlaced).length],
      Item.counted (d.dup.batches.map Batch.items)]

/-- What PASS STATUS answers with (R158). -/
def Device.passStatusItems (d : Device) : List Item :=
  fields [[.name d.clock.window.name, .name d.dup.mode.name, .name d.modeInForce.name, .name d.dup.link.name],
    d.dup.settings.items, Item.counted (d.dup.queue.map fun e => [.num 1 e.volume, .name e.origin.name]),
    d.runningPassItems]

/-- The capacities IDENTIFY reports (R176). -/
def capacityItems : List Item :=
  [.num 1 4, .num 1 32, .num 1 64, .num 1 4, .num 4 65536, .num 2 1024, .num 1 64, .num 4 Config.totalGrains,
   .num 1 Config.snapshotRecords, .num 4 Config.maxSlots, .num 2 Config.pendingPlaces, .num 2 Config.holdPlaces,
   .num 1 16, .num 1 Config.restoreRecords, .num 1 Config.runningRestores, .num 1 8, .num 1 64,
   .num 1 Config.maxBatches, .num 1 Config.noticePlaces]

/-- What IDENTIFY answers with on a port (R176, R186). -/
def Device.identifyItems (d : Device) (p : PortId) : List Item :=
  let x := d.port p
  fields [[.num 2 Config.vendorCode, .num 2 Config.partCode, .num 1 Config.revisionCode,
      .num 1 p.val, .name x.role.name, .name (fenceName x.fence)],
    Item.optName (x.fence.map FenceReason.name), [.num 2 x.reload, .num 1 x.counter], capacityItems,
    [.num 4 ((d.area.map Area.slots).getD 0)]]

/-- R122: RESTORE is answered with its id and the state at the end of the event. -/
def replyRestore (p : PortId) (tag id : Nat) (d : Device) : Effect :=
  match d.restore? id with
  | some x => (d.reply p tag .ok none [.num 2 id, .name x.state.name], [])
  | none => (d, [])

/-- R130: RESTORE CANCEL is answered with the record at the end of the event. -/
def replyCancel (p : PortId) (tag id : Nat) (d : Device) : Effect :=
  match d.restore? id with
  | some x => (d.reply p tag .ok none x.recordItems, [])
  | none => (d, [])

end Sys2Proof.Machine
end

