-- ==== Sys2Proof/Machine/Settle.lean ====
section
/-! DEFINITION. The carrying out of an event's consequences, one after another within the event
(DESIGN CHOICE, entry 14). -/

namespace Sys2Proof.Machine

/-- One consequence is carried out. -/
def perform (t : Task) (d : Device) : Effect :=
  match t with
  | .writeEnd w r => endWrite w r d
  | .recheck a => recheckAccount a d
  | .volumeCheck v => volumeCheck v d
  | .removalCheck v => removalCheck v d
  | .giveUp v g => giveUpWait v g d
  | .admission w => admitWrite w d
  | .walk w gs => walkGrains w gs d
  | .handOn w => handOnWrite w d
  | .startPreservation v g => startPreservation v g d
  | .storeDone v g => storeDone v g d
  | .preservationFailed v g => preservationFailed v g d
  | .dropEntry v g => dropEntry v g d
  | .reevaluate w v g => reevaluateGrain w v g d
  | .serveReaders => serveReaders d
  | .serveSlots v => serveSlots v d
  | .askRetirement v => askRetirement v d
  | .failWait v g p => failWait v g p d
  | .lapse v g => lapseWait v g d
  | .askIfWaiting v => askIfWaiting v d
  | .roomFreed v => roomFreed v d
  | .answerRetire txn n => (d.answer (some txn) .ok none [.num 4 n], [])
  | .poolEnd r st data => poolOutcome r st data d
  | .notePoolDown n => (d.notify .poolDown .absent (.number n), [])
  | .startRead k => startRead k d
  | .readEnd k st data => endRead k st data d
  | .readOutcome k st data => readOutcome k st data d
  | .makeWrite k => makeWrite k d
  | .extentCheck id => extentCheck id d
  | .promote => promoteRestore d
  | .grant => grantSlot d
  | .cutDone v c n m => finishCut v c n m d
  | .cutDrained v c => finishDrained v c d
  | .tellPass v => tellPass v d
  | .passCut => passCut d
  | .passEnd o r => passEnd o r d
  | .passStart => passStart d
  | .retireOlder v n => retireOlder v n d
  | .passCheck => passCheck d
  | .transmit => transmit d
  | .fire i => fireEntry i d
  | .scheduledCut v => scheduledCut v d
  | .portTick p => portTick p d
  | .replyRestore p tag id => replyRestore p tag id d
  | .replyCancel p tag id => replyCancel p tag id d

/-- At most n consequences are carried out, each one's own before the next. -/
def carryOut : Nat → List Task → Device → Device
  | 0, _, d => d
  | _ + 1, [], d => d
  | n + 1, t :: ts, d =>
    match perform t d with
    | (d', more) => carryOut n (more ++ ts) d'

/-- Every consequence of an event is carried out. -/
def settle (e : Effect) : Device := carryOut Config.consequenceBound e.2 e.1

/-- A command's outcome: while RESET# is low the part takes nothing (R179); otherwise its event takes place. The
queue of waiting commands is left alone. -/
def State.event (s : State) (f : Device → Device) : Host.Outcome State Fault Refusal :=
  .next (if s.dev.resetLow then s else { s with dev := f s.dev })

end Sys2Proof.Machine
end

