-- ==== Sys2Proof/Machine/Commands.lean ====
section
/-! DEFINITION. The taking of a management command: its name, its shape, the port's role (R172, R173, R174). -/

namespace Sys2Proof.Machine

/-- R173: the management unit takes the command of a transaction. The name and the shape are checked, then the role
of the port (R172); what is left to do is body's. done embeds a part that has nothing more to do. A transaction that
is not open, or holds no such command, is left as it stands (DESIGN CHOICE, entry 4). -/
def Device.take {α β : Type} (p : PortId) (tag : Nat) (name : CommandName) (parse : List Byte → Option α)
    (done : Device → β) (body : Device → α → β) (d : Device) : β :=
  match d.txn? p tag with
  | none => done d
  | some t =>
    match t.command with
    | none => done d
    | some c =>
      if c.isNamed name then
        let d := d.setTxn p tag { t with command := none }
        match parse c.area with
        | none => done (d.reply p tag .malformed none [])
        | some args =>
          if (d.port p).role = .data ∧ name.forData = false then done (d.reply p tag .notPermitted none [])
          else body d args
      else done d

/-- A command whose effect and response are all there is to its event. -/
def Device.takeNow (p : PortId) (tag : Nat) (name : CommandName) (body : Device → List Arg → Device) (d : Device) :
    Device :=
  d.take p tag name (readArgs name.shape) id body

/-- A command from which consequences follow, carried out within its event. -/
def Device.takeThen (p : PortId) (tag : Nat) (name : CommandName) (body : Device → List Arg → Effect) (d : Device) :
    Device :=
  settle (d.take p tag name (readArgs name.shape) (fun d => (d, [])) body)

/-- A command is refused with a status and no results (R173). -/
def Device.deny (d : Device) (p : PortId) (tag : Nat) (st : MgmtStatus) : Device := d.reply p tag st none []

/-- A command refused with nothing else to do. -/
def Device.denyEffect (d : Device) (p : PortId) (tag : Nat) (st : MgmtStatus) : Effect := (d.deny p tag st, [])

/-- A volume number of a command's arguments (chapter 4). -/
def badVolume (v : Nat) : Bool := v = 0 || v > 64

/-- R173 check 1: a command whose name is not in the catalogue is refused with MALFORMED. -/
def Device.takeUnknown (d : Device) (p : PortId) (tag : Nat) : Device :=
  match d.txn? p tag with
  | none => d
  | some t =>
    match t.command with
    | none => d
    | some c =>
      if c.lookup = none then (d.setTxn p tag { t with command := none }).deny p tag .malformed else d

/-- UNKNOWN_COMMAND (R173). -/
def execUnknownCommand (p : PortId) (tag : Nat) (s : State) : Host.Outcome State Fault Refusal :=
  s.event fun d => d.takeUnknown p tag

end Sys2Proof.Machine
end

