-- ==== Sys2Proof/Machine/ClockCommands.lean ====
section
/-! DEFINITION. The commands of the schedule clock (R48 to R50, R55). -/

namespace Sys2Proof.Machine

/-- R49 step 2: an account of the undated set receives its deadline and joins the grace list. -/
def Device.dateAccount (d : Device) (a : Nat) : Device :=
  let x := d.account a
  (d.setAccount a { x with deadline := some (d.clock.time.addHours x.grace) }).joinGrace a

/-- R49: an accepted TIME SET. -/
def Device.loadTime (d : Device) (t : CalTime) : Device :=
  let wasValid := d.clock.valid
  let undated := d.clock.undated
  let d := { d with
    clock.time := t, clock.valid := true, clock.nextSecond := d.clock.now + Config.secondPeriod }
  if wasValid then d else undated.foldl Device.dateAccount { d with clock.undated := [] }

/-- R48, R49: TIME SET. -/
def Device.timeSet (d : Device) (p : PortId) (tag : Nat) : List Arg → Device
  | [.num y, .num mo, .num dd, .num h, .num mi, .num sec] =>
    let t : CalTime := { year := y, month := mo, day := dd, hour := h, minute := mi, second := sec }
    if t.valid then (d.loadTime t).reply p tag .ok none [.time t] else d.deny p tag .badArgument
  | _ => d.deny p tag .malformed

/-- R50: TIME READ. -/
def Device.timeRead (d : Device) (p : PortId) (tag : Nat) : Device :=
  d.reply p tag .ok none
    (fields [d.clock.time.items,
      [.num 1 d.clock.time.weekday, .name (if d.clock.valid then Name.valid else Name.invalid)]])

/-- An entry number of a SCHEDULE SET. -/
def toEntry (n : Nat) : Option (Fin 8) := if h : n < 8 then some ⟨n, h⟩ else none

/-- R55: the entry a SCHEDULE SET carries; none when an argument is out of its range. -/
def readSchedule (enabled : Nat) (action : List Byte) (minute hour weekdays day : Nat) : Option SchedEntry :=
  match readAction action, readPattern 0 59 minute, readPattern 0 23 hour, readPattern 1 31 day with
  | some a, some mi, some h, some dd =>
    if weekdays % 128 = 0 then none
    else some { enabled := enabled ≠ 0, action := a, minute := mi, hour := h
                weekdays := BitVec.ofNat 7 weekdays, day := dd }
  | _, _, _, _ => none

/-- R55: SCHEDULE SET. -/
def Device.scheduleSet (d : Device) (p : PortId) (tag : Nat) : List Arg → Device
  | [.num n, .num enabled, .text action, .num minute, .num hour, .num weekdays, .num day] =>
    match toEntry n, readSchedule enabled action minute hour weekdays day with
    | some i, some e =>
      { d with clock.schedule := d.clock.schedule.set i.val e i.isLt }.reply p tag .ok none []
    | _, _ => d.deny p tag .badArgument
  | _ => d.deny p tag .malformed

/-- R55: SCHEDULE READ. The eight entries carry no count byte: the model takes a fixed number of entries to be no list of
R186 (DESIGN CHOICE, entry 18). -/
def Device.scheduleRead (d : Device) (p : PortId) (tag : Nat) : Device :=
  d.reply p tag .ok none (fields (d.clock.schedule.toList.map SchedEntry.items))

/-- TIME_SET (R48, R49). -/
def execTimeSet (p : PortId) (tag : Nat) (s : State) : Host.Outcome State Fault Refusal :=
  s.event fun d => d.takeNow p tag .timeSet fun d args => d.timeSet p tag args

/-- TIME_READ (R50). -/
def execTimeRead (p : PortId) (tag : Nat) (s : State) : Host.Outcome State Fault Refusal :=
  s.event fun d => d.takeNow p tag .timeRead fun d _ => d.timeRead p tag

/-- SCHEDULE_SET (R55). -/
def execScheduleSet (p : PortId) (tag : Nat) (s : State) : Host.Outcome State Fault Refusal :=
  s.event fun d => d.takeNow p tag .scheduleSet fun d args => d.scheduleSet p tag args

/-- SCHEDULE_READ (R55). -/
def execScheduleRead (p : PortId) (tag : Nat) (s : State) : Host.Outcome State Fault Refusal :=
  s.event fun d => d.takeNow p tag .scheduleRead fun d _ => d.scheduleRead p tag

end Sys2Proof.Machine
end

