-- ==== Sys2Proof/Machine/ClockEvents.lean ====
section
/-! DEFINITION. The ticks of the reference oscillator and what expires on them (R46, R47, R54, R56, R162). -/

namespace Sys2Proof.Machine

/-- The reference oscillator reaches the next second tick; the one after comes a second later (R59). -/
def Device.reachSecond (d : Device) : Device :=
  let d := d.reach d.clock.nextSecond
  { d with clock.nextSecond := d.clock.nextSecond + Config.secondPeriod }

/-- The reference oscillator reaches the next quarter-second tick (R59). -/
def Device.reachQuarter (d : Device) : Device :=
  let d := d.reach d.clock.nextQuarter
  { d with clock.nextQuarter := d.clock.nextQuarter + Config.quarterPeriod }

/-- R47: an account of the grace list loses its deadline and joins the undated set. -/
def Device.undate (d : Device) (a : Nat) : Device :=
  (d.setAccount a { d.account a with deadline := none }).joinUndated a

/-- R47: the wrap of the calendar. -/
def Device.wrapClock (d : Device) : Device :=
  let moved := d.clock.graceList
  let wasValid := d.clock.valid
  let d := { d with clock.time := .origin, clock.valid := false }
  if wasValid then
    let d := moved.foldl Device.undate { d with clock.graceList := [] }
    d.notify .clockInvalid .absent (.number moved.length)
  else d

/-- R56: the firings of the schedule entries that match the calendar, in ascending entry number. -/
def Device.firings (d : Device) : List Task :=
  ((List.finRange 8).filter fun i => d.clock.schedule[i].matches d.clock.time).map Task.fire

/-- R46, R47, R54, R56: a second tick. -/
def Device.secondTick (d : Device) : Effect :=
  let d := d.reachSecond
  if d.clock.time = .last then (d.wrapClock, [])
  else
    let d := { d with clock.time := d.clock.time.nextSecond }
    if d.clock.valid then
      let d := expiryScan d.clock.graceList.length d
      (d, if d.clock.time.second = 0 then d.firings else [])
    else (d, [])

/-- R32, R54: the head of the grace list whose deadline has been reached expires (DEDUCED, entry 6). -/
def Device.graceExpiry (d : Device) (a : Nat) : Device :=
  if d.clock.valid ∧ d.clock.graceList.head? = some a then expiryScan 1 d else d

/-- R162: a port whose counter a tick has brought to 0 is fenced (DEDUCED, entry 5). -/
def Device.livenessExpiry (d : Device) (p : PortId) : Effect :=
  let x := d.port p
  if x.link = .up ∧ x.fence = none ∧ x.reload > 0 ∧ x.counter = 0 then d.fencePort p .liveness else (d, [])

/-- SECOND_TICK (R46). -/
def execSecondTick (s : State) : Host.Outcome State Fault Refusal :=
  s.event fun d => settle d.secondTick

/-- GRACE_EXPIRY (R32). -/
def execGraceExpiry (a : Nat) (s : State) : Host.Outcome State Fault Refusal :=
  s.event fun d => d.graceExpiry a

/-- QUARTER_SECOND_TICK (R162). -/
def execQuarterSecondTick (s : State) : Host.Outcome State Fault Refusal :=
  s.event fun d => settle (d.reachQuarter, (List.finRange 4).map Task.portTick)

/-- LIVENESS_EXPIRY (R162). -/
def execLivenessExpiry (p : PortId) (s : State) : Host.Outcome State Fault Refusal :=
  s.event fun d => settle (d.livenessExpiry p)

end Sys2Proof.Machine
end

