-- ==== Sys2Proof/Machine/PoolEvents.lean ====
section
/-! DEFINITION. What comes about at the pool port: POOL DONE, timeouts, quarantine and the pool link (R9, R13 to R15,
R178). -/

namespace Sys2Proof.Machine

/-- How a transaction ends with a POOL DONE; REFUSED is treated as MEDIA_ERROR (R9, R13). -/
def doneStatus : PoolStatus → Status
  | .ok => .ok
  | .mediaError => .mediaError
  | .refused => .mediaError

/-- R13: a POOL DONE: a BUSY tag's transaction ends and the tag becomes FREE; any other is discarded. -/
def Device.donePool (d : Device) (t : PoolTagId) (st : PoolStatus) (data : List Byte) : Effect :=
  match d.pool.tags[t] with
  | .busy r _ => ((d.setTag t .free).grantPool, [.poolEnd r (doneStatus st) data])
  | _ => (d, [])

/-- R13: a BUSY tag's 5 s expire; the tag is quarantined for 5 s more. -/
def Device.timeoutPool (d : Device) (t : PoolTagId) : Effect :=
  match d.pool.tags[t] with
  | .busy r issued =>
    let d := d.reach (issued + Config.poolTimeout)
    (d.setTag t (.quarantined (d.clock.now + Config.poolTimeout)), [.poolEnd r .timeout []])
  | _ => (d, [])

/-- R178: a pending PATH RESET whose last tag has left quarantine answers with its three counts. -/
def Device.completeReset (d : Device) : Device :=
  match d.mgmt.pathReset with
  | some r =>
    if r.left = [] then
      { d with mgmt.pathReset := none }.reply r.txn.port r.txn.tag .ok none
        [.num 1 r.aborted, .num 1 r.restores, .flag r.passEnded]
    else d
  | none => d

/-- R178: a tag leaves the set of a pending PATH RESET. -/
def Device.leaveResetSet (d : Device) (t : PoolTagId) : Device :=
  { d with mgmt.pathReset := d.mgmt.pathReset.map fun r => { r with left := r.left.filter (· ≠ t) } }

/-- R10, R178: a tag's quarantine ends. -/
def Device.endQuarantine (d : Device) (t : PoolTagId) : Device :=
  match d.pool.tags[t] with
  | .quarantined ends => ((((d.reach ends).setTag t .free).leaveResetSet t).completeReset).grantPool
  | _ => d

/-- The BUSY tags with their requesters, ascending (R14, R16). -/
def Pool.busyTags (p : Pool) : List (PoolTagId × Requester) :=
  (List.finRange 64).filterMap fun t =>
    match p.tags[t] with
    | .busy r _ => some (t, r)
    | _ => none

/-- R14, R16: every BUSY tag is quarantined until 5 s from now. -/
def Device.quarantineBusy (d : Device) : Device :=
  { d with pool.tags := d.pool.tags.map fun t =>
      match t with
      | .busy _ _ => .quarantined (d.clock.now + Config.poolTimeout)
      | t => t }

/-- R14, R16: the pool request queue is emptied. -/
def Device.withdrawAll (d : Device) : Device :=
  { d with pool.preserveQ := [], pool.pathQ := [], pool.copyQ := [] }

/-- The requesters whose work the loss of the pool link ends: of the outstanding transactions and of the requests. -/
def Pool.openWork (p : Pool) : List Requester :=
  p.busyTags.map Prod.snd ++ (p.preserveQ ++ p.pathQ ++ p.copyQ).map PoolRequest.requester

/-- R14: the pool link is lost; the ends of the work it held and its notice come in an open order (R180, entry 10). -/
def Device.losePool (d : Device) : Effect :=
  let work := d.pool.openWork
  let d := { d with pool.link := .down }
  let d := d.quarantineBusy.withdrawAll
  ({ d with freeIndex := d.freeIndex + work.length },
    openOrder work.length d.freeIndex
      (.notePoolDown work.length :: work.map fun r => .poolEnd r .poolDown []))

/-- POOL_DONE (R9, R13). -/
def execPoolDone (t : PoolTagId) (st : PoolStatus) (data : List Byte) (s : State) :
    Host.Outcome State Fault Refusal :=
  s.event fun d => settle (d.donePool t st data)

/-- POOL_TIMEOUT (R13). -/
def execPoolTimeout (t : PoolTagId) (s : State) : Host.Outcome State Fault Refusal :=
  s.event fun d => settle (d.timeoutPool t)

/-- QUARANTINE_END (R10, R178). -/
def execQuarantineEnd (t : PoolTagId) (s : State) : Host.Outcome State Fault Refusal :=
  s.event fun d => d.endQuarantine t

/-- POOL_LINK_DOWN (R14). -/
def execPoolLinkDown (s : State) : Host.Outcome State Fault Refusal :=
  s.event fun d => if d.pool.link = .up then settle d.losePool else d

/-- POOL_LINK_UP (R15). -/
def execPoolLinkUp (s : State) : Host.Outcome State Fault Refusal :=
  s.event fun d => { d with pool.link := .up }

end Sys2Proof.Machine
end

