-- ==== Sys2Proof/Machine/PartCommands.lean ====
section
/-! DEFINITION. NOTICE READ, PATH RESET and the RESET# line (R16, R95, R114, R133, R160, R177 to R179, R182). -/

namespace Sys2Proof.Machine

/-! ### NOTICE READ -/

/-- R182: the notices a read of so many takes. -/
def Management.takeNotices (m : Management) (n : Nat) : Management :=
  { m with notices := m.notices.drop n, overflow := false, attnLow := (m.notices.drop n).length > 0 }

/-- R182, R183: NOTICE READ. -/
def Device.noticeRead (d : Device) (p : PortId) (tag : Nat) : List Arg → Device
  | [.num n] =>
    if n = 0 ∨ n > 8 then d.deny p tag .badArgument
    else
      match d.txn? p tag with
      | some t =>
        if t.owed then
          let taken := d.mgmt.notices.take n
          { d with mgmt := d.mgmt.takeNotices n }.reply p tag .ok none
            (fields [[.num 1 taken.length, .flag d.mgmt.overflow, .num 1 (d.mgmt.notices.drop n).length],
              taken.map fun x : Notice => Item.raw x.bytes])
        else d.reply p tag .ok none []
      | none => d
  | _ => d.deny p tag .malformed

/-! ### PATH RESET -/

/-- Items sorted by an order, earlier items first among equals. -/
def sortBy {α : Type} (before : α → α → Bool) (l : List α) : List α :=
  l.foldl (fun acc x => insertBefore before x acc) []

/-- R114: the volumes whose cuts a PATH RESET abandons, ascending. -/
def Device.cuttingVolumes (d : Device) : List (Nat × CutRecord) :=
  d.volumes.filterMap fun e => e.2.cut.map fun c => (e.1, c)

/-- R114: one cut is abandoned by a PATH RESET; a CUT is answered ABORTED with reason RESET. -/
def Device.resetCut (d : Device) (e : Nat × CutRecord) : Device :=
  let d := d.onVolume e.1 fun x => { x with cut := none }
  match e.2.requester with
  | .command txn => d.answer (some txn) .aborted (some .reset) []
  | _ => d

/-- R16: the open READ and WRITE transactions, by port and tag. -/
def Device.openData (d : Device) : List (Nat × Txn) :=
  d.txns.filter fun e => e.2.kind = .read || e.2.kind = .write

/-- R16, R29, R66: the failed end of an admitted write at a PATH RESET. -/
def Device.abortJob (d : Device) (j : Job) : Device :=
  match j.charge with
  | some c => (d.settleCharge j.account c false).lowerInFlight j.volume
  | none => d

/-- R16: one open READ or WRITE ends ABORTED. -/
def Device.abortTxn (d : Device) (e : Nat × Txn) : Device :=
  (d.abortJob e.2.job).endTxn (keyPort e.1) (e.1 % 32) .aborted 0 []

/-- R133: a copy slot becomes FREE; a restore write that was admitted ends failed. -/
def Device.abortSlot (d : Device) (k : SlotId) : Device :=
  match d.slot? k with
  | some s =>
    match s.phase with
    | .writing j _ => (d.abortJob j).setSlot k none
    | _ => d.setSlot k none
  | none => d

/-- R95: the slots of the entries in PRESERVING and STORING, with their volumes, in ascending slot number. -/
def Device.unstoredSlots (d : Device) : List (Nat × Nat) :=
  sortBy (fun a b => decide (a.2 < b.2)) (d.pres.table.filterMap fun e =>
    match e.2.phase with
    | .preserving _ _ s => some (e.2.volume, s)
    | .storing _ _ s _ => some (e.2.volume, s)
    | _ => none)

/-- R95: every pending entry is removed, unstored slots return, the wait lists are emptied. -/
def Device.resetPending (d : Device) : Device :=
  let d := d.unstoredSlots.foldl (fun d e => d.returnSlot e.1 e.2) d
  { d with
    pres.table := [], pres.readerWait := []
    volumes := d.volumes.map fun e => (e.1, { e.2 with slotWait := [] }) }

/-- R133: a restore that is not yet ENDED, ended by a PATH RESET, with its extents' outcomes. -/
def Restore.resetOutcomes (x : Restore) : List ExtentOutcome :=
  match x.current with
  | some i => notRunAfter i (x.outcomes.set i .cancelled)
  | none => x.outcomes.map fun _ => .notRun

def Device.resetRestore (d : Device) (x : Restore) : Device :=
  (d.onRestore x.id fun x => { x with outcomes := x.resetOutcomes, inFlight := 0 }).endRestore x .cancelled
    (some .reset)

/-- R133: the restores that a PATH RESET ends, in ascending id. -/
def Device.openRestores (d : Device) : List Restore :=
  sortBy (fun a b => decide (a.id < b.id)) (d.copy.restores.filter fun x => x.state ≠ .ended)

/-- A notice of this event. -/
def Device.noticeOf (d : Device) (k : NoticeKind) (subject : Subject) (value : NoticeValue) : Notice :=
  { kind := k, time := d.clock.stamp, subject := subject, value := value }

/-- R132, R133: the notices of one restore ended by a PATH RESET. -/
def Device.resetRestoreNotices (d : Device) (x : Restore) : List Notice :=
  let ended := d.noticeOf .restoreEnd (.restore x.id) (.restoreEnd .cancelled (some .reset))
  match x.current with
  | some i =>
    match x.extents[i]? with
    | some e =>
      if e.notify then [d.noticeOf .restoreExtent (.restore x.id) (.extent .cancelled (i + 1)), ended] else [ended]
    | none => [ended]
  | none => [ended]

/-- R177: the notices of a PATH RESET, one list for each that has an order of its own: each cut's, the restores' in
ascending id, the pass's. -/
def Device.resetNotices (d : Device) : List (List Notice) :=
  (d.cuttingVolumes.map fun e => [d.noticeOf .cutFailed (.volume e.1) (.name .reset)])
    ++ [(d.openRestores.map d.resetRestoreNotices).flatten]
    ++ (match d.dup.pass with
        | some p => [[d.noticeOf .passFailed (.volume p.volume) (.name .reset)]]
        | none => [])

/-- R177: lists of notices put into one, each list's order kept, which list gives the next being open (entry 11): the
free values from index i on decide, at most n of them. -/
def interleave : Nat → Nat → List (List Notice) → List Notice
  | 0, _, _ => []
  | n + 1, i, ls =>
    let ls := ls.filter fun l => l ≠ []
    let k := Config.noticeTurn i % ls.length
    match ls[k]? with
    | some (x :: rest) => x :: interleave n (i + 1) (ls.set k rest)
    | _ => []

/-- R177: the notices of a PATH RESET are handed over. -/
def Device.handOverAll (d : Device) (ls : List (List Notice)) : Device :=
  let n := ls.flatten.length
  let d := (interleave n d.freeIndex ls).foldl Device.queueNotice d
  { d with freeIndex := d.freeIndex + n }

/-- R16, R114: the ends a PATH RESET brings about: of the cuts, and of the open READs and WRITEs. -/
def Device.resetEnds (d : Device) : List (Device → Device) :=
  d.cuttingVolumes.map (fun e d => d.resetCut e) ++ d.openData.map fun e d => d.abortTxn e

/-- R16, R114: the cuts, the READs and the WRITEs end in an open order (entry 10), the cut-hold queue emptied. -/
def Device.endWork (d : Device) : Device :=
  let n := d.resetEnds.length - 1
  (openOrder n d.freeIndex d.resetEnds).foldl (fun d f => f d) { d with cutHold := [], freeIndex := d.freeIndex + n }

/-- R16, R95, R114, R133, R160: the work a PATH RESET ends in every block. -/
def Device.clearWork (d : Device) : Device :=
  let d := d.endWork
  let d := (List.finRange 16).foldl Device.abortSlot d
  let d := { d.quarantineBusy.withdrawAll with pool.streak := 0 }
  let d := d.resetPending
  let d := d.openRestores.foldl Device.resetRestore d
  let d := { d with copy.lastServed := none, copy.cursor := 0 }
  match d.dup.pass with
  | some p => d.closePass p .failed (some .reset)
  | none => d

/-- R177: the record of a PATH RESET, from the part as it was before. -/
def Device.resetRecord (d : Device) (p : PortId) (tag : Nat) : PendingReset :=
  { txn := { port := p, tag := tag }, left := d.pool.busyTags.map Prod.fst, aborted := d.openData.length
    restores := d.openRestores.length, passEnded := d.dup.pass.isSome }

/-- R177, R178: PATH RESET is carried out; with an empty set it answers at once. Removals may then end (R73) and the
next pass start (R160). -/
def Device.resetPath (d : Device) (p : PortId) (tag : Nat) : Effect :=
  let notices := d.resetNotices
  let record := d.resetRecord p tag
  let d := d.clearWork.handOverAll notices
  let d := { d with mgmt.pathReset := some record }.completeReset
  (d, d.volumes.map (fun e => Task.volumeCheck e.1) ++ [.passStart])

/-- R177: PATH RESET. -/
def Device.pathResetCommand (d : Device) (p : PortId) (tag : Nat) : Effect :=
  if d.mgmt.pathReset.isSome then d.denyEffect p tag .busy else d.resetPath p tag

/-! ### RESET# -/

/-- R179: a full reset; RESET# is low. The log of sent frames and the index of free values are the model's own and
stand (DESIGN CHOICE, entries 12 and 13). -/
def Device.fullReset (d : Device) : Device :=
  { Device.reset with resetLow := true, out := d.out, freeIndex := d.freeIndex }

/-- What a line reports, as a link state. -/
def lineLink (present : Bool) : Link := if present then .up else .down

/-- R156: the offsite link state a line gives after full reset. -/
def lineOffsite (present : Bool) : OffsiteLink := if present then .up else .down

/-- R179: RESET# returns high; links are read from their lines and the ticks start. -/
def Device.release (d : Device) (l : Lines) : Device :=
  { d with
    resetLow := false
    ports := Vector.zipWith (fun x b => { x with link := lineLink b }) d.ports l.server
    pool.link := lineLink l.pool
    dup.link := lineOffsite l.offsite
    clock.nextSecond := d.clock.now + Config.secondPeriod
    clock.nextQuarter := d.clock.now + Config.quarterPeriod }

/-- NOTICE_READ (R182). -/
def execNoticeRead (p : PortId) (tag : Nat) (s : State) : Host.Outcome State Fault Refusal :=
  s.event fun d => d.takeNow p tag .noticeRead fun d args => d.noticeRead p tag args

/-- PATH_RESET (R177). -/
def execPathReset (p : PortId) (tag : Nat) (s : State) : Host.Outcome State Fault Refusal :=
  s.event fun d => d.takeThen p tag .pathReset fun d _ => d.pathResetCommand p tag

/-- RESET_ASSERT (R179). -/
def execResetAssert (s : State) : Host.Outcome State Fault Refusal :=
  .next { s with dev := s.dev.fullReset }

/-- RESET_RELEASE (R179): a line that is already high changes nothing. -/
def execResetRelease (l : Lines) (s : State) : Host.Outcome State Fault Refusal :=
  .next (if s.dev.resetLow then { s with dev := s.dev.release l } else s)

end Sys2Proof.Machine
end

