-- ==== Sys2Proof/Machine/PassCommands.lean ====
section
/-! DEFINITION. The commands of the duplication unit (R135, R137, R139, R155, R157 to R159). -/

namespace Sys2Proof.Machine

/-- R135 check 3: another enrolled volume has the target. -/
def Device.targetTaken (d : Device) (v target : Nat) : Bool :=
  d.volumes.any fun e => e.1 ≠ v && e.2.enrolment ≠ .none && e.2.target = some target

/-- R135 check 4: a pass of the volume runs to another target. -/
def Device.passElsewhere (d : Device) (v target : Nat) : Bool :=
  match d.dup.pass with
  | some p => p.volume = v && p.target ≠ target
  | none => false

/-- R135: the first check of an ENROL that fails. -/
def Device.enrolRefusal (d : Device) (v : Nat) (e : Enrolment) (target : Nat) : Option MgmtStatus :=
  if badVolume v ∨ (e ≠ .none ∧ (target = 0 ∨ target > 4095)) then some .badArgument
  else
    match d.volume? v with
    | none => some .notFound
    | some x =>
      if x.state = .removing then some .notFound
      else if e ≠ .none ∧ d.targetTaken v target then some .conflict
      else if e ≠ .none ∧ d.passElsewhere v target then some .busy
      else none

/-- R135: the enrolment and the target of an accepted ENROL; a new target that differs from the present one puts the
anchor to 0. -/
def Volume.enrolled (x : Volume) (e : Enrolment) (target : Nat) : Volume :=
  if e = .none then { x with enrolment := .none }
  else if x.target = none ∨ x.target = some target then { x with enrolment := e, target := some target }
  else { x with enrolment := e, target := some target, anchor := 0 }

/-- R135: an accepted ENROL. -/
def Device.enrolVolume (d : Device) (v : Nat) (e : Enrolment) (target : Nat) : Device :=
  let d := d.onVolume v fun x => x.enrolled e target
  if e = .none then { d with dup.queue := d.dup.queue.filter fun q => q.volume ≠ v } else d

/-- The enrolment, target and anchor of a volume, as ENROL answers them (R135). -/
def Device.enrolItems (d : Device) (v : Nat) : List Item :=
  match d.volume? v with
  | some x => fields [[.name x.enrolment.name], Item.optNum 2 x.target, [.num 4 x.anchor]]
  | none => []

/-- R135: ENROL. -/
def Device.enrol (d : Device) (p : PortId) (tag : Nat) : List Arg → Device
  | [.num v, .text e, .num target] =>
    match readEnrolment e with
    | none => d.deny p tag .badArgument
    | some e =>
      match d.enrolRefusal v e target with
      | some r => d.deny p tag r
      | none =>
        let d := d.enrolVolume v e target
        d.reply p tag .ok none (d.enrolItems v)
  | _ => d.deny p tag .malformed

/-- R137: the check of a DUPLICATE NOW that fails. -/
def Device.duplicateRefusal (d : Device) (v : Nat) : Option MgmtStatus :=
  if badVolume v then some .badArgument
  else
    match d.volume? v with
    | none => some .notFound
    | some x =>
      match x.state with
      | .removing => some .notFound
      | .preparing => some .busy
      | .ready => if x.enrolment = .none then some .conflict else none

/-- R137: the volume has an entry of origin DEMAND: its own turns DEMAND in place, or one joins at the tail. -/
def Device.demand (d : Device) (v : Nat) : Device :=
  if d.dup.queue.any fun e => e.volume = v then
    { d with dup.queue := d.dup.queue.map fun e => if e.volume = v then { e with origin := .demand } else e }
  else { d with dup.queue := d.dup.queue ++ [{ volume := v, origin := .demand }] }

/-- The position of a volume's entry, 1 for the head (R137). -/
def Device.queuePosition (d : Device) (v : Nat) : Nat := (d.dup.queue.takeWhile fun e => e.volume ≠ v).length + 1

/-- R137, R138: DUPLICATE NOW; a pass may then start. -/
def Device.duplicateNow (d : Device) (p : PortId) (tag : Nat) : List Arg → Effect
  | [.num v] =>
    match d.duplicateRefusal v with
    | some r => d.denyEffect p tag r
    | none =>
      let d := d.demand v
      (d.reply p tag .ok none [.num 1 (d.queuePosition v), .name .demand], [.passStart])
  | _ => d.denyEffect p tag .malformed

/-- R139: PACING SET; a raised cap makes the copy engine look (R117). -/
def Device.pacingSet (d : Device) (p : PortId) (tag : Nat) : List Arg → Effect
  | [.text m] =>
    let mode := readPacing m
    ({ d with dup.mode := mode }.reply p tag .ok none [.name mode.name], [.grant])
  | _ => d.denyEffect p tag .malformed

/-- R159: a STAGING SET is refused. -/
def Settings.bad (s : Settings) : Bool :=
  s.low < 1 || s.low > 62 || s.high < 2 || s.high > 63 || s.low ≥ s.high || s.idleClose < 1 || s.idleClose > 255
    || s.ackTimeout < 1 || s.ackTimeout > 255

/-- R159: issuing under new marks. -/
def reissue (occupancy : Nat) (s : Settings) (issuing : Bool) : Bool :=
  if occupancy ≥ s.high then false else if occupancy ≤ s.low then true else issuing

/-- R159: an accepted STAGING SET. -/
def Device.setStaging (d : Device) (s : Settings) : Device :=
  { d with dup.settings := s }.onPass fun p => { p with issuing := reissue d.dup.staging.length s p.issuing }

/-- R159: STAGING SET. -/
def Device.stagingSet (d : Device) (p : PortId) (tag : Nat) : List Arg → Device
  | [.num low, .num high, .num idle, .num ack] =>
    let s : Settings := { low := low, high := high, idleClose := idle, ackTimeout := ack }
    if s.bad then d.deny p tag .badArgument else (d.setStaging s).reply p tag .ok none s.items
  | _ => d.deny p tag .malformed

/-- R155: the pass's cut has been accepted and not yet decided. -/
def Device.passCutOpen (d : Device) (p : Pass) : Bool :=
  match p.state, d.volume? p.volume with
  | .cutting, some x =>
    match x.cut with
    | some c => c.requester = .pass
    | none => false
  | _, _ => false

/-- R155: PASS STOP. -/
def Device.passStop (d : Device) (p : PortId) (tag : Nat) : Effect :=
  match d.dup.pass with
  | none => d.denyEffect p tag .notFound
  | some x =>
    if d.passCutOpen x then
      ((d.onPass fun y => { y with stopRequested := true }).reply p tag .ok none (Item.optName (some x.state.name)), [])
    else (d.reply p tag .ok none (Item.optName none), [.passEnd .stopped (some .stop)])

/-- R157: SIGNAL PEER. -/
def Device.signalPeer (d : Device) (p : PortId) (tag : Nat) : List Arg → Effect
  | [.num code] =>
    if code > 65535 then d.denyEffect p tag .badArgument
    else if d.dup.attention.isSome then d.denyEffect p tag .busy
    else ({ d with dup.attention := some code }.reply p tag .ok none [], [.transmit])
  | _ => d.denyEffect p tag .malformed

/-- ENROL (R135). -/
def execEnrol (p : PortId) (tag : Nat) (s : State) : Host.Outcome State Fault Refusal :=
  s.event fun d => d.takeNow p tag .enrol fun d args => d.enrol p tag args

/-- DUPLICATE_NOW (R137). -/
def execDuplicateNow (p : PortId) (tag : Nat) (s : State) : Host.Outcome State Fault Refusal :=
  s.event fun d => d.takeThen p tag .duplicateNow fun d args => d.duplicateNow p tag args

/-- PACING_SET (R139). -/
def execPacingSet (p : PortId) (tag : Nat) (s : State) : Host.Outcome State Fault Refusal :=
  s.event fun d => d.takeThen p tag .pacingSet fun d args => d.pacingSet p tag args

/-- STAGING_SET (R159). -/
def execStagingSet (p : PortId) (tag : Nat) (s : State) : Host.Outcome State Fault Refusal :=
  s.event fun d => d.takeNow p tag .stagingSet fun d args => d.stagingSet p tag args

/-- PASS_STATUS (R158). -/
def execPassStatus (p : PortId) (tag : Nat) (s : State) : Host.Outcome State Fault Refusal :=
  s.event fun d => d.takeNow p tag .passStatus fun d _ => d.reply p tag .ok none d.passStatusItems

/-- PASS_STOP (R155). -/
def execPassStop (p : PortId) (tag : Nat) (s : State) : Host.Outcome State Fault Refusal :=
  s.event fun d => d.takeThen p tag .passStop fun d _ => d.passStop p tag

/-- SIGNAL_PEER (R157). -/
def execSignalPeer (p : PortId) (tag : Nat) (s : State) : Host.Outcome State Fault Refusal :=
  s.event fun d => d.takeThen p tag .signalPeer fun d args => d.signalPeer p tag args

end Sys2Proof.Machine
end

