-- ==== Sys2Proof/Machine/PassEvents.lean ====
section
/-! DEFINITION. The running pass getting somewhere (chapter 8). -/

namespace Sys2Proof.Machine

/-- R145: the transmission ends and the transmitter takes the next frame. -/
def Device.endTransmission (d : Device) : Effect :=
  if d.dup.transmitting.isSome then ({ d with dup.transmitting := none }, [.transmit]) else (d, [])

/-- R147: the idle timer of the OPEN batch expires. -/
def Device.idleClose (d : Device) : Effect :=
  match d.openBatch with
  | some b =>
    match b.idleEnds with
    | some m => ((d.reach m).shutBatch b.sequence, [.transmit])
    | none => (d, [])
  | none => (d, [])

/-- R149: the acknowledgement timer of a SHUT or RESENDING batch expires. -/
def Device.ackExpiry (d : Device) (q : Nat) : Effect :=
  match d.batch? q with
  | some b =>
    match b.ackEnds with
    | some m => goBack q (d.reach m)
    | none => (d, [])
  | none => (d, [])

/-- R151: a DRAINING pass looks whether it has finished draining. -/
def Device.drainEnd (d : Device) : Effect :=
  match d.dup.pass with
  | some p => if p.state = .draining then passCheck d else (d, [])
  | none => (d, [])

/-- R152: the PASS END timer expires. -/
def Device.passEndExpiry (d : Device) : Effect :=
  match d.dup.pass with
  | some p =>
    match p.state, p.passEndTimer with
    | .closing, some m =>
      let d := d.reach m
      if p.resends < Config.maxResends then
        (d.onPass fun p =>
          { p with resends := p.resends + 1, passEndWaits := true
                   passEndTimer := some (d.clock.now + 1000 * d.dup.settings.ackTimeout) }, [.transmit])
      else (d, [.passEnd .failed (some .close)])
    | _, _ => (d, [])
  | none => (d, [])

/-- PASS_START (R138). -/
def execPassStart (s : State) : Host.Outcome State Fault Refusal :=
  s.event fun d => settle (passStart d)

/-- GRAIN_MAKE_READY (R143). -/
def execGrainMakeReady (s : State) : Host.Outcome State Fault Refusal :=
  s.event fun d => settle (makeReady d)

/-- PLACEMENT_END (R144). -/
def execPlacementEnd (k : SlotId) (s : State) : Host.Outcome State Fault Refusal :=
  s.event fun d => settle (placeGrain k d)

/-- TRANSMISSION_END (R145). -/
def execTransmissionEnd (s : State) : Host.Outcome State Fault Refusal :=
  s.event fun d => settle d.endTransmission

/-- BATCH_IDLE_CLOSE (R147). -/
def execBatchIdleClose (s : State) : Host.Outcome State Fault Refusal :=
  s.event fun d => settle d.idleClose

/-- ACK_TIMEOUT (R149). -/
def execAckTimeout (q : Nat) (s : State) : Host.Outcome State Fault Refusal :=
  s.event fun d => settle (d.ackExpiry q)

/-- SWEEP_END (R151). -/
def execSweepEnd (s : State) : Host.Outcome State Fault Refusal :=
  s.event fun d => settle (endSweep d)

/-- DRAIN_END (R151). -/
def execDrainEnd (s : State) : Host.Outcome State Fault Refusal :=
  s.event fun d => settle d.drainEnd

/-- PASS_END_TIMEOUT (R152). -/
def execPassEndTimeout (s : State) : Host.Outcome State Fault Refusal :=
  s.event fun d => settle d.passEndExpiry

end Sys2Proof.Machine
end

