-- ==== Sys2Proof/Machine/PeerEvents.lean ====
section
/-! DEFINITION. The offsite port: the peer's frames, the line and the silence timer (R148 to R157). -/

namespace Sys2Proof.Machine

/-- The moment the silence timer expires when it starts now (R156). -/
def Device.silenceFrom (d : Device) : Nat := d.clock.now + Config.silenceLimit

/-- R156: a PEER STATUS is taken. -/
def Device.peerStatus (d : Device) (ready : Bool) : Effect :=
  match d.dup.link, ready with
  | .down, _ => (d, [])
  | .up, true => (d.setOffsite (.ready d.silenceFrom), [.transmit])
  | .up, false => (d, [])
  | .ready _, true => (d.setOffsite (.ready d.silenceFrom), [])
  | .ready _, false => (d.losePeer .up .notReady, [])

/-- The batches after the one of this sequence (R148). -/
def batchesAfter (q : Nat) (bs : List Batch) : List Batch := (bs.dropWhile fun b => b.sequence ≠ q).tail

/-- R148: an ACK. -/
def Device.takeAck (d : Device) (q : Nat) : Effect :=
  if d.dup.link.isReady then
    match d.batch? q with
    | some b =>
      if b.state = .shut then
        ({ d with dup.batches := batchesAfter q d.dup.batches }, [.passCheck, .transmit])
      else (d, [])
    | none => (d, [])
  else (d, [])

/-- R149: a REFUSE. -/
def Device.takeRefuse (d : Device) (q : Nat) (r : RefuseReason) : Effect :=
  if d.dup.link.isReady ∧ (d.batch? q).isSome then
    match r with
    | .full => (d, [.passEnd .failed (some .full)])
    | .noTarget => (d, [.passEnd .failed (some .noTarget)])
    | .data => goBack q d
    | .order => goBack q d
  else (d, [])

/-- R154 steps 1 and 2: the anchor and the enrolment of a volume whose pass is DONE with snapshot n. -/
def Volume.confirmed (x : Volume) (n : Nat) : Volume :=
  { x with anchor := n, enrolment := if x.enrolment = .once then .none else x.enrolment }

/-- R154 steps 1 to 3: the pass of p is DONE with snapshot n. -/
def Device.confirmPass (d : Device) (p : Pass) (n : Nat) : Device :=
  let once : Bool := match d.volume? p.volume with
    | some x => decide (x.enrolment = .once)
    | none => false
  let d := d.onVolume p.volume fun x => x.confirmed n
  let d := if once then { d with dup.queue := d.dup.queue.filter fun e => e.volume ≠ p.volume } else d
  d.notify .passEnd (.volume p.volume) (.number n)

/-- R152, R154: a PASS ACK; the common end of R153 comes before the retirements of step 5. -/
def Device.takePassAck (d : Device) (target n : Nat) : Effect :=
  match d.dup.pass with
  | some p =>
    if d.dup.link.isReady ∧ p.state = .closing ∧ p.target = target ∧ p.snapshot = some n then
      (d.confirmPass p n, [.passEnd .done none, .retireOlder p.volume n])
    else (d, [])
  | none => (d, [])

/-- R157: an ATTENTION from the peer. -/
def Device.takeAttention (d : Device) (code : Nat) : Device :=
  if d.dup.link = .down then d else d.notify .peerAttention .absent (.code code)

/-- R156: the offsite line reports the link lost. -/
def Device.loseOffsite (d : Device) : Device :=
  if d.dup.link.isReady then d.losePeer .down .link else d.setOffsite .down

/-- R156: the silence timer expires. -/
def Device.silence (d : Device) : Device :=
  match d.dup.link with
  | .ready ends => (d.reach ends).losePeer .up .silence
  | _ => d

/-- PEER_STATUS (R156). -/
def execPeerStatus (ready : Bool) (s : State) : Host.Outcome State Fault Refusal :=
  s.event fun d => settle (d.peerStatus ready)

/-- ACK (R148). -/
def execAck (q : Nat) (s : State) : Host.Outcome State Fault Refusal :=
  s.event fun d => settle (d.takeAck q)

/-- REFUSE (R149). -/
def execRefuse (q : Nat) (r : RefuseReason) (s : State) : Host.Outcome State Fault Refusal :=
  s.event fun d => settle (d.takeRefuse q r)

/-- PASS_ACK (R152, R154). -/
def execPassAck (target n : Nat) (s : State) : Host.Outcome State Fault Refusal :=
  s.event fun d => settle (d.takePassAck target n)

/-- ATTENTION_FROM_PEER (R157). -/
def execAttentionFromPeer (code : Nat) (s : State) : Host.Outcome State Fault Refusal :=
  s.event fun d => d.takeAttention code

/-- UNREADABLE_PEER_FRAME (R157, R187): discarded; the silence timer is not restarted. -/
def execUnreadablePeerFrame (_bytes : List Byte) (s : State) : Host.Outcome State Fault Refusal :=
  s.event fun d => d

/-- OFFSITE_LINK_UP (R156). -/
def execOffsiteLinkUp (s : State) : Host.Outcome State Fault Refusal :=
  s.event fun d => if d.dup.link = .down then d.setOffsite .up else d

/-- OFFSITE_LINK_DOWN (R156). -/
def execOffsiteLinkDown (s : State) : Host.Outcome State Fault Refusal :=
  s.event fun d => d.loseOffsite

/-- SILENCE_TIMEOUT (R156). -/
def execSilenceTimeout (s : State) : Host.Outcome State Fault Refusal :=
  s.event fun d => d.silence

end Sys2Proof.Machine
end

