-- ==== Sys2Proof/Machine/PortCommands.lean ====
section
/-! DEFINITION. IDENTIFY and the commands of the oversight unit (R163, R164, R168 to R171, R176). -/

namespace Sys2Proof.Machine

/-- A port number of a command's arguments. -/
def toPort (n : Nat) : Option PortId := if h : n < 4 then some ⟨n, h⟩ else none

/-- R163: KEEPALIVE loads the issuing port's counter. -/
def Device.keepalive (d : Device) (p : PortId) (tag : Nat) : Device :=
  let x := (d.port p).load
  (d.setPort p x).reply p tag .ok none [.num 1 p.val, .num 2 x.reload, .num 1 x.counter]

/-- R170: the named port is the one MANAGER port. -/
def Device.soleManager (d : Device) (n : PortId) : Bool :=
  (d.port n).role = .manager && ((d.ports.toList.filter fun x => x.role = .manager).length = 1)

/-- R170: role and reload are stored; a changed reload loads the counter. -/
def Port.stored (x : Port) (role : Role) (reload : Nat) : Port :=
  if reload = x.reload then { x with role := role } else { x with role := role, reload := reload, counter := reload }

/-- R170: PORT SET. -/
def Device.portSet (d : Device) (p : PortId) (tag : Nat) : List Arg → Device
  | [.num n, .text r, .num reload] =>
    match toPort n, readRole r with
    | some n, some role =>
      if reload > 255 then d.deny p tag .badArgument
      else if role = .data ∧ d.soleManager n then d.deny p tag .conflict
      else
        let d := d.setPort n ((d.port n).stored role reload)
        d.reply p tag .ok none (d.portRecord n)
    | _, _ => d.deny p tag .badArgument
  | _ => d.deny p tag .malformed

/-- R171: PORT READ. The four port records carry no count byte: the model takes a fixed number of records to be no list
of R186 (DESIGN CHOICE, entry 18). -/
def Device.portRead (d : Device) (p : PortId) (tag : Nat) : Device :=
  d.reply p tag .ok none (fields ((List.finRange 4).map d.portItems))

/-- The fence and reason of a port, as FENCE answers them (R164). -/
def Device.fenceItems (d : Device) (n : PortId) : List Item :=
  fields [[.name (fenceName (d.port n).fence)], Item.optName ((d.port n).fence.map FenceReason.name)]

/-- R164: FENCE. -/
def Device.fenceCommand (d : Device) (p : PortId) (tag : Nat) : List Arg → Effect
  | [.num n] =>
    match toPort n with
    | none => d.denyEffect p tag .badArgument
    | some n =>
      if n = p then d.denyEffect p tag .conflict
      else if (d.port n).fenced then (d.reply p tag .ok none (d.fenceItems n), [])
      else
        let (d, more) := d.fencePort n .command
        (d.reply p tag .ok none (d.fenceItems n), more)
  | _ => d.denyEffect p tag .malformed

/-- R168: a FENCED port becomes CLEAR and its counter is loaded; a CLEAR one is left as it stands. -/
def Port.cleared (x : Port) : Port :=
  if x.fenced then { x with fence := none, counter := x.reload } else x

/-- R168, R169: UNFENCE. -/
def Device.unfenceCommand (d : Device) (p : PortId) (tag : Nat) : List Arg → Device
  | [.num n] =>
    match toPort n with
    | none => d.deny p tag .badArgument
    | some n =>
      if n = p ∧ (d.port p).fenced ∧ d.mayUnfenceSelf p = false then d.deny p tag .fenced
      else
        let x := (d.port n).cleared
        (d.setPort n x).reply p tag .ok none [.name (fenceName x.fence), .num 1 x.counter]
  | _ => d.deny p tag .malformed

/-- IDENTIFY (R176). -/
def execIdentify (p : PortId) (tag : Nat) (s : State) : Host.Outcome State Fault Refusal :=
  s.event fun d => d.takeNow p tag .identify fun d _ => d.reply p tag .ok none (d.identifyItems p)

/-- KEEPALIVE (R163). -/
def execKeepalive (p : PortId) (tag : Nat) (s : State) : Host.Outcome State Fault Refusal :=
  s.event fun d => d.takeNow p tag .keepalive fun d _ => d.keepalive p tag

/-- PORT_SET (R170). -/
def execPortSet (p : PortId) (tag : Nat) (s : State) : Host.Outcome State Fault Refusal :=
  s.event fun d => d.takeNow p tag .portSet fun d args => d.portSet p tag args

/-- PORT_READ (R171). -/
def execPortRead (p : PortId) (tag : Nat) (s : State) : Host.Outcome State Fault Refusal :=
  s.event fun d => d.takeNow p tag .portRead fun d _ => d.portRead p tag

/-- FENCE (R164). -/
def execFence (p : PortId) (tag : Nat) (s : State) : Host.Outcome State Fault Refusal :=
  s.event fun d => d.takeThen p tag .fence fun d args => d.fenceCommand p tag args

/-- UNFENCE (R168, R169). -/
def execUnfence (p : PortId) (tag : Nat) (s : State) : Host.Outcome State Fault Refusal :=
  s.event fun d => d.takeNow p tag .unfence fun d args => d.unfenceCommand p tag args

end Sys2Proof.Machine
end

