-- ==== Sys2Proof/Machine/QuotaCommands.lean ====
section
/-! DEFINITION. The commands of the admission unit (R37 to R42). -/

namespace Sys2Proof.Machine

/-- R37: ACCOUNT LOAD; the usage is carried when its presence byte is not 0 (R186). -/
def Device.accountLoad (d : Device) (p : PortId) (tag : Nat) : List Arg → Device
  | [.num a, .num soft, .num hard, .num grace, .num group, .num present, .num usage] =>
    if group > 1023 then d.deny p tag .badArgument
    else
      let d := d.loadAccount a soft hard grace group (if present = 0 then none else some usage)
      d.reply p tag .ok none (d.account a).loadItems
  | _ => d.deny p tag .malformed

/-- R42: ACCOUNT READ. -/
def Device.accountRead (d : Device) (p : PortId) (tag : Nat) : List Arg → Device
  | [.num a] =>
    if a > 65535 then d.deny p tag .badArgument else d.reply p tag .ok none (d.account a).readItems
  | _ => d.deny p tag .malformed

/-- R41, R186: a GROUP LOAD is refused. -/
def badGroupLoad (g limit : Nat) : Bool := g > 1023 || limit > Config.groupMax || (g = 0 && limit > 0)

/-- R41: the group's limit is set and its full notice looked at (R35). -/
def Device.loadGroup (d : Device) (g limit : Nat) : Device :=
  (d.setGroup g { d.group g with limit := limit }).rearmGroup g

/-- R41: GROUP LOAD. -/
def Device.groupLoad (d : Device) (p : PortId) (tag : Nat) : List Arg → Device
  | [.num g, .num limit] =>
    if badGroupLoad g limit then d.deny p tag .badArgument
    else
      let d := d.loadGroup g limit
      d.reply p tag .ok none (d.group g).items
  | _ => d.deny p tag .malformed

/-- R42: GROUP READ. -/
def Device.groupRead (d : Device) (p : PortId) (tag : Nat) : List Arg → Device
  | [.num g] => if g > 1023 then d.deny p tag .badArgument else d.reply p tag .ok none (d.group g).items
  | _ => d.deny p tag .malformed

/-- ACCOUNT_LOAD (R37). -/
def execAccountLoad (p : PortId) (tag : Nat) (s : State) : Host.Outcome State Fault Refusal :=
  s.event fun d => d.takeNow p tag .accountLoad fun d args => d.accountLoad p tag args

/-- ACCOUNT_READ (R42). -/
def execAccountRead (p : PortId) (tag : Nat) (s : State) : Host.Outcome State Fault Refusal :=
  s.event fun d => d.takeNow p tag .accountRead fun d args => d.accountRead p tag args

/-- GROUP_LOAD (R41). -/
def execGroupLoad (p : PortId) (tag : Nat) (s : State) : Host.Outcome State Fault Refusal :=
  s.event fun d => d.takeNow p tag .groupLoad fun d args => d.groupLoad p tag args

/-- GROUP_READ (R42). -/
def execGroupRead (p : PortId) (tag : Nat) (s : State) : Host.Outcome State Fault Refusal :=
  s.event fun d => d.takeNow p tag .groupRead fun d args => d.groupRead p tag args

end Sys2Proof.Machine
end

