-- ==== Sys2Proof/Machine/RestoreCommands.lean ====
section
/-! DEFINITION. RESTORE, RESTORE STATUS and RESTORE CANCEL (R121, R122, R130, R131). -/

namespace Sys2Proof.Machine

/-- The arguments of a RESTORE (R186). -/
structure RestoreArgs where
  source : Nat
  snapshot : Nat
  account : Nat
  extents : List Extent
deriving DecidableEq, Repr

/-- R186: three fixed arguments of 7 bytes, then the extent list. -/
def readRestore (area : List Byte) : Option RestoreArgs :=
  match readArgs CommandName.restore.shape (area.take 7), readExtents (area.drop 7) with
  | some [.num v, .num k, .num a], some es => some { source := v, snapshot := k, account := a, extents := es }
  | _, _ => none

/-- The state of a volume as a restore's checks see it (R121): NOT_FOUND or BUSY with its reason. -/
def Device.restoreVolume (d : Device) (v : Nat) : Option (MgmtStatus × Option MgmtReason) :=
  match d.volume? v with
  | none => some (.notFound, some .noVolume)
  | some x =>
    match x.state with
    | .removing => some (.notFound, some .noVolume)
    | .preparing => some (.busy, some .notReady)
    | .ready => none

/-- The capacity of a volume, 0 while UNDEFINED. -/
def Device.capacityOf (d : Device) (v : Nat) : Nat := ((d.volume? v).map Volume.capacity).getD 0

/-- R121 check 6: an extent runs past its source or its destination volume. -/
def Device.extentOutside (d : Device) (source : Nat) (e : Extent) : Bool :=
  e.source + e.count > d.capacityOf source || e.dest + e.count > d.capacityOf e.destVolume

/-- R121 check 7: snapshot k of the volume is in its list and ACTIVE. -/
def Device.hasActive (d : Device) (v k : Nat) : Bool :=
  match d.volume? v with
  | some x => x.snapshots.any fun s => s.number = k && s.state = .active
  | none => false

/-- The table holds 24 records, none of them ENDED (R121 check 8). -/
def Device.restoresFull (d : Device) : Bool :=
  d.copy.restores.length ≥ Config.restoreRecords && (d.copy.restores.any fun x => x.state = .ended) = false

/-- R121 checks 4 and 5: the destinations; a volume that is UNDEFINED or REMOVING goes before one PREPARING. -/
def Device.destRefusal (d : Device) (es : List Extent) : Option (MgmtStatus × Option MgmtReason) :=
  let rs := es.filterMap fun e => d.restoreVolume e.destVolume
  match rs.find? fun r => r.1 = .notFound with
  | some r => some r
  | none => rs.head?

/-- R121: the first check of a RESTORE that fails. -/
def Device.restoreRefusal (d : Device) (a : RestoreArgs) : Option (MgmtStatus × Option MgmtReason) :=
  if badVolume a.source ∨ a.extents = [] ∨ a.extents.length > 32
      ∨ (a.extents.any fun e => badVolume e.destVolume || e.count = 0) then some (.badArgument, none)
  else
    match d.restoreVolume a.source with
    | some r => some r
    | none =>
      match d.destRefusal a.extents with
      | some r => some r
      | none =>
        if a.extents.any fun e => d.extentOutside a.source e then some (.badArgument, some .range)
        else if d.hasActive a.source a.snapshot = false then some (.notFound, some .snapshot)
        else if d.restoresFull then some (.full, none)
        else none

/-- R122: the record that ended first is evicted when the table holds 24. -/
def Device.evictRestore (d : Device) : Device :=
  if d.copy.restores.length ≥ Config.restoreRecords then
    match d.copy.endedOrder with
    | id :: rest =>
      { d with copy.restores := d.copy.restores.filter (fun x => x.id ≠ id), copy.endedOrder := rest }
    | [] => d
  else d

/-- The id after this one, round from 65,535 to 1 (R122). -/
def idAfter (id : Nat) : Nat := if id ≥ 65535 then 1 else id + 1

/-- R122: the next id after the one given that no record holds, looked for n times at most. -/
def nextId (used : List Nat) : Nat → Nat → Nat
  | 0, id => idAfter id
  | n + 1, id => if idAfter id ∈ used then nextId used n (idAfter id) else idAfter id

/-- R120: the record of an accepted restore. -/
def RestoreArgs.record (a : RestoreArgs) (id : Nat) : Restore :=
  { id := id, state := .queued, cancel := false, source := a.source, snapshot := a.snapshot, account := a.account
    extents := a.extents, current := none, cursor := none, inFlight := 0, copied := 0, unwritten := 0
    alreadyCurrent := 0, outcomes := a.extents.map fun _ => .pending, outcome := none, reason := none }

/-- R122: an accepted RESTORE. -/
def Device.acceptRestore (d : Device) (p : PortId) (tag : Nat) (a : RestoreArgs) : Effect :=
  let d := d.evictRestore
  let id := nextId (d.copy.restores.map Restore.id) Config.restoreRecords d.copy.lastId
  let d := { d with copy.restores := d.copy.restores ++ [a.record id], copy.lastId := id }
  (d.pin a.source a.snapshot, [.promote, .replyRestore p tag id])

/-- R121, R122: RESTORE. -/
def Device.restoreCommand (d : Device) (p : PortId) (tag : Nat) (a : RestoreArgs) : Effect :=
  match d.restoreRefusal a with
  | some r => (d.reply p tag r.1 r.2 [], [])
  | none => d.acceptRestore p tag a

/-- R131: RESTORE STATUS. -/
def Device.restoreStatus (d : Device) (p : PortId) (tag : Nat) : List Arg → Device
  | [.num id] =>
    match d.restore? id with
    | some x => d.reply p tag .ok none x.items
    | none => d.deny p tag .notFound
  | _ => d.deny p tag .malformed

/-- R130: a slot of the restore that waits to make its write again is dropped. -/
def Device.dropRetry (d : Device) (id : Nat) (k : SlotId) : Device :=
  match d.slot? k with
  | some s =>
    match s.phase with
    | .writing _ (some _) =>
      if s.stream = .restore id then
        (d.setSlot k none).onRestore id fun x => { x with inFlight := x.inFlight - 1 }
      else d
    | _ => d
  | none => d

/-- R130: a QUEUED restore is cancelled and ends at once. -/
def Device.cancelQueued (d : Device) (x : Restore) : Device :=
  let d := d.onRestore x.id fun x => { x with outcomes := x.outcomes.map fun _ => .notRun }
  let d := d.endRestore x .cancelled (some .command)
  d.notifyRestoreEnd x.id .cancelled (some .command)

/-- R130: a RUNNING restore is marked, and its slots that wait to retry are dropped. -/
def Device.cancelRunning (d : Device) (x : Restore) : Device :=
  let d := d.onRestore x.id fun x => { x with cancel := true }
  (List.finRange 16).foldl (fun d k => d.dropRetry x.id k) d

/-- R130: RESTORE CANCEL; it is answered with the record at the end of the event. -/
def Device.restoreCancel (d : Device) (p : PortId) (tag : Nat) : List Arg → Effect
  | [.num id] =>
    match d.restore? id with
    | none => d.denyEffect p tag .notFound
    | some x =>
      match x.state with
      | .ended => d.denyEffect p tag .conflict
      | .queued => (d.cancelQueued x, [.replyCancel p tag id])
      | .running =>
        if x.cancel then (d, [.replyCancel p tag id])
        else (d.cancelRunning x, [.extentCheck id, .grant, .replyCancel p tag id])
  | _ => d.denyEffect p tag .malformed

/-- RESTORE (R121, R122). -/
def execRestore (p : PortId) (tag : Nat) (s : State) : Host.Outcome State Fault Refusal :=
  s.event fun d =>
    settle (d.take p tag .restore readRestore (fun d => (d, [])) fun d a => d.restoreCommand p tag a)

/-- RESTORE_STATUS (R131). -/
def execRestoreStatus (p : PortId) (tag : Nat) (s : State) : Host.Outcome State Fault Refusal :=
  s.event fun d => d.takeNow p tag .restoreStatus fun d args => d.restoreStatus p tag args

/-- RESTORE_CANCEL (R130). -/
def execRestoreCancel (p : PortId) (tag : Nat) (s : State) : Host.Outcome State Fault Refusal :=
  s.event fun d => d.takeThen p tag .restoreCancel fun d args => d.restoreCancel p tag args

end Sys2Proof.Machine
end

