-- ==== Sys2Proof/Machine/ServerFrames.lean ====
section
/-! DEFINITION. What arrives on a server port: acceptance (R1 to R8, R31, R185), and the port's link
(R1, R163, R167). -/

namespace Sys2Proof

/-! ### The header's fields -/

/-- R185: the header of a frame of so many bytes at least. -/
def Header.unreadable (h : Header) (least : Nat) : Bool := h.length ≠ h.delivered || h.delivered < least

/-- R3: the fields READ, WRITE and RELEASE share. -/
def Header.badAddress (h : Header) : Bool := h.tag > 31 || h.volume = 0 || h.volume > 64

/-- R3: the block count of a READ or WRITE. -/
def Header.badBlocks (h : Header) : Bool := h.blocks = 0 || h.blocks > 256

/-- R3, R185: a READ is MALFORMED. -/
def Header.badRead (h : Header) : Bool := h.unreadable 24 || h.badAddress || h.badBlocks

/-- R3, R185: a WRITE is MALFORMED. -/
def Header.badWrite (h : Header) (payload : List Byte) : Bool :=
  h.unreadable 24 || h.badAddress || h.badBlocks || h.declared > 33 || payload.length ≠ h.blocks * Config.blockBytes

/-- R3, R185: a RELEASE is MALFORMED. -/
def Header.badRelease (h : Header) : Bool := h.unreadable 24 || h.badAddress || h.released = 0

/-- R3, R185: a MGMT frame is MALFORMED. -/
def Header.badMgmt (h : Header) : Bool := h.unreadable 40 || h.tag > 31 || h.volume ≠ 0

/-- The job of an accepted READ or WRITE. -/
def Header.job (h : Header) (payload : List Byte) (stage : Machine.Stage) : Machine.Job :=
  { volume := h.volume, account := h.account, first := h.first, blocks := h.blocks, declared := h.declared
    payload := payload, stage := stage, charge := none, epoch := none, waits := [] }

end Sys2Proof

namespace Sys2Proof.Machine

/-! ### Acceptance -/

/-- R4 checks 5 to 7: the volume a READ or WRITE names. -/
def volumeRefusal (x : Option Volume) (h : Header) : Option Status :=
  match x with
  | none => some .noVolume
  | some x =>
    match x.state with
    | .removing => some .noVolume
    | .preparing => some .notReady
    | .ready => if h.first + h.blocks > x.capacity * 8 then some .outOfRange else none

/-- R4 checks 1 to 3. -/
def Device.portRefusal (d : Device) (p : PortId) (h : Header) (bad : Bool) : Option Status :=
  if bad then some .malformed
  else if (d.txn? p h.tag).isSome then some .tagBusy
  else if (d.port p).fenced then some .fenced
  else none

/-- R4 checks 1 to 7, for READ and WRITE. -/
def Device.dataRefusal (d : Device) (p : PortId) (h : Header) (bad : Bool) : Option Status :=
  match d.portRefusal p h bad with
  | some r => some r
  | none => if d.pool.link = .down then some .poolDown else volumeRefusal (d.volume? h.volume) h

/-- R2: an accepted frame takes its tag. -/
def Device.openTxn (d : Device) (p : PortId) (h : Header) (kind : Kind) (payload : List Byte) (stage : Stage)
    (command : Option Command) : Device :=
  d.setTxn p h.tag { kind := kind, owed := true, job := h.job payload stage, command := command }

/-- R7: an accepted READ goes straight into the pool request queue. -/
def Device.acceptRead (d : Device) (p : PortId) (h : Header) : Device :=
  (d.openTxn p h .read [] .queued none).joinPool
    { requester := .server p h.tag, op := d.jobOp (h.job [] .queued) true }

/-- R8: an accepted WRITE enters the server write path. -/
def Device.acceptWrite (d : Device) (p : PortId) (h : Header) (payload : List Byte) : Effect :=
  enterWritePath (.server p h.tag) h.volume (d.openTxn p h .write payload .admitting none)

/-- R2, R31: an accepted RELEASE takes its tag, is settled and ends at once. -/
def Device.acceptRelease (d : Device) (p : PortId) (h : Header) : Device :=
  ((d.openTxn p h .release [] .admitting none).releaseGrains h.account h.released).endTxn p h.tag .ok
    (d.removedCount h.account h.released) []

/-- R5: the command a FENCED port's frame may still bring: IDENTIFY, or an UNFENCE of its own port under the
last-manager rule (R169). -/
def Device.passesFence (d : Device) (p : PortId) (c : Command) : Bool :=
  c.isNamed .identify
    || (c.isNamed .unfence && c.area = leBytes 1 p.val && d.mayUnfenceSelf p)

/-- R5: the refusal of a MGMT frame at acceptance. -/
def Device.mgmtRefusal (d : Device) (p : PortId) (h : Header) (c : Command) : Option MgmtStatus :=
  if h.badMgmt then some .malformed
  else if (d.txn? p h.tag).isSome then some .busy
  else if (d.port p).fenced && !(d.passesFence p c) then some .fenced
  else none

/-- Frames arrive only on an UP port (R1). -/
def Device.onUpPort (d : Device) (p : PortId) (f : Device) : Device :=
  if (d.port p).link = .up then f else d

/-! ### Frames -/

/-- READ (R4, R7). -/
def execRead (p : PortId) (h : Header) (s : State) : Host.Outcome State Fault Refusal :=
  s.event fun d => d.onUpPort p
    (match d.dataRefusal p h h.badRead with
     | some r => d.refuse p Kind.read.code h.tag r
     | none => d.acceptRead p h)

/-- WRITE (R4, R8). -/
def execWrite (p : PortId) (h : Header) (payload : List Byte) (s : State) : Host.Outcome State Fault Refusal :=
  s.event fun d => d.onUpPort p
    (match d.dataRefusal p h (h.badWrite payload) with
     | some r => d.refuse p Kind.write.code h.tag r
     | none => settle (d.acceptWrite p h payload))

/-- RELEASE (R4, R31). -/
def execRelease (p : PortId) (h : Header) (s : State) : Host.Outcome State Fault Refusal :=
  s.event fun d => d.onUpPort p
    (match d.portRefusal p h h.badRelease with
     | some r => d.refuse p Kind.release.code h.tag r
     | none => d.acceptRelease p h)

/-- MGMT_FRAME (R5). -/
def execMgmtFrame (p : PortId) (h : Header) (name area : List Byte) (s : State) :
    Host.Outcome State Fault Refusal :=
  s.event fun d => d.onUpPort p
    (let c : Command := { name := name, area := area }
     match d.mgmtRefusal p h c with
     | some r => d.refuseMgmt p h.tag r
     | none => d.openTxn p h .mgmt [] .command (some c))

/-- RUNT_FRAME (R185): no tag, no answer, no effect. -/
def execRuntFrame (_p : PortId) (_bytes : List Byte) (s : State) : Host.Outcome State Fault Refusal :=
  s.event fun d => d

/-- MALFORMED_FRAME (R185): a kind byte that is none of the four; answered with a completion that repeats the kind and
tag bytes. -/
def execMalformedFrame (p : PortId) (kind tag : Byte) (s : State) : Host.Outcome State Fault Refusal :=
  s.event fun d => d.onUpPort p (d.refuse p kind tag.toNat .malformed)

/-! ### Links -/

/-- SERVER_LINK_UP (R1, R163): the port goes UP, its tags stand, its counter is loaded. -/
def execServerLinkUp (p : PortId) (s : State) : Host.Outcome State Fault Refusal :=
  s.event fun d =>
    if (d.port p).link = .down then d.setPort p { (d.port p) with link := .up, counter := (d.port p).reload } else d

/-- SERVER_LINK_DOWN (R1, R167): the port goes DOWN, its counter stops, its unforwarded work is discarded. -/
def execServerLinkDown (p : PortId) (s : State) : Host.Outcome State Fault Refusal :=
  s.event fun d =>
    if (d.port p).link = .up then settle ((d.setPort p { d.port p with link := .down }).discardPort p) else d

end Sys2Proof.Machine
end

