-- ==== Sys2Proof/Machine/SnapshotCommands.lean ====
section
/-! DEFINITION. CUT, RETIRE and SNAPSHOT LIST (R99, R100, R107, R113). -/

namespace Sys2Proof.Machine

/-- How a refused CUT is told (R99). -/
def CutRefusal.status : CutRefusal → MgmtStatus
  | .busy => .busy
  | .exhausted => .exhausted
  | .full => .full

/-- R99 checks 1 and 2 of a CUT. -/
def Device.cutArgsRefusal (d : Device) (v drain : Nat) : Option MgmtStatus :=
  if badVolume v ∨ drain > 255 then some .badArgument
  else
    match d.volume? v with
    | none => some .notFound
    | some x => if x.state = .removing then some .notFound else none

/-- R99, R100: CUT; it is answered when the cut completes or is abandoned. -/
def Device.cutCommand (d : Device) (p : PortId) (tag : Nat) : List Arg → Effect
  | [.num v, .num drain] =>
    match d.cutArgsRefusal v drain with
    | some r => d.denyEffect p tag r
    | none =>
      match d.askCut v .manual (.command { port := p, tag := tag }) (if drain = 0 then Config.defaultDrain else drain) with
      | .inl r => d.denyEffect p tag r.status
      | .inr e => e
  | _ => d.denyEffect p tag .malformed

/-- R107: the first check of a RETIRE that fails. -/
def Device.retireRefusal (d : Device) (v k : Nat) : Option MgmtStatus :=
  if badVolume v then some .badArgument
  else
    match d.volume? v with
    | none => some .notFound
    | some x =>
      if x.state ≠ .ready then some .notFound
      else
        match x.snapshots.find? fun s => s.number = k with
        | none => some .notFound
        | some s =>
          if s.state = .retiring then some .busy
          else if s.pins > 0 then some .conflict
          else none

/-- R107: RETIRE; it is answered when the record leaves the list. -/
def Device.retireCommand (d : Device) (p : PortId) (tag : Nat) : List Arg → Device
  | [.num v, .num k] =>
    match d.retireRefusal v k with
    | some r => d.deny p tag r
    | none => d.startRetirement v k (some { port := p, tag := tag })
  | _ => d.deny p tag .malformed

/-- R113: SNAPSHOT LIST. -/
def Device.snapshotList (d : Device) (p : PortId) (tag : Nat) : List Arg → Device
  | [.num v] => if badVolume v then d.deny p tag .badArgument else d.reply p tag .ok none (d.snapshotListItems v)
  | _ => d.deny p tag .malformed

/-- CUT (R99, R100). -/
def execCut (p : PortId) (tag : Nat) (s : State) : Host.Outcome State Fault Refusal :=
  s.event fun d => d.takeThen p tag .cut fun d args => d.cutCommand p tag args

/-- RETIRE (R107). -/
def execRetire (p : PortId) (tag : Nat) (s : State) : Host.Outcome State Fault Refusal :=
  s.event fun d => d.takeNow p tag .retire fun d args => d.retireCommand p tag args

/-- SNAPSHOT_LIST (R113). -/
def execSnapshotList (p : PortId) (tag : Nat) (s : State) : Host.Outcome State Fault Refusal :=
  s.event fun d => d.takeNow p tag .snapshotList fun d args => d.snapshotList p tag args

end Sys2Proof.Machine
end

