-- ==== Sys2Proof/Machine/VolumeCommands.lean ====
section
/-! DEFINITION. The commands of the volume unit (R60, R62, R63, R70, R72, R74). -/

namespace Sys2Proof.Machine

/-- R60: PRESERVE AREA. -/
def Device.preserveArea (d : Device) (p : PortId) (tag : Nat) : List Arg → Device
  | [.num base, .num n] =>
    if n = 0 ∨ n > Config.maxSlots ∨ base + 8 * n - 1 > Config.poolMax then d.deny p tag .badArgument
    else if d.volumes ≠ [] then d.deny p tag .conflict
    else
      { d with area := some { base := base, slots := n }, pres.free := List.range n }.reply p tag .ok none
        [.num 8 base, .num 4 n]
  | _ => d.deny p tag .malformed

/-- Two runs of blocks share a block. -/
def overlaps (a n b m : Nat) : Bool := a < b + m && b < a + n

/-- R61: the total capacity of the defined volumes. -/
def Device.totalCapacity (d : Device) : Nat := (d.volumes.map fun e => e.2.capacity).sum

/-- R61: the total of the reserve limits of the defined volumes. -/
def Device.totalReserve (d : Device) : Nat := (d.volumes.map fun e => e.2.reserve).sum

/-- R62: the first check of a VOLUME DEFINE that fails. -/
def Device.defineRefusal (d : Device) (v base capacity reserve : Nat) : Option MgmtStatus :=
  if badVolume v ∨ capacity = 0 ∨ capacity > Config.totalGrains ∨ reserve > Config.maxSlots
      ∨ base + 8 * capacity - 1 > Config.poolMax then some .badArgument
  else if (d.volume? v).isSome then some .conflict
  else
    match d.area with
    | none => some .conflict
    | some a =>
      if overlaps base (8 * capacity) a.base (8 * a.slots)
          ∨ (d.volumes.any fun e => overlaps base (8 * capacity) e.2.base (8 * e.2.capacity)) then some .conflict
      else if d.totalCapacity + capacity > Config.totalGrains then some .full
      else if d.totalReserve + reserve > a.slots then some .full
      else none

/-- R61, R63: the record of a volume at an accepted VOLUME DEFINE. -/
def Volume.defined (base capacity reserve : Nat) (import' anchorGiven : Bool) (txn : TxnRef) : Volume :=
  { state := .preparing, base := base, capacity := capacity, epoch := 2, reserve := reserve, slotsHeld := 0
    reserveArmed := true, cut := none, inFlight := 0, retention := 0, enrolment := .none, target := none
    anchor := if anchorGiven then 1 else 0, report := none, fill := if import' then 1 else 0, grains := []
    snapshots := [], slotWait := [], sweeps := [], sweepAt := none, sweepFreed := 0, answers := some txn }

/-- R62, R63: VOLUME DEFINE; it is answered when the volume becomes READY. -/
def Device.volumeDefine (d : Device) (p : PortId) (tag : Nat) : List Arg → Device
  | [.num v, .num base, .num capacity, .num reserve, .num import', .num anchor] =>
    match d.defineRefusal v base capacity reserve with
    | some r => d.deny p tag r
    | none =>
      d.setVolume v (Volume.defined base capacity reserve (import' ≠ 0) (anchor ≠ 0) { port := p, tag := tag })
  | _ => d.deny p tag .malformed

/-- R74: VOLUME READ. -/
def Device.volumeRead (d : Device) (p : PortId) (tag : Nat) : List Arg → Device
  | [.num v] => if badVolume v then d.deny p tag .badArgument else d.reply p tag .ok none (d.volumeReadItems v)
  | _ => d.deny p tag .malformed

/-- R72 check 4: the volume has a duplication queue entry, is the running pass's, or is a QUEUED or RUNNING restore's
destination. -/
def Device.volumeWanted (d : Device) (v : Nat) : Bool :=
  (d.dup.queue.any fun e => e.volume = v)
    || (match d.dup.pass with
        | some p => p.volume = v
        | none => false)
    || d.copy.restores.any fun x => x.state ≠ .ended && x.extents.any fun e => e.destVolume = v

/-- R72: the first check of a VOLUME REMOVE that fails. -/
def Device.removeRefusal (d : Device) (v : Nat) : Option MgmtStatus :=
  if badVolume v then some .badArgument
  else
    match d.volume? v with
    | none => some .notFound
    | some x =>
      if x.state ≠ .ready ∨ x.cutting then some .busy
      else if (x.snapshots.any fun s => s.pins > 0) ∨ d.volumeWanted v then some .conflict
      else none

/-- R72: VOLUME REMOVE; it is answered when the removal has ended. -/
def Device.volumeRemove (d : Device) (p : PortId) (tag : Nat) : List Arg → Effect
  | [.num v] =>
    match d.removeRefusal v with
    | some r => d.denyEffect p tag r
    | none =>
      (d.onVolume v fun x => { x with state := .removing, answers := some { port := p, tag := tag } }
        , [.volumeCheck v])
  | _ => d.denyEffect p tag .malformed

/-- R70: the first check of a RESERVE SET that fails. -/
def Device.reserveRefusal (d : Device) (v limit retention : Nat) : Option MgmtStatus :=
  if badVolume v ∨ limit > Config.maxSlots ∨ retention > 15 then some .badArgument
  else
    match d.volume? v with
    | none => some .notFound
    | some x =>
      if x.state = .removing then some .notFound
      else if limit < x.slotsHeld then some .conflict
      else if d.totalReserve - x.reserve + limit > (d.area.map Area.slots).getD 0 then some .full
      else none

/-- R70, R71: the limit and the retention are stored and both checks run. -/
def Device.setReserve (d : Device) (v limit retention : Nat) : Device :=
  ((d.onVolume v fun x => { x with reserve := limit, retention := retention }).reserveLowCheck v).reserveRearm v

/-- The slots a volume holds. -/
def Device.slotsHeld (d : Device) (v : Nat) : Nat := ((d.volume? v).map Volume.slotsHeld).getD 0

/-- R70, R87: RESERVE SET; the slot-wait queue is served after it. -/
def Device.reserveSet (d : Device) (p : PortId) (tag : Nat) : List Arg → Effect
  | [.num v, .num limit, .num retention] =>
    match d.reserveRefusal v limit retention with
    | some r => d.denyEffect p tag r
    | none =>
      let d := d.setReserve v limit retention
      (d.reply p tag .ok none [.num 4 limit, .num 1 retention, .num 4 (d.slotsHeld v)], [.serveSlots v])
  | _ => d.denyEffect p tag .malformed

/-- PRESERVE_AREA (R60). -/
def execPreserveArea (p : PortId) (tag : Nat) (s : State) : Host.Outcome State Fault Refusal :=
  s.event fun d => d.takeNow p tag .preserveArea fun d args => d.preserveArea p tag args

/-- VOLUME_DEFINE (R62, R63). -/
def execVolumeDefine (p : PortId) (tag : Nat) (s : State) : Host.Outcome State Fault Refusal :=
  s.event fun d => d.takeNow p tag .volumeDefine fun d args => d.volumeDefine p tag args

/-- VOLUME_READ (R74). -/
def execVolumeRead (p : PortId) (tag : Nat) (s : State) : Host.Outcome State Fault Refusal :=
  s.event fun d => d.takeNow p tag .volumeRead fun d args => d.volumeRead p tag args

/-- VOLUME_REMOVE (R72). -/
def execVolumeRemove (p : PortId) (tag : Nat) (s : State) : Host.Outcome State Fault Refusal :=
  s.event fun d => d.takeThen p tag .volumeRemove fun d args => d.volumeRemove p tag args

/-- RESERVE_SET (R70). -/
def execReserveSet (p : PortId) (tag : Nat) (s : State) : Host.Outcome State Fault Refusal :=
  s.event fun d => d.takeThen p tag .reserveSet fun d args => d.reserveSet p tag args

end Sys2Proof.Machine
end

