-- ==== Sys2Proof/Machine/WorkEvents.lean ====
section
/-! DEFINITION. The part's own work getting somewhere: map fills, removals, cuts, sweeps, retirements and restore
writes that come due (R63, R73, R103, R105, R109, R110, R126). -/

namespace Sys2Proof.Machine

/-- R63: the map fill of a PREPARING volume ends. -/
def Device.endFill (d : Device) (v : Nat) : Device :=
  match d.volume? v with
  | some x =>
    if x.state = .preparing then
      let ready := { x with state := .ready, answers := none }
      (d.setVolume v ready).answer x.answers .ok none (volumeItems (some ready))
    else d
  | none => d

/-- R105: a cut's drain timer expires before the cut completes. -/
def Device.drainTimeout (d : Device) (v : Nat) : Effect :=
  match d.volume? v with
  | some x =>
    match x.cut with
    | some c => d.abandonCut v x c
    | none => (d, [])
  | none => (d, [])

/-- R126: a slot's retry due comes. -/
def Device.retryDue (d : Device) (k : SlotId) : Effect :=
  match d.slot? k with
  | some s =>
    match s.phase with
    | .writing _ (some due) => (d.reach due, [.makeWrite k])
    | _ => (d, [])
  | none => (d, [])

/-- The volume is REMOVING. -/
def Device.isRemoving (d : Device) (v : Nat) : Bool :=
  match d.volume? v with
  | some x => x.state = .removing
  | none => false

/-- MAP_FILL_END (R63). -/
def execMapFillEnd (v : Nat) (s : State) : Host.Outcome State Fault Refusal :=
  s.event fun d => d.endFill v

/-- REMOVAL_END (R73): the removal ends when its conditions hold (DEDUCED, entry 5). -/
def execRemovalEnd (v : Nat) (s : State) : Host.Outcome State Fault Refusal :=
  s.event fun d => if d.isRemoving v then settle (d, [.volumeCheck v]) else d

/-- CUT_COMPLETION (R103): the cut completes when its conditions hold (DEDUCED, entry 5). -/
def execCutCompletion (v : Nat) (s : State) : Host.Outcome State Fault Refusal :=
  s.event fun d => if d.cutting v then settle (d, [.volumeCheck v]) else d

/-- DRAIN_TIMEOUT (R105). -/
def execDrainTimeout (v : Nat) (s : State) : Host.Outcome State Fault Refusal :=
  s.event fun d => settle (d.drainTimeout v)

/-- SWEEP_VISIT (R109). -/
def execSweepVisit (v : Nat) (s : State) : Host.Outcome State Fault Refusal :=
  s.event fun d => settle (sweepVisit v d)

/-- RETIREMENT_END (R110). -/
def execRetirementEnd (v : Nat) (s : State) : Host.Outcome State Fault Refusal :=
  s.event fun d => settle (endRetirement v d)

/-- RETRY_DUE (R126). -/
def execRetryDue (k : SlotId) (s : State) : Host.Outcome State Fault Refusal :=
  s.event fun d => settle (d.retryDue k)

end Sys2Proof.Machine
end

