-- ==== Sys2Proof/Machine/Dispatch.lean ====
section
/-! DEFINITION. One arm for each command: a direct call of its meaning. -/

namespace Sys2Proof.Machine

def exec (i : Instr) (s : State) : Host.Outcome State Fault Refusal :=
  match i with
  | .read port h => Sys2Proof.Machine.execRead port h s
  | .write port h payload => Sys2Proof.Machine.execWrite port h payload s
  | .release port h => Sys2Proof.Machine.execRelease port h s
  | .mgmtFrame port h name area => Sys2Proof.Machine.execMgmtFrame port h name area s
  | .runtFrame port bytes => Sys2Proof.Machine.execRuntFrame port bytes s
  | .unknownCommand port tag => Sys2Proof.Machine.execUnknownCommand port tag s
  | .serverLinkUp port => Sys2Proof.Machine.execServerLinkUp port s
  | .serverLinkDown port => Sys2Proof.Machine.execServerLinkDown port s
  | .poolDone tag status data => Sys2Proof.Machine.execPoolDone tag status data s
  | .poolTimeout tag => Sys2Proof.Machine.execPoolTimeout tag s
  | .quarantineEnd tag => Sys2Proof.Machine.execQuarantineEnd tag s
  | .poolLinkDown => Sys2Proof.Machine.execPoolLinkDown s
  | .poolLinkUp => Sys2Proof.Machine.execPoolLinkUp s
  | .secondTick => Sys2Proof.Machine.execSecondTick s
  | .graceExpiry account => Sys2Proof.Machine.execGraceExpiry account s
  | .quarterSecondTick => Sys2Proof.Machine.execQuarterSecondTick s
  | .livenessExpiry port => Sys2Proof.Machine.execLivenessExpiry port s
  | .mapFillEnd volume => Sys2Proof.Machine.execMapFillEnd volume s
  | .removalEnd volume => Sys2Proof.Machine.execRemovalEnd volume s
  | .cutCompletion volume => Sys2Proof.Machine.execCutCompletion volume s
  | .drainTimeout volume => Sys2Proof.Machine.execDrainTimeout volume s
  | .sweepVisit volume => Sys2Proof.Machine.execSweepVisit volume s
  | .retirementEnd volume => Sys2Proof.Machine.execRetirementEnd volume s
  | .retryDue slot => Sys2Proof.Machine.execRetryDue slot s
  | .passStart => Sys2Proof.Machine.execPassStart s
  | .grainMakeReady => Sys2Proof.Machine.execGrainMakeReady s
  | .placementEnd slot => Sys2Proof.Machine.execPlacementEnd slot s
  | .transmissionEnd => Sys2Proof.Machine.execTransmissionEnd s
  | .batchIdleClose => Sys2Proof.Machine.execBatchIdleClose s
  | .ackTimeout sequence => Sys2Proof.Machine.execAckTimeout sequence s
  | .sweepEnd => Sys2Proof.Machine.execSweepEnd s
  | .drainEnd => Sys2Proof.Machine.execDrainEnd s
  | .passEndTimeout => Sys2Proof.Machine.execPassEndTimeout s
  | .peerStatus ready => Sys2Proof.Machine.execPeerStatus ready s
  | .ack sequence => Sys2Proof.Machine.execAck sequence s
  | .refuse sequence reason => Sys2Proof.Machine.execRefuse sequence reason s
  | .passAck target snapshot => Sys2Proof.Machine.execPassAck target snapshot s
  | .attentionFromPeer code => Sys2Proof.Machine.execAttentionFromPeer code s
  | .unreadablePeerFrame bytes => Sys2Proof.Machine.execUnreadablePeerFrame bytes s
  | .offsiteLinkUp => Sys2Proof.Machine.execOffsiteLinkUp s
  | .offsiteLinkDown => Sys2Proof.Machine.execOffsiteLinkDown s
  | .silenceTimeout => Sys2Proof.Machine.execSilenceTimeout s
  | .identify port tag => Sys2Proof.Machine.execIdentify port tag s
  | .keepalive port tag => Sys2Proof.Machine.execKeepalive port tag s
  | .portSet port tag => Sys2Proof.Machine.execPortSet port tag s
  | .portRead port tag => Sys2Proof.Machine.execPortRead port tag s
  | .fence port tag => Sys2Proof.Machine.execFence port tag s
  | .unfence port tag => Sys2Proof.Machine.execUnfence port tag s
  | .pathReset port tag => Sys2Proof.Machine.execPathReset port tag s
  | .timeSet port tag => Sys2Proof.Machine.execTimeSet port tag s
  | .timeRead port tag => Sys2Proof.Machine.execTimeRead port tag s
  | .scheduleSet port tag => Sys2Proof.Machine.execScheduleSet port tag s
  | .scheduleRead port tag => Sys2Proof.Machine.execScheduleRead port tag s
  | .accountLoad port tag => Sys2Proof.Machine.execAccountLoad port tag s
  | .accountRead port tag => Sys2Proof.Machine.execAccountRead port tag s
  | .groupLoad port tag => Sys2Proof.Machine.execGroupLoad port tag s
  | .groupRead port tag => Sys2Proof.Machine.execGroupRead port tag s
  | .preserveArea port tag => Sys2Proof.Machine.execPreserveArea port tag s
  | .volumeDefine port tag => Sys2Proof.Machine.execVolumeDefine port tag s
  | .volumeRead port tag => Sys2Proof.Machine.execVolumeRead port tag s
  | .volumeRemove port tag => Sys2Proof.Machine.execVolumeRemove port tag s
  | .reserveSet port tag => Sys2Proof.Machine.execReserveSet port tag s
  | .cut port tag => Sys2Proof.Machine.execCut port tag s
  | .retire port tag => Sys2Proof.Machine.execRetire port tag s
  | .snapshotList port tag => Sys2Proof.Machine.execSnapshotList port tag s
  | .restore port tag => Sys2Proof.Machine.execRestore port tag s
  | .restoreStatus port tag => Sys2Proof.Machine.execRestoreStatus port tag s
  | .restoreCancel port tag => Sys2Proof.Machine.execRestoreCancel port tag s
  | .enrol port tag => Sys2Proof.Machine.execEnrol port tag s
  | .duplicateNow port tag => Sys2Proof.Machine.execDuplicateNow port tag s
  | .pacingSet port tag => Sys2Proof.Machine.execPacingSet port tag s
  | .stagingSet port tag => Sys2Proof.Machine.execStagingSet port tag s
  | .passStatus port tag => Sys2Proof.Machine.execPassStatus port tag s
  | .passStop port tag => Sys2Proof.Machine.execPassStop port tag s
  | .signalPeer port tag => Sys2Proof.Machine.execSignalPeer port tag s
  | .noticeRead port tag => Sys2Proof.Machine.execNoticeRead port tag s
  | .resetAssert => Sys2Proof.Machine.execResetAssert s
  | .resetRelease lines => Sys2Proof.Machine.execResetRelease lines s
  | .malformedFrame port kind tag => Sys2Proof.Machine.execMalformedFrame port kind tag s

end Sys2Proof.Machine
end

