-- ==== Sys2Proof/Safety.lean ====
section
/-! DEFINITION. The terms the statements use: what holds of the part in every state a run reaches, when a management
command stands ready to be taken, and the part once a transaction has been answered. -/

namespace Sys2Proof.Machine

/-! ### What every step keeps -/

/-- The notice queue keeps its bound, and ATTN# is low exactly while it holds a notice (R180, R183). -/
def Management.Sound (m : Management) : Prop :=
  m.notices.length ≤ Config.noticePlaces ∧ (m.attnLow = true ↔ m.notices ≠ [])

/-- A requester of class PRESERVE (R11). -/
def Requester.isPreserve : Requester → Bool
  | .preserve _ _ => true
  | _ => false

/-- A requester of class PATH when a server transaction, of class COPY when a copy slot (R11). -/
def Requester.isServer : Requester → Bool
  | .server _ _ => true
  | _ => false

def Requester.isSlot : Requester → Bool
  | .slot _ => true
  | _ => false

/-- R11, R12: each class of the queue holds requests of its class, a BUSY reserved tag (60 to 63) serves a PRESERVE
request, and the path streak is at most 3. -/
structure Pool.Orderly (p : Pool) : Prop where
  preserveQ : ∀ r ∈ p.preserveQ, r.requester.isPreserve = true
  pathQ : ∀ r ∈ p.pathQ, r.requester.isServer = true
  copyQ : ∀ r ∈ p.copyQ, r.requester.isSlot = true
  reserved : ∀ (t : PoolTagId) r m, 60 ≤ t.val → p.tags[t] = .busy r m → r.isPreserve = true
  streak : p.streak ≤ 3

/-- No request waits for a pool tag and no tag is BUSY. -/
structure Pool.Idle (p : Pool) : Prop where
  preserveQ : p.preserveQ = []
  pathQ : p.pathQ = []
  copyQ : p.copyQ = []
  tags : ∀ (t : PoolTagId) r m, p.tags[t] ≠ .busy r m

/-- R14, R17: while the pool link is DOWN, or RESET# low, no request waits and no tag is BUSY. -/
def Device.QuietWhenDown (d : Device) : Prop := d.pool.link = .down ∨ d.resetLow = true → d.pool.Idle

/-- R19, R37: the ranges of an account's limits, usage, grace hours and group number, and the soft limit at most the hard
limit when there is one. Held is not among them: it is the sum of the charges of the writes in flight (R20). -/
structure Account.Sound (x : Account) : Prop where
  softMax : x.soft ≤ Config.accountMax
  hardMax : x.hard ≤ Config.accountMax
  usage : x.usage ≤ Config.accountMax
  grace : x.grace ≤ 2160
  group : x.group ≤ 1023
  soft : 0 < x.hard → x.soft ≤ x.hard

/-- R19, R21: every account is in range, group 0 has no limit, every group limit is below 2^48, and the tables of
accounts and groups are canonical. -/
structure Device.QuotaSound (d : Device) : Prop where
  accounts : Table.Wf Account.initial d.accounts
  groups : Table.Wf Group.initial d.groups
  account : ∀ a, (d.account a).Sound
  groupZero : (d.group 0).limit = 0
  limit : ∀ g, (d.group g).limit ≤ Config.groupMax

/-- The sum of the usages of the accounts whose group is g; an unlisted account has usage 0. -/
def Device.memberUsage (d : Device) (g : Nat) : Nat :=
  (d.accounts.map fun e => if e.2.group = g then e.2.usage else 0).sum

/-- R21: every group's usage is the sum of usage over the accounts whose group it is. -/
def Device.UsageSums (d : Device) : Prop :=
  Table.Wf Account.initial d.accounts ∧ (∀ a, (d.account a).usage ≤ Config.accountMax)
    ∧ ∀ g, (d.group g).usage = d.memberUsage g

/-- R61, R65, R67, R97: the snapshot numbers strictly increase and lie below E, the list holds at most 16 records (15
while a cut with room stands), E is at most 16,777,215, and the grain map is canonical. -/
structure Volume.Sound (x : Volume) : Prop where
  numbers : (x.snapshots.map Snapshot.number).Pairwise (· < ·)
  below : ∀ n ∈ x.snapshots.map Snapshot.number, n < x.epoch
  length : x.snapshots.length ≤ Config.snapshotRecords
  epoch : 2 ≤ x.epoch ∧ x.epoch ≤ Config.lastEpoch
  cut : ∀ c, x.cut = some c → x.epoch < Config.lastEpoch
    ∧ (c.room = .have → x.snapshots.length < Config.snapshotRecords)
  grains : Table.Wf x.fill x.grains

/-- Every defined volume is sound and the table of volumes is in order. -/
structure Device.VolumesSound (d : Device) : Prop where
  order : d.volumes.Sorted
  volume : ∀ v x, d.volume? v = some x → x.Sound

/-! ### Management commands -/

/-- The transaction holds the untaken command n with these arguments, from a port whose role may issue it (R172,
R173), and RESET# is high. -/
structure State.Issued (s : State) (p : PortId) (tag : Nat) (n : CommandName) (t : Txn) (args : List Arg) : Prop where
  high : s.dev.resetLow = false
  txn : s.dev.txn? p tag = some t
  command : ∃ c, t.command = some c ∧ c.isNamed n = true ∧ readArgs n.shape c.area = some args
  role : (s.dev.port p).role = .manager ∨ n.forData = true

/-- The frames by which a transaction is answered: one when the answer is owed and the port UP, none otherwise (R1,
R174). -/
def Device.answerFrames (d : Device) (p : PortId) (t : Txn) (r : Response) : List Output :=
  if t.owed = true ∧ (d.port p).link = .up then [.response p r] else []

/-- The part with a MGMT transaction answered and closed (R174). -/
def Device.answered (d : Device) (p : PortId) (tag : Nat) (t : Txn) (st : MgmtStatus) (reason : Option MgmtReason)
    (result : List Item) : Device :=
  { d with
    txns := d.txns.erase (txnKey p tag)
    out := d.out ++ d.answerFrames p t { tag := tag, status := st, reason := reason, result := result } }

/-- The part with the MGMT transaction of a long command taken: its command is gone from the record, and the tag stays
IN USE until the work ends (R5, R174). -/
def Device.taken (d : Device) (p : PortId) (tag : Nat) (t : Txn) : Device :=
  { d with txns := d.txns.insert (txnKey p tag) { t with command := none } }

/-- The part with a READ, WRITE or RELEASE transaction ended and closed (R6). -/
def Device.ended (d : Device) (p : PortId) (tag : Nat) (t : Txn) (st : Status) (count : Nat) (data : List Byte) : Device :=
  { d with
    txns := d.txns.erase (txnKey p tag)
    out := d.out ++ (if t.owed = true ∧ (d.port p).link = .up then
      [.completion p { kind := t.kind.code, tag := tag, status := st, count := count, data := data }] else []) }

/-- The management unit with one notice handed over: queued at the tail with ATTN# low, or dropped with the overflow
flag set when 64 wait (R180, R181, R183). -/
def Management.joined (m : Management) (n : Notice) : Management :=
  if m.notices.length < 64 then { m with notices := m.notices ++ [n], attnLow := true } else { m with overflow := true }

/-- The part with one notice of this event handed over, its time that of the calendar while VALID (R180). -/
def Device.noted (d : Device) (k : NoticeKind) (subject : Subject) (value : NoticeValue) : Device :=
  { d with
    mgmt := d.mgmt.joined
      { kind := k, time := if d.clock.valid then some d.clock.time else none, subject := subject, value := value } }

/-! ### The end of an admitted write -/

/-- R28 to R30, R34: an account after the end of an admitted write of charge c that leaves it the usage u: the charge
leaves held, the state is checked again, and the hard notice may be armed again. -/
def Account.settled (a : Account) (c u : Nat) : Account :=
  let b : Account := { a with usage := u, held := a.held - c }
  let b : Account :=
    if b.state ≠ .under ∧ b.usage + b.held ≤ b.soft then { b with state := .under, deadline := none } else b
  { b with
    hardArmed := b.hardArmed || decide (b.limit < 4294967295 ∧ b.usage + b.held ≤ b.limit - b.limit / 16) }

/-- R28, R29, R35: a group after the end of an admitted write of charge c, its usage then more by rise: the charge
leaves held, and the full notice may be armed again. -/
def Group.settled (g : Group) (c rise : Nat) : Group :=
  let h : Group := { g with usage := g.usage + rise, held := g.held - c }
  { h with fullArmed := h.fullArmed || decide (h.limit = 0 ∨ h.usage + h.held ≤ h.limit - h.limit / 16) }

/-- R28 to R30, R34, R35, R52, R53: from d to e an admitted write of charge c of account n has ended, with n's usage
then u: n and its group are settled, no other account or group changes, and an account that returns to UNDER leaves the
grace list and the undated set. -/
structure Device.Settled (d e : Device) (n c u : Nat) : Prop where
  account : e.account n = (d.account n).settled c u
  group : e.group (d.account n).group = (d.group (d.account n).group).settled c (u - (d.account n).usage)
  accounts : ∀ b, b ≠ n → e.account b = d.account b
  groups : ∀ k, k ≠ (d.account n).group → e.group k = d.group k
  clock : e.clock =
    if (d.account n).state ≠ .under ∧ u + ((d.account n).held - c) ≤ (d.account n).soft then
      { d.clock with
        graceList := d.clock.graceList.filter (· ≠ n), undated := d.clock.undated.filter (· ≠ n) }
    else d.clock

/-! ### Slot waits -/

/-- R71, R80, R87: the grain g at the head of the slot-wait queue of volume v, with entry e, has taken slot s from the
head of the free queue: the rest of both queues stands, slots held has risen by 1 with the RESERVE_LOW check, and the
preserve read of the grain is requested. -/
def Device.slotServed (d : Device) (v g : Nat) (x : Volume) (e : Pending) (base p s : Nat) (waits frees : List Nat) :
    Device :=
  let low : Prop := x.reserveArmed = true ∧ x.reserve > 0 ∧ x.slotsHeld + 1 ≥ x.reserve - x.reserve / 8
  let m : Device := if low then d.noted .reserveLow (.volume v) (.number (x.slotsHeld + 1)) else d
  Device.joinPool { m with
      volumes := d.volumes.insert v { x with
        slotsHeld := x.slotsHeld + 1, slotWait := waits, reserveArmed := if low then false else x.reserveArmed }
      pres.free := frees
      pres.table := d.pres.table.insert (pendKey v g) { e with phase := .preserving base p s } }
    { requester := .preserve v g, op := .read (x.base + 8 * g) 8 }

/-! ### Copy reads -/

/-- R92, R93: copy slot k holds the record z in READING and its read has been requested: of the preserve slot, or of the
live grain, registered on the grain's pending entry, a new one where it has none. -/
def Device.readAsked (d : Device) (k : SlotId) (z : CopySlot) : Device :=
  let e : Device := { d with copy.slots := d.copy.slots.set k.val (some z) k.isLt }
  match z.image with
  | .unwritten => e
  | .slot n _ => e.joinPool { requester := .slot k, op := .read (d.slotAddr n) 8 }
  | .live _ =>
    let entry : Pending := match d.entry? z.volume z.grain with
      | some x => { x with readers := x.readers + 1 }
      | none => { volume := z.volume, grain := z.grain, phase := .reading, readers := 1, waiters := [] }
    Device.joinPool { e with pres.table := d.pres.table.insert (pendKey z.volume z.grain) entry }
      { requester := .slot k, op := .read (d.grainAddr z.volume z.grain) 8 }

/-! ### The grace list -/

/-- R52: account a stands before account b in the grace list: by deadline, then by number. -/
def Device.earlier (d : Device) (a b : Nat) : Prop :=
  let rank (n : Nat) : Nat := ((d.account n).deadline.map CalTime.rank).getD 0
  rank a < rank b ∨ (rank a = rank b ∧ a < b)

/-- R52: the grace list is in its order. -/
def Device.GraceInOrder (d : Device) : Prop := d.clock.graceList.Pairwise d.earlier

/-- R52: account a has joined the list l at its place: after those that do not come later, before the rest. -/
def Device.JoinedGrace (d : Device) (a : Nat) (l m : List Nat) : Prop :=
  ∃ before after, l.filter (· ≠ a) = before ++ after ∧ m = before ++ a :: after
    ∧ (∀ b ∈ before, ¬ d.earlier a b) ∧ ∀ b, after.head? = some b → d.earlier a b

/-! ### The running pass -/

/-- The transmitter can take no frame: the offsite link is not READY, or a frame is in transmission (R145). -/
def Device.TransmitterHeld (d : Device) : Prop := (∀ m, d.dup.link ≠ .ready m) ∨ d.dup.transmitting ≠ none

/-- Nothing but the pass waits on its end: no copy slot works for it, no restore runs, no entry of the queue may start,
and the transmitter has no ATTENTION to take (R117, R138, R145). -/
structure Device.PassAlone (d : Device) : Prop where
  slots : ∀ k z, d.slot? k = some z → z.stream ≠ .pass
  restores : ∀ r ∈ d.copy.restores, r.state ≠ .running
  queue : d.dup.queue = [] ∨ (d.clock.window = .closed ∧ ∀ e ∈ d.dup.queue, e.origin ≠ .demand)
  transmitter : d.TransmitterHeld ∨ d.dup.attention = none

/-- The part after the common end of a pass of volume x that nothing else waits on: the pin dropped, staging and the
batch table emptied, the report written, the record dropped (R153). -/
def Device.passClosed (d : Device) (q : Pass) (x : Volume) (o : PassOutcome) (r : Option PassReason) : Device :=
  { d with
    dup.pass := none
    dup.staging := []
    dup.batches := []
    volumes := d.volumes.insert q.volume { x with
      snapshots := x.snapshots.map fun n => if q.snapshot = some n.number then { n with pins := n.pins - 1 } else n
      report := some { outcome := o, snapshot := q.snapshot, sent := q.sent, reason := r
                       endTime := if d.clock.valid then some d.clock.time else none } } }

/-- The command that a management-command row takes, with its transaction (section 10.2). -/
def commandOf : Instr → Option (PortId × Nat × CommandName)
  | .identify p t => some (p, t, .identify)
  | .keepalive p t => some (p, t, .keepalive)
  | .portSet p t => some (p, t, .portSet)
  | .portRead p t => some (p, t, .portRead)
  | .fence p t => some (p, t, .fence)
  | .unfence p t => some (p, t, .unfence)
  | .pathReset p t => some (p, t, .pathReset)
  | .timeSet p t => some (p, t, .timeSet)
  | .timeRead p t => some (p, t, .timeRead)
  | .scheduleSet p t => some (p, t, .scheduleSet)
  | .scheduleRead p t => some (p, t, .scheduleRead)
  | .accountLoad p t => some (p, t, .accountLoad)
  | .accountRead p t => some (p, t, .accountRead)
  | .groupLoad p t => some (p, t, .groupLoad)
  | .groupRead p t => some (p, t, .groupRead)
  | .preserveArea p t => some (p, t, .preserveArea)
  | .volumeDefine p t => some (p, t, .volumeDefine)
  | .volumeRead p t => some (p, t, .volumeRead)
  | .volumeRemove p t => some (p, t, .volumeRemove)
  | .reserveSet p t => some (p, t, .reserveSet)
  | .cut p t => some (p, t, .cut)
  | .retire p t => some (p, t, .retire)
  | .snapshotList p t => some (p, t, .snapshotList)
  | .restore p t => some (p, t, .restore)
  | .restoreStatus p t => some (p, t, .restoreStatus)
  | .restoreCancel p t => some (p, t, .restoreCancel)
  | .enrol p t => some (p, t, .enrol)
  | .duplicateNow p t => some (p, t, .duplicateNow)
  | .pacingSet p t => some (p, t, .pacingSet)
  | .stagingSet p t => some (p, t, .stagingSet)
  | .passStatus p t => some (p, t, .passStatus)
  | .passStop p t => some (p, t, .passStop)
  | .signalPeer p t => some (p, t, .signalPeer)
  | .noticeRead p t => some (p, t, .noticeRead)
  | _ => none

/-- Whether an area has the shape of a command's arguments (R173 check 2, R186). -/
def wellShaped (n : CommandName) (area : List Byte) : Bool :=
  if n = .restore then (readRestore area).isSome else (readArgs n.shape area).isSome

end Sys2Proof.Machine
end

