-- ==== Sys2Proof/Certificates/Slice0/Obligations.lean ====
section
/-! DEFINITION. The statements for the provers. Each docstring names the rules it states, and says where a clause is
the model's own choice. -/

open Sys2Proof Sys2Proof.Machine

/-! ### Stepping and the RESET# line -/

/-- The command at the front of the queue is carried out with the queue's rest left; an empty queue changes nothing (the
model's choice, entry 2). -/
def Obligations.StepTakesFrontCommand : Prop :=
  (∀ (s : State) (i : Instr) (rest : List Instr), s.pending = i :: rest → step s = exec i { s with pending := rest })
    ∧ ∀ s : State, s.pending = [] → step s = .next s

/-- Every command completes in every state, and leaves the waiting commands alone. -/
def Obligations.EveryCommandCompletes : Prop :=
  ∀ (i : Instr) (s : State), ∃ t, exec i s = .next t ∧ t.pending = s.pending

/-- R179: while RESET# is low the part takes nothing; going low clears everything, and returning high reads every link
from its line and starts the ticks. A release with the line high changes nothing: that is the model's choice, R179
being silent (DESIGN CHOICE, entry 4). The log of sent frames and the index of free values are the model's own
(entries 12, 13). -/
def Obligations.ResetLine : Prop :=
  ∀ (s : State) (l : Lines),
    (∀ i : Instr, s.dev.resetLow = true → i ≠ .resetAssert → (∀ m, i ≠ .resetRelease m) → exec i s = .next s)
    ∧ exec .resetAssert s =
        .next { s with dev := { Device.reset with resetLow := true, out := s.dev.out, freeIndex := s.dev.freeIndex } }
    ∧ (s.dev.resetLow = false → exec (.resetRelease l) s = .next s)
    ∧ (s.dev.resetLow = true → exec (.resetRelease l) s = .next { s with dev := { s.dev with
        resetLow := false
        ports := Vector.ofFn fun p : PortId => { s.dev.ports[p] with link := if l.server[p] then .up else .down }
        pool.link := if l.pool then .up else .down
        dup.link := if l.offsite then .up else .down
        clock.nextSecond := s.dev.clock.now + 1000
        clock.nextQuarter := s.dev.clock.now + 250 } })

/-- The values after full reset (R17, R19, R21, R43, R52, R53, R55, R57, R60, R61, R96, R114, R134, R139, R159, R160,
R161, R184), at State.reset and after every RESET_ASSERT. -/
def Obligations.FullResetValues : Prop :=
  ∀ d : Device, (d = State.reset.dev ∨ ∃ s t, exec .resetAssert s = .next t ∧ t.dev = d) →
    (d.txns = [] ∧ (∀ k : PoolTagId, d.pool.tags[k] = .free) ∧ d.pool.preserveQ = [] ∧ d.pool.pathQ = []
      ∧ d.pool.copyQ = [] ∧ d.pool.streak = 0)
    ∧ (∀ p : PortId, (d.port p).role = (if p = 0 then .manager else .data) ∧ (d.port p).fence = none
      ∧ (d.port p).reload = 0 ∧ (d.port p).counter = 0)
    ∧ (∀ a, d.account a = { soft := 0, hard := 0, grace := 0, group := 0, usage := 0, held := 0, state := .under
                            deadline := none, hardArmed := true, underflow := false })
    ∧ (∀ g, d.group g = { limit := 0, usage := 0, held := 0, fullArmed := true })
    ∧ (d.clock.time = { year := 2000, month := 1, day := 1, hour := 0, minute := 0, second := 0 }
      ∧ d.clock.valid = false ∧ d.clock.window = .closed ∧ d.clock.graceList = [] ∧ d.clock.undated = []
      ∧ ∀ i : Fin 8, d.clock.schedule[i] = { enabled := false, action := .windowClose, minute := none, hour := none
                                             weekdays := 127, day := none })
    ∧ (d.area = none ∧ (∀ v, d.volume? v = none) ∧ d.pres.table = [] ∧ d.pres.map = [] ∧ d.pres.free = []
      ∧ d.pres.readerWait = [] ∧ d.cutHold = [])
    ∧ ((∀ k : SlotId, d.slot? k = none) ∧ d.copy.restores = [] ∧ d.copy.lastId = 0 ∧ d.copy.lastServed = none
      ∧ d.copy.cursor = 0)
    ∧ (d.dup.queue = [] ∧ d.dup.mode = .sprint ∧ d.dup.pass = none ∧ d.dup.staging = [] ∧ d.dup.batches = []
      ∧ d.dup.transmitting = none ∧ d.dup.attention = none
      ∧ d.dup.settings = { low := 16, high := 48, idleClose := 10, ackTimeout := 30 })
    ∧ (d.mgmt.notices = [] ∧ d.mgmt.overflow = false ∧ d.mgmt.attnLow = false ∧ d.mgmt.pathReset = none)

/-! ### What every step keeps -/

/-- The invariants below hold right after a full reset. -/
def Obligations.InvariantsAtReset : Prop :=
  State.reset.dev.mgmt.Sound ∧ State.reset.dev.pool.Orderly ∧ State.reset.dev.QuietWhenDown
    ∧ State.reset.dev.QuotaSound ∧ State.reset.dev.UsageSums ∧ State.reset.dev.VolumesSound
    ∧ State.reset.dev.clock.time.valid = true

/-- R180, R183: in every state, a step keeps the notice queue within 64 and ATTN# low exactly while it holds a notice. -/
def Obligations.NoticeQueueKept : Prop :=
  ∀ s t : State, s.dev.mgmt.Sound → step s = .next t → t.dev.mgmt.Sound

/-- R11, R12, R14: in every state, a step keeps each class of the pool request queue to its requesters, the reserved tags
60 to 63 to PRESERVE requests, and the path streak at most 3; and it keeps the pool idle while its link is DOWN. -/
def Obligations.PoolInvariantsKept : Prop :=
  (∀ s t : State, s.dev.pool.Orderly → step s = .next t → t.dev.pool.Orderly)
  ∧ (∀ s t : State, s.dev.QuietWhenDown → step s = .next t → t.dev.QuietWhenDown)

/-- R19, R21, R37, R41: in every state, a step keeps every account's soft limit, hard limit and usage within
4,294,967,295, its grace hours within 2,160, its group number within 1,023 and its soft limit within a hard limit that
is set, group 0 without a limit and every group limit within 2^48 - 1; and it keeps every group's usage equal to the
sum of usage over its accounts. No bound on held, or on a group's usage and held, is stated here: held is the charges
of the writes in flight (R20), and group usage is bounded through the sum. -/
def Obligations.QuotaInvariantsKept : Prop :=
  (∀ s t : State, s.dev.QuotaSound → step s = .next t → t.dev.QuotaSound)
  ∧ (∀ s t : State, s.dev.UsageSums → step s = .next t → t.dev.UsageSums)

/-- R61, R65, R67, R97: in every state, a step keeps every volume's snapshot numbers strictly rising and below E, its
list within 16 records, E at most 16,777,215, and its grain map canonical. -/
def Obligations.VolumesKept : Prop :=
  ∀ s t : State, s.dev.VolumesSound → step s = .next t → t.dev.VolumesSound

/-- R43, R44, R46, R48: in every state, a step keeps the calendar on a date and time of the calendar. -/
def Obligations.CalendarKept : Prop :=
  ∀ s t : State, s.dev.clock.time.valid = true → step s = .next t → t.dev.clock.time.valid = true

/-! ### Rules of the whole part -/

/-- R46, R47, R49, R179: only a second tick, TIME SET and a full reset move the calendar or change its validity. -/
def Obligations.OnlyClockCommandsMoveCalendar : Prop :=
  ∀ (i : Instr) (s t : State), (i ≠ .secondTick ∧ (∀ p tag, i ≠ .timeSet p tag) ∧ i ≠ .resetAssert) →
    exec i s = .next t → t.dev.clock.time = s.dev.clock.time ∧ t.dev.clock.valid = s.dev.clock.valid

/-- R161, R170, R1: only PORT SET and a full reset change a role or a reload, and only the lines' events a link state. -/
def Obligations.OnlyPortSetChangesRoles : Prop :=
  ∀ (i : Instr) (s t : State) (p : PortId), exec i s = .next t → i ≠ .resetAssert →
    ((∀ q tag, i ≠ .portSet q tag) →
      (t.dev.port p).role = (s.dev.port p).role ∧ (t.dev.port p).reload = (s.dev.port p).reload)
    ∧ ((∀ l, i ≠ .resetRelease l) → i ≠ .serverLinkUp p → i ≠ .serverLinkDown p →
      (t.dev.port p).link = (s.dev.port p).link)

/-- R61, R62, R65: a defined volume keeps its pool base and capacity, its E never falls, and only VOLUME DEFINE makes a
volume defined. -/
def Obligations.VolumeKeepsPlaceAndEpochRises : Prop :=
  ∀ (i : Instr) (s t : State) (v : Nat) (y : Volume), exec i s = .next t → t.dev.volume? v = some y →
    (∃ x, s.dev.volume? v = some x ∧ y.base = x.base ∧ y.capacity = x.capacity ∧ x.epoch ≤ y.epoch)
      ∨ (s.dev.volume? v = none ∧ ∃ p tag, i = .volumeDefine p tag)

/-! ### Frames from the servers -/

/-- R3, R185: what makes a READ, WRITE, RELEASE or MGMT frame MALFORMED. -/
def Obligations.MalformedFrames : Prop :=
  ∀ (h : Header) (payload : List Byte),
    (h.badRead = true ↔ h.length ≠ h.delivered ∨ h.delivered < 24 ∨ h.tag > 31 ∨ h.volume = 0 ∨ h.volume > 64
      ∨ h.blocks = 0 ∨ h.blocks > 256)
    ∧ (h.badWrite payload = true ↔ h.length ≠ h.delivered ∨ h.delivered < 24 ∨ h.tag > 31 ∨ h.volume = 0
      ∨ h.volume > 64 ∨ h.blocks = 0 ∨ h.blocks > 256 ∨ h.declared > 33 ∨ payload.length ≠ h.blocks * 4096)
    ∧ (h.badRelease = true ↔ h.length ≠ h.delivered ∨ h.delivered < 24 ∨ h.tag > 31 ∨ h.volume = 0 ∨ h.volume > 64
      ∨ h.released = 0)
    ∧ (h.badMgmt = true ↔ h.length ≠ h.delivered ∨ h.delivered < 40 ∨ h.tag > 31 ∨ h.volume ≠ 0)

/-- R4, R6: the seven checks of a READ or WRITE in their order. The first that fails decides: one completion with that
status and a count of 0 is sent, and nothing else changes. -/
def Obligations.DataFramesRefused : Prop :=
  ∀ (s : State) (p : PortId) (h : Header) (payload : List Byte) (i : Instr) (kind : Byte) (bad : Bool),
    (i = .read p h ∧ kind = 1 ∧ bad = h.badRead) ∨ (i = .write p h payload ∧ kind = 2 ∧ bad = h.badWrite payload) →
    s.dev.resetLow = false → (s.dev.port p).link = .up →
    let Refused (st : Status) : Prop := exec i s = .next { s with dev := { s.dev with
      out := s.dev.out ++ [.completion p { kind := kind, tag := h.tag, status := st, count := 0, data := [] }] } }
    (bad = true → Refused .malformed)
    ∧ (bad = false → s.dev.txn? p h.tag ≠ none → Refused .tagBusy)
    ∧ (bad = false → s.dev.txn? p h.tag = none → (s.dev.port p).fence ≠ none → Refused .fenced)
    ∧ (bad = false → s.dev.txn? p h.tag = none → (s.dev.port p).fence = none →
        (s.dev.pool.link = .down → Refused .poolDown)
        ∧ (s.dev.pool.link = .up →
            (s.dev.volume? h.volume = none → Refused .noVolume)
            ∧ ∀ x, s.dev.volume? h.volume = some x →
              (x.state = .removing → Refused .noVolume)
              ∧ (x.state = .preparing → Refused .notReady)
              ∧ (x.state = .ready → h.first + h.blocks > 8 * x.capacity → Refused .outOfRange)))

/-- R4, R5, R169: the checks of a RELEASE, refused with a completion, and of a MGMT frame, refused with a response; a
FENCED port's MGMT frame passes when it is IDENTIFY, or an UNFENCE of the port itself while the port is MANAGER and no
MANAGER port is UP and CLEAR. -/
def Obligations.ReleaseAndMgmtRefused : Prop :=
  ∀ (s : State) (p : PortId) (h : Header) (name area : List Byte), s.dev.resetLow = false → (s.dev.port p).link = .up →
    let Refused (st : Status) : Prop := exec (.release p h) s = .next { s with dev := { s.dev with
      out := s.dev.out ++ [.completion p { kind := 3, tag := h.tag, status := st, count := 0, data := [] }] } }
    let Answered (st : MgmtStatus) : Prop := exec (.mgmtFrame p h name area) s = .next { s with dev := { s.dev with
      out := s.dev.out ++ [.response p { tag := h.tag, status := st, reason := none, result := [] }] } }
    let passes : Prop := upToZero name = ascii "IDENTIFY"
      ∨ (upToZero name = ascii "UNFENCE" ∧ area = leBytes 1 p.val ∧ (s.dev.port p).role = .manager
          ∧ ∀ q : PortId, ¬ ((s.dev.port q).role = .manager ∧ (s.dev.port q).link = .up ∧ (s.dev.port q).fence = none))
    (h.badRelease = true → Refused .malformed)
    ∧ (h.badRelease = false → s.dev.txn? p h.tag ≠ none → Refused .tagBusy)
    ∧ (h.badRelease = false → s.dev.txn? p h.tag = none → (s.dev.port p).fence ≠ none → Refused .fenced)
    ∧ (h.badMgmt = true → Answered .malformed)
    ∧ (h.badMgmt = false → s.dev.txn? p h.tag ≠ none → Answered .busy)
    ∧ (h.badMgmt = false → s.dev.txn? p h.tag = none → (s.dev.port p).fence ≠ none → ¬ passes → Answered .fenced)
    ∧ (h.badMgmt = false → s.dev.txn? p h.tag = none → (s.dev.port p).fence = none ∨ passes →
        exec (.mgmtFrame p h name area) s = .next { s with dev := { s.dev with
          txns := s.dev.txns.insert (txnKey p h.tag)
            { kind := .mgmt, owed := true, job := h.job [] .command
              command := some { name := name, area := area } } } })

/-- R185, R187, R1: a runt and a frame the peer sends that cannot be read change nothing; a frame of an unknown kind is
answered MALFORMED with its own kind and tag; nothing arrives on a DOWN port (that a command given there changes
nothing is the model's choice, entry 4). -/
def Obligations.DiscardedFrames : Prop :=
  ∀ (s : State) (p : PortId) (h : Header) (bytes name area : List Byte) (kind tag : Byte),
    exec (.runtFrame p bytes) s = .next s ∧ exec (.unreadablePeerFrame bytes) s = .next s
    ∧ (s.dev.resetLow = false → (s.dev.port p).link = .up →
        exec (.malformedFrame p kind tag) s = .next { s with dev := { s.dev with out := s.dev.out ++
          [.completion p { kind := kind, tag := tag.toNat, status := .malformed, count := 0, data := [] }] } })
    ∧ ((s.dev.port p).link = .down →
        exec (.malformedFrame p kind tag) s = .next s ∧ exec (.read p h) s = .next s
        ∧ exec (.write p h bytes) s = .next s ∧ exec (.release p h) s = .next s
        ∧ exec (.mgmtFrame p h name area) s = .next s)

/-- R2, R7, R12, R13: an accepted READ takes its tag and joins the pool request queue at the tail of class PATH; with
nothing waiting and an unreserved tag FREE it is issued at once under the lowest of them, and nothing else changes. -/
def Obligations.ReadAccepted : Prop :=
  ∀ (s : State) (p : PortId) (h : Header) (x : Volume), s.dev.resetLow = false → (s.dev.port p).link = .up →
    h.badRead = false → s.dev.txn? p h.tag = none → (s.dev.port p).fence = none → s.dev.pool.link = .up →
    s.dev.volume? h.volume = some x → x.state = .ready → h.first + h.blocks ≤ 8 * x.capacity →
    let record (stage : Stage) : Txn := { kind := .read, owed := true, job := h.job [] stage, command := none }
    ((∀ k : PoolTagId, k.val ≤ 59 → s.dev.pool.tags[k] ≠ .free) →
      (s.dev.pool.preserveQ = [] ∨ ∀ k : PoolTagId, s.dev.pool.tags[k] ≠ .free) →
      exec (.read p h) s = .next { s with dev := { s.dev with
        txns := s.dev.txns.insert (txnKey p h.tag) (record .queued)
        pool.pathQ := s.dev.pool.pathQ ++
          [{ requester := .server p h.tag, op := .read (x.base + h.first) h.blocks }] } })
    ∧ (∀ k : PoolTagId, k.val ≤ 59 → s.dev.pool.tags[k] = .free →
      (∀ j : PoolTagId, j.val < k.val → s.dev.pool.tags[j] ≠ .free) →
      s.dev.pool.preserveQ = [] → s.dev.pool.pathQ = [] → s.dev.pool.copyQ = [] →
      exec (.read p h) s = .next { s with dev := { s.dev with
        txns := s.dev.txns.insert (txnKey p h.tag) (record (.forwarded k))
        pool.tags := s.dev.pool.tags.set k.val (.busy (.server p h.tag) s.dev.clock.now) k.isLt
        pool.streak := 0
        out := s.dev.out ++ [.pool k (.read (x.base + h.first) h.blocks)] } })

/-- R8, R23, R24, R25, R101: an accepted WRITE of a CUTTING volume takes its tag and joins the cut-hold queue at the tail
with stage HELD; with the queue full it is refused with RETRY and its tag is free again. A WRITE whose charge passes the
account's limit is refused with QUOTA, and one that passes its group's limit with GROUP_QUOTA; the account's or group's
armed notice is handed over and disarmed, nothing is charged and the tag is free again. The charge is the declared grains
clamped to the touched count. -/
def Obligations.WriteHeldOrRefused : Prop :=
  (∀ (s : State) (p : PortId) (h : Header) (payload : List Byte) (x : Volume), s.dev.resetLow = false →
      (s.dev.port p).link = .up → h.badWrite payload = false → s.dev.txn? p h.tag = none → (s.dev.port p).fence = none →
      s.dev.pool.link = .up → s.dev.volume? h.volume = some x → x.state = .ready →
      h.first + h.blocks ≤ 8 * x.capacity → x.cut ≠ none →
      (s.dev.cutHold.length < 256 →
        exec (.write p h payload) s = .next { s with dev := { s.dev with
          txns := s.dev.txns.insert (txnKey p h.tag)
            { kind := .write, owed := true, job := h.job payload .held, command := none }
          cutHold := s.dev.cutHold ++ [.server p h.tag] } })
      ∧ (s.dev.cutHold.length ≥ 256 →
        exec (.write p h payload) s = .next { s with dev := { s.dev with
          out := s.dev.out ++ [.completion p { kind := 2, tag := h.tag, status := .retry, count := 0, data := [] }] } }))
  ∧ (∀ (s : State) (p : PortId) (h : Header) (payload : List Byte) (x : Volume), s.dev.resetLow = false →
      (s.dev.port p).link = .up → h.badWrite payload = false → s.dev.txn? p h.tag = none → (s.dev.port p).fence = none →
      s.dev.pool.link = .up → s.dev.volume? h.volume = some x → x.state = .ready →
      h.first + h.blocks ≤ 8 * x.capacity → x.cut = none →
      let c := min h.declared ((h.first % 8 + h.blocks - 1) / 8 + 1)
      let a := s.dev.account h.account
      let g := s.dev.group a.group
      let limit := if a.state = .expired ∧ a.soft > 0 then a.soft else if a.hard > 0 then a.hard else 4294967295
      let Refused (d : Device) (st : Status) : Prop := exec (.write p h payload) s = .next { s with dev := { d with
        out := d.out ++ [.completion p { kind := 2, tag := h.tag, status := st, count := 0, data := [] }] } }
      (0 < c → a.usage + a.held + c > limit →
        Refused (if a.hardArmed then
          (s.dev.setAccount h.account { a with hardArmed := false }).noted .quotaHard (.account h.account) (.number limit)
          else s.dev) .quota)
      ∧ (0 < c → a.usage + a.held + c ≤ limit → a.group ≠ 0 → g.limit ≠ 0 → g.usage + g.held + c > g.limit →
        Refused (if g.fullArmed then
          (s.dev.setGroup a.group { g with fullArmed := false }).noted .groupFull (.group a.group) (.number g.limit)
          else s.dev) .groupQuota))

/-- R8, R22, R23, R26, R27, R52, R66, R68, R79: a WRITE that admission lets through, with no touched grain needing
preservation or registered, is charged, stamped and counted in flight, sets each touched grain's last-written epoch to E,
and joins the pool request queue. The soft check follows the charge: where it carries an UNDER account above its soft
limit the account enters grace with QUOTA_SOFT: EXPIRED at once with QUOTA_EXPIRED when its grace is 0 hours, else SOFT,
with a deadline and a place in the grace list while the clock is VALID, in the undated set while it is INVALID. Nothing
else changes. -/
def Obligations.WriteAdmitted : Prop :=
  ∀ (s : State) (p : PortId) (h : Header) (payload : List Byte) (x : Volume), s.dev.resetLow = false →
    (s.dev.port p).link = .up → h.badWrite payload = false → s.dev.txn? p h.tag = none → (s.dev.port p).fence = none →
    s.dev.pool.link = .up → s.dev.volume? h.volume = some x → x.state = .ready →
    h.first + h.blocks ≤ 8 * x.capacity → x.cut = none →
    let count := (h.first % 8 + h.blocks - 1) / 8 + 1
    let touched := (List.range count).map fun k => h.first / 8 + k
    let c := min h.declared count
    let a := s.dev.account h.account
    let g := s.dev.group a.group
    let n := h.account
    (∀ k ∈ touched, x.needs k = false ∧ s.dev.entry? h.volume k = none) →
    (c = 0 ∨ (a.usage + a.held + c ≤ a.limit ∧ (a.group = 0 ∨ g.limit = 0 ∨ g.usage + g.held + c ≤ g.limit))) →
    s.dev.pres.table.length ≤ 256 →
    let Admits (d : Device) : Prop :=
      let e : Device := { d with
        volumes := s.dev.volumes.insert h.volume { x with
          inFlight := x.inFlight + 1
          grains := touched.foldl (fun m k => Table.put x.fill m k x.epoch) x.grains }
        txns := s.dev.txns.insert (txnKey p h.tag)
          { kind := .write, owed := true, command := none
            job := { h.job payload .queued with charge := some c, epoch := some x.epoch } } }
      exec (.write p h payload) s = .next { s with
        dev := e.joinPool { requester := .server p h.tag, op := .write (x.base + h.first) h.blocks payload } }
    let enters : Prop := 0 < c ∧ 0 < a.soft ∧ a.state = .under ∧ a.usage + a.held + c > a.soft
    let charged (b : Account) : Device :=
      (s.dev.setAccount n { b with held := a.held + c }).setGroup a.group { g with held := g.held + c }
    let soft (d : Device) : Device := d.noted .quotaSoft (.account n) (.number (a.usage + a.held + c))
    (c = 0 → Admits s.dev)
    ∧ (0 < c → ¬ enters → Admits (charged a))
    ∧ (enters → a.grace = 0 → Admits ((soft (charged { a with state := .expired, deadline := none })).noted .quotaExpired
        (.account n) (.number a.soft)))
    ∧ (enters → 0 < a.grace → s.dev.clock.valid = true →
        let d := soft (charged { a with state := .soft, deadline := some (s.dev.clock.time.addHours a.grace) })
        ∃ l, d.JoinedGrace n s.dev.clock.graceList l ∧ Admits { d with clock.graceList := l })
    ∧ (enters → 0 < a.grace → s.dev.clock.valid = false →
        let d := soft (charged { a with state := .soft, deadline := none })
        ∃ before after, s.dev.clock.undated.filter (fun k => k ≠ n) = before ++ after ∧ (∀ k ∈ before, k < n)
          ∧ (∀ k, after.head? = some k → n < k) ∧ Admits { d with clock.undated := before ++ n :: after })

/-- R31, R30, R34, R35: an accepted RELEASE takes min(r, U) from the account's usage and its group's, sets the
underflow mark when r is above U, returns the account to UNDER when U + H is S or below, re-arms the hard notice at the
re-arm point, and completes OK with the removed count; its tag is free again and no other account, group or block
changes. -/
def Obligations.ReleaseSettles : Prop :=
  ∀ (s : State) (p : PortId) (h : Header), s.dev.resetLow = false → (s.dev.port p).link = .up →
    h.badRelease = false → s.dev.txn? p h.tag = none → (s.dev.port p).fence = none →
    let a := s.dev.account h.account
    let g := s.dev.group a.group
    let n := min h.released a.usage
    let back : Prop := a.state ≠ .under ∧ a.usage - n + a.held ≤ a.soft
    ∃ t, exec (.release p h) s = .next t
      ∧ t.dev = { s.dev with
          accounts := t.dev.accounts, groups := t.dev.groups, clock := t.dev.clock
          out := s.dev.out ++ [.completion p { kind := 3, tag := h.tag, status := .ok, count := n, data := [] }] }
      ∧ (∀ b, b ≠ h.account → t.dev.account b = s.dev.account b)
      ∧ (∀ k, k ≠ a.group → t.dev.group k = s.dev.group k)
      ∧ (t.dev.group a.group).usage = g.usage - n ∧ (t.dev.group a.group).held = g.held
      ∧ (t.dev.group a.group).limit = g.limit
      ∧ (t.dev.group a.group).fullArmed = (g.fullArmed
          || decide (g.limit = 0 ∨ g.usage - n + g.held ≤ g.limit - g.limit / 16))
      ∧ (let b := t.dev.account h.account
         b.usage = a.usage - n ∧ b.held = a.held ∧ b.soft = a.soft ∧ b.hard = a.hard ∧ b.grace = a.grace
         ∧ b.group = a.group ∧ b.underflow = (a.underflow || decide (a.usage < h.released))
         ∧ (back → b.state = .under ∧ b.deadline = none)
         ∧ (¬ back → b.state = a.state ∧ b.deadline = a.deadline)
         ∧ b.hardArmed = (a.hardArmed
              || decide (b.limit < 4294967295 ∧ b.usage + b.held ≤ b.limit - b.limit / 16)))
      ∧ (back → t.dev.clock = { s.dev.clock with
            graceList := s.dev.clock.graceList.filter (· ≠ h.account)
            undated := s.dev.clock.undated.filter (· ≠ h.account) })
      ∧ (¬ back → t.dev.clock = s.dev.clock)

/-! ### The taking of a command, and the ports -/

/-- R172, R173, R186: a management command whose area does not have the command's shape is answered MALFORMED, and one that
the port's role may not issue NOT_PERMITTED, changing nothing else; a name that is no command's is answered MALFORMED,
whatever the port's role; a command that names no transaction with that command waiting changes nothing (the model's
choice, entry 4). -/
def Obligations.CommandsRefusedOrAbsent : Prop :=
  (∀ (s : State) (i : Instr) (p : PortId) (tag : Nat) (n : CommandName) (t : Txn) (c : Command),
      commandOf i = some (p, tag, n) → s.dev.resetLow = false → s.dev.txn? p tag = some t → t.command = some c →
      upToZero c.name = ascii n.text →
      (wellShaped n c.area = false → exec i s = .next { s with dev := s.dev.answered p tag t .malformed none [] })
      ∧ (wellShaped n c.area = true → (s.dev.port p).role = .data →
          n ∉ [CommandName.identify, .keepalive, .accountRead, .restoreStatus] →
          exec i s = .next { s with dev := s.dev.answered p tag t .notPermitted none [] }))
  ∧ (∀ (s : State) (p : PortId) (tag : Nat), s.dev.resetLow = false →
      (∀ (t : Txn) (c : Command), s.dev.txn? p tag = some t → t.command = some c →
        (∀ n : CommandName, upToZero c.name ≠ ascii n.text) →
        exec (.unknownCommand p tag) s = .next { s with dev := s.dev.answered p tag t .malformed none [] })
      ∧ (∀ (i : Instr) (n : CommandName), commandOf i = some (p, tag, n) →
        (∀ (t : Txn) (c : Command), s.dev.txn? p tag = some t → t.command = some c → upToZero c.name ≠ ascii n.text) →
        exec i s = .next s))

/-- R1, R15, R156, R157, R163: a link that comes UP: a server port's counter is loaded from its reload, the pool link
and the offsite link change state alone. PEER STATUS READY makes an UP link READY (here nothing waits for the
transmitter) and restarts the 3 s silence timer of a READY one; NOT READY, the loss of the line and the silence
timer's expiry take a READY link away with PEER_LOST and its value, losing the frame in transmission; an ATTENTION
taken while UP or READY queues PEER_ATTENTION with its code; nothing else changes. That the transmitter is idle from
the loss of the frame on is the model's choice (DESIGN CHOICE, entry 28), and so is that a frame of the peer, or the
loss of the line, on a DOWN link changes nothing (DESIGN CHOICE, entry 4). -/
def Obligations.LinksAndPeer : Prop :=
  (∀ (s : State) (p : PortId), s.dev.resetLow = false →
      let x := s.dev.port p
      (x.link = .down → exec (.serverLinkUp p) s = .next { s with dev := { s.dev with
        ports := s.dev.ports.set p.val { x with link := .up, counter := x.reload } p.isLt } })
      ∧ exec .poolLinkUp s = .next { s with dev := { s.dev with pool.link := .up } }
      ∧ (s.dev.dup.link = .down → s.dev.dup.transmitting = none →
          exec .offsiteLinkUp s = .next { s with dev := { s.dev with dup.link := .up } }))
  ∧ (∀ s : State, s.dev.resetLow = false →
      let u := s.dev.dup
      let linked (l : OffsiteLink) : Duplication := { u with link := l, transmitting := none }
      let lost (l : OffsiteLink) (why : Name) : Device := { s.dev.noted .peerLost .absent (.name why) with dup := linked l }
      (u.link = .down → (∀ r, exec (.peerStatus r) s = .next s) ∧ exec .silenceTimeout s = .next s
        ∧ exec .offsiteLinkDown s = .next { s with dev := { s.dev with dup := linked .down } }
        ∧ ∀ c, exec (.attentionFromPeer c) s = .next s)
      ∧ (u.link = .up → exec (.peerStatus false) s = .next s ∧ exec .silenceTimeout s = .next s
        ∧ exec .offsiteLinkDown s = .next { s with dev := { s.dev with dup := linked .down } }
        ∧ (u.attention = none → (∀ b ∈ u.batches, b.shutWaits = false) → u.pass = none → u.transmitting = none →
            exec (.peerStatus true) s = .next { s with dev := { s.dev with
              dup := linked (.ready (s.dev.clock.now + 3000)) } }))
      ∧ (∀ m, u.link = .ready m →
          exec (.peerStatus true) s = .next { s with dev := { s.dev with
            dup := { u with link := .ready (s.dev.clock.now + 3000) } } }
          ∧ exec (.peerStatus false) s = .next { s with dev := lost .up .notReady }
          ∧ exec .offsiteLinkDown s = .next { s with dev := lost .down .link }
          ∧ exec .silenceTimeout s = .next { s with dev := { lost .up .silence with
              clock.now := max s.dev.clock.now m } })
      ∧ (u.link ≠ .down → ∀ c, exec (.attentionFromPeer c) s = .next { s with
          dev := s.dev.noted .peerAttention .absent (.code c) }))

/-- R176, R186: IDENTIFY answers with the codes, the issuing port, the capacities and the preserve area's slot count,
from a port of either role, and changes nothing else. -/
def Obligations.IdentifyAnswers : Prop :=
  ∀ (s : State) (p : PortId) (tag : Nat) (t : Txn), s.Issued p tag .identify t [] →
    let x := s.dev.port p
    exec (.identify p tag) s = .next { s with
      dev := s.dev.answered p tag t .ok none
        ([.num 2 0x0A17, .num 2 0x0640, .num 1 1, .num 1 p.val
          , .name (if x.role = .manager then .manager else .data), .name (if x.fence = none then .clear else .fenced)]
        ++ (match x.fence with
            | none => [.num 1 0, .raw (List.replicate 16 0)]
            | some .liveness => [.num 1 1, .name .liveness]
            | some .command => [.num 1 1, .name .command])
        ++ [.num 2 x.reload, .num 1 x.counter
          , .num 1 4, .num 1 32, .num 1 64, .num 1 4, .num 4 65536, .num 2 1024, .num 1 64, .num 4 2147483648
          , .num 1 16, .num 4 4194304, .num 2 256, .num 2 256, .num 1 16, .num 1 24, .num 1 8, .num 1 8, .num 1 64
          , .num 1 4, .num 1 64
          , .num 4 (match s.dev.area with
              | none => 0
              | some a => a.slots)]) }

/-- R163, R168, R169, R170, R171, R186: PORT READ answers with the four port records in port order, each with the number
of open tags (its own among them) and of those whose answer owed mark is clear, and changes nothing else. KEEPALIVE loads
the issuing port's counter and answers with the port number, the reload and the counter. PORT SET: its refusals in order,
and the storing of role and reload, a changed reload loading the counter; the answer is the record as stored, its open
tags as a counted list in ascending order. UNFENCE: refused for a port above 3, and for the issuing port itself while it
is FENCED outside the last-manager rule; otherwise a FENCED port becomes CLEAR with its counter loaded, a CLEAR one stays
as it is. The layout of the results is read from R186 (DEDUCED, entry 18); that no count byte comes before the four
records is the model's choice (DESIGN CHOICE, entry 18). -/
def Obligations.PortCommands : Prop :=
  (∀ (s : State) (p : PortId) (tag : Nat) (t : Txn), s.Issued p tag .portRead t [] →
      let record (q : PortId) : List Item :=
        let x := s.dev.port q
        let mine := (s.dev.taken p tag t).txns.filter fun e => e.1 / 32 = q.val
        List.flatten
          [ [.name (if x.link = .up then .up else .down), .name (if x.role = .manager then .manager else .data)
              , .name (if x.fence = none then .clear else .fenced)]
            , match x.fence with
              | none => [.num 1 0, .raw (List.replicate 16 0)]
              | some .liveness => [.num 1 1, .name .liveness]
              | some .command => [.num 1 1, .name .command]
            , [.num 2 x.reload, .num 1 x.counter, .num 1 mine.length
                , .num 1 (mine.filter fun e => e.2.owed = false).length] ]
      exec (.portRead p tag) s = .next { s with
        dev := s.dev.answered p tag t .ok none (record 0 ++ record 1 ++ record 2 ++ record 3) })
  ∧ (∀ (s : State) (p : PortId) (tag : Nat) (t : Txn), s.Issued p tag .keepalive t [] →
      let x := s.dev.port p
      exec (.keepalive p tag) s = .next { s with
        dev := Device.answered { s.dev with ports := s.dev.ports.set p.val { x with counter := x.reload } p.isLt }
          p tag t .ok none [.num 1 p.val, .num 2 x.reload, .num 1 x.reload] })
  ∧ (∀ (s : State) (p : PortId) (tag : Nat) (t : Txn) (n reload : Nat) (r : List Byte),
      s.Issued p tag .portSet t [.num n, .text r, .num reload] →
      let Answers (d : Device) (st : MgmtStatus) (result : List Item) : Prop :=
        exec (.portSet p tag) s = .next { s with dev := d.answered p tag t st none result }
      (n > 3 ∨ (r ≠ padded "MANAGER" ∧ r ≠ padded "DATA") ∨ reload > 255 → Answers s.dev .badArgument [])
      ∧ ∀ (q : PortId) (role : Role), q.val = n → reload ≤ 255 →
          (r = padded "MANAGER" ∧ role = .manager) ∨ (r = padded "DATA" ∧ role = .data) →
          let x := s.dev.port q
          let mine := (s.dev.taken p tag t).txns.filter fun e => e.1 / 32 = q.val
          let sole : Prop := x.role = .manager ∧ ∀ k : PortId, k ≠ q → (s.dev.port k).role = .data
          let y : Port := { x with role := role, reload := reload, counter := if reload = x.reload then x.counter else reload }
          (role = .data → sole → Answers s.dev .conflict [])
          ∧ (role = .manager ∨ ¬ sole → Answers { s.dev with ports := s.dev.ports.set q.val y q.isLt } .ok
              (List.flatten
                [ [.name (if x.link = .up then .up else .down), .name (if role = .manager then .manager else .data)
                    , .name (if x.fence = none then .clear else .fenced)]
                  , match x.fence with
                    | none => [.num 1 0, .raw (List.replicate 16 0)]
                    | some .liveness => [.num 1 1, .name .liveness]
                    | some .command => [.num 1 1, .name .command]
                  , [.num 2 reload, .num 1 y.counter, .num 1 mine.length], mine.map fun e => .num 1 (e.1 % 32) ])))
  ∧ (∀ (s : State) (p : PortId) (tag : Nat) (t : Txn) (n : Nat), s.Issued p tag .unfence t [.num n] →
      let Answers (d : Device) (st : MgmtStatus) (result : List Item) : Prop :=
        exec (.unfence p tag) s = .next { s with dev := d.answered p tag t st none result }
      (n > 3 → Answers s.dev .badArgument [])
      ∧ ∀ q : PortId, q.val = n →
          let x := s.dev.port q
          let last : Prop := x.role = .manager
            ∧ ∀ k : PortId, ¬ ((s.dev.port k).role = .manager ∧ (s.dev.port k).link = .up ∧ (s.dev.port k).fence = none)
          (q = p → x.fence ≠ none → ¬ last → Answers s.dev .fenced [])
          ∧ (x.fence ≠ none → q ≠ p ∨ last →
              Answers { s.dev with ports := s.dev.ports.set q.val { x with fence := none, counter := x.reload } q.isLt } .ok
                [.name .clear, .num 1 x.reload])
          ∧ (x.fence = none → Answers s.dev .ok [.name .clear, .num 1 x.counter]))


/-! ### The commands of the schedule clock -/

/-- R48, R49, R50, R52, R55, R186: TIME SET: refused for a date or time that the calendar lacks; a VALID clock takes the
time alone, and an INVALID one becomes VALID and gives each account of the undated set the loaded time plus its grace
hours as deadline, the grace list keeping its order. TIME READ answers with the calendar's fields, the weekday and the
validity, and changes nothing else. SCHEDULE SET replaces every field of the entry, or is refused and keeps it; SCHEDULE
READ answers with the eight entries as stored. The layout of the results is read from R186 (DEDUCED, entry 18); that no
count byte comes before the eight entries is the model's choice (DESIGN CHOICE, entry 18). -/
def Obligations.ClockCommands : Prop :=
  (∀ (s : State) (p : PortId) (tag : Nat) (t : Txn) (y mo dd h mi sec : Nat),
      s.Issued p tag .timeSet t [.num y, .num mo, .num dd, .num h, .num mi, .num sec] →
      let c : CalTime := { year := y, month := mo, day := dd, hour := h, minute := mi, second := sec }
      let date : Prop := 2000 ≤ y ∧ y ≤ 2199 ∧ 1 ≤ mo ∧ mo ≤ 12 ∧ 1 ≤ dd ∧ dd ≤ monthLength y mo
        ∧ h ≤ 23 ∧ mi ≤ 59 ∧ sec ≤ 59
      let loaded : Device := { s.dev with
        clock.time := c, clock.valid := true, clock.nextSecond := s.dev.clock.now + 1000 }
      (¬ date → exec (.timeSet p tag) s = .next { s with dev := s.dev.answered p tag t .badArgument none [] })
      ∧ (date → s.dev.clock.valid = true →
          exec (.timeSet p tag) s = .next { s with dev := loaded.answered p tag t .ok none [.time c] })
      ∧ (date → s.dev.clock.valid = false → ∃ u, exec (.timeSet p tag) s = .next u
          ∧ u.dev = { loaded.answered p tag t .ok none [.time c] with
              accounts := u.dev.accounts, clock.graceList := u.dev.clock.graceList, clock.undated := [] }
          ∧ (∀ a ∈ s.dev.clock.undated, u.dev.account a =
              { s.dev.account a with deadline := some (c.addHours (s.dev.account a).grace) })
          ∧ (∀ a, a ∉ s.dev.clock.undated → u.dev.account a = s.dev.account a)
          ∧ (∀ a, a ∈ u.dev.clock.graceList ↔ a ∈ s.dev.clock.graceList ∨ a ∈ s.dev.clock.undated)
          ∧ (s.dev.GraceInOrder → u.dev.GraceInOrder)))
  ∧ (∀ (s : State) (p : PortId) (tag : Nat) (t : Txn), s.Issued p tag .timeRead t [] →
      let c := s.dev.clock.time
      exec (.timeRead p tag) s = .next { s with
        dev := s.dev.answered p tag t .ok none
          [.num 2 c.year, .num 1 c.month, .num 1 c.day, .num 1 c.hour, .num 1 c.minute, .num 1 c.second
            , .num 1 c.weekday, .name (if s.dev.clock.valid then .valid else .invalid)] })
  ∧ ((∀ (s : State) (p : PortId) (tag : Nat) (t : Txn) (n enabled minute hour weekdays day : Nat) (action : List Byte),
      s.Issued p tag .scheduleSet t
        [.num n, .num enabled, .text action, .num minute, .num hour, .num weekdays, .num day] →
      let pattern (m : Nat) : Option Nat := if m = 255 then none else some m
      (n > 7 ∨ (action ≠ padded "WINDOW_OPEN" ∧ action ≠ padded "WINDOW_CLOSE" ∧ action ≠ padded "SCHEDULED_CUT")
        ∨ (minute > 59 ∧ minute ≠ 255) ∨ (hour > 23 ∧ hour ≠ 255) ∨ ((day = 0 ∨ day > 31) ∧ day ≠ 255)
        ∨ weekdays % 128 = 0 →
        exec (.scheduleSet p tag) s = .next { s with dev := s.dev.answered p tag t .badArgument none [] })
      ∧ ∀ (i : Fin 8) (act : Action), i.val = n →
        (action = padded "WINDOW_OPEN" ∧ act = .windowOpen) ∨ (action = padded "WINDOW_CLOSE" ∧ act = .windowClose)
          ∨ (action = padded "SCHEDULED_CUT" ∧ act = .scheduledCut) →
        (minute ≤ 59 ∨ minute = 255) → (hour ≤ 23 ∨ hour = 255) → ((1 ≤ day ∧ day ≤ 31) ∨ day = 255) →
        weekdays % 128 ≠ 0 →
        exec (.scheduleSet p tag) s = .next { s with
          dev := Device.answered { s.dev with
              clock.schedule := s.dev.clock.schedule.set i.val
                { enabled := decide (enabled ≠ 0), action := act, minute := pattern minute, hour := pattern hour
                  weekdays := BitVec.ofNat 7 weekdays, day := pattern day } i.isLt }
            p tag t .ok none [] })
    ∧ ∀ (s : State) (p : PortId) (tag : Nat) (t : Txn), s.Issued p tag .scheduleRead t [] →
      let entry (i : Fin 8) : List Item :=
        let e := s.dev.clock.schedule[i]
        [.num 1 (if e.enabled then 1 else 0)
          , .name (match e.action with
            | .windowOpen => .windowOpen
            | .windowClose => .windowClose
            | .scheduledCut => .scheduledCut)
          , .num 1 (e.minute.getD 255), .num 1 (e.hour.getD 255), .num 1 e.weekdays.toNat, .num 1 (e.day.getD 255)]
      exec (.scheduleRead p tag) s = .next { s with
        dev := s.dev.answered p tag t .ok none
          (entry 0 ++ entry 1 ++ entry 2 ++ entry 3 ++ entry 4 ++ entry 5 ++ entry 6 ++ entry 7) })

/-! ### The commands of the admission unit -/

/-- R37 to R40, R27, R34, R35, R52, R53: ACCOUNT LOAD: refused for a group above 1,023; otherwise the clamped limits and grace
hours, the group with its usage and held, and a carried usage are stored, the state is set by the first line of R38
that applies, with the account's place in the grace list and the undated set, the notices of an entry to grace are handed
over, and the armed flags are looked at. -/
def Obligations.AccountLoadStores : Prop :=
  ∀ (s : State) (p : PortId) (tag : Nat) (t : Txn) (n soft hard grace group present usage : Nat),
    s.Issued p tag .accountLoad t
      [.num n, .num soft, .num hard, .num grace, .num group, .num present, .num usage] →
    let a := s.dev.account n
    let S := if 0 < hard ∧ hard < soft then hard else soft
    let G := min grace 2160
    let u := if present = 0 then a.usage else usage
    let now := s.dev.clock.time
    let valid := s.dev.clock.valid
    let below : Prop := S = 0 ∨ u + a.held ≤ S
    let enters : Prop := ¬ below ∧ a.state = .under
    (group > 1023 →
      exec (.accountLoad p tag) s = .next { s with dev := s.dev.answered p tag t .badArgument none [] })
    ∧ (group ≤ 1023 → ∃ e, exec (.accountLoad p tag) s = .next e
        ∧ (let b := e.dev.account n
           let noted : Device :=
             if ¬ below ∧ a.state = .under then
               let d := s.dev.noted .quotaSoft (.account n) (.number (u + a.held))
               if G = 0 then d.noted .quotaExpired (.account n) (.number S) else d
             else s.dev
           e.dev = { noted.answered p tag t .ok none
               (List.flatten
                 [ [.num 4 S, .num 4 hard, .num 2 G, .num 2 group, .num 4 u, .num 4 a.held
                     , .name (match b.state with
                       | .under => .under
                       | .soft => .soft
                       | .expired => .expired)]
                   , match b.deadline with
                     | none => [.num 1 0, .raw (List.replicate 8 0)]
                     | some d => [.num 1 1, .time d]
                   , [.num 1 (if b.hardArmed then 1 else 0), .num 1 (if b.underflow then 1 else 0)] ]) with
             accounts := e.dev.accounts, groups := e.dev.groups
             clock.graceList := e.dev.clock.graceList, clock.undated := e.dev.clock.undated }
           ∧ b.soft = S ∧ b.hard = hard ∧ b.grace = G ∧ b.group = group ∧ b.usage = u ∧ b.held = a.held
           ∧ b.underflow = (if present = 0 then a.underflow else false)
           ∧ (below → b.state = .under ∧ b.deadline = none)
           ∧ (¬ below → a.state ≠ .under → b.state = a.state ∧ b.deadline = a.deadline)
           ∧ (enters → G = 0 → b.state = .expired ∧ b.deadline = none)
           ∧ (enters → G > 0 → b.state = .soft ∧ b.deadline = if valid then some (now.addHours G) else none)
           ∧ b.hardArmed = (a.hardArmed || decide (b.limit < 4294967295 ∧ u + a.held ≤ b.limit - b.limit / 16)))
        ∧ (∀ k, k ≠ n → e.dev.account k = s.dev.account k)
        ∧ (∀ k, k ≠ group → k ≠ a.group → e.dev.group k = s.dev.group k)
        ∧ (group = a.group → (e.dev.group group).usage = (s.dev.group group).usage + u - a.usage
            ∧ (e.dev.group group).held = (s.dev.group group).held)
        ∧ (group ≠ a.group → (e.dev.group group).usage = (s.dev.group group).usage + u
            ∧ (e.dev.group group).held = (s.dev.group group).held + a.held
            ∧ (e.dev.group a.group).usage = (s.dev.group a.group).usage - a.usage
            ∧ (e.dev.group a.group).held = (s.dev.group a.group).held - a.held)
        ∧ (∀ k, (e.dev.group k).limit = (s.dev.group k).limit)
        ∧ (∀ k, k = group ∨ k = a.group →
            let g := e.dev.group k
            g.fullArmed = ((s.dev.group k).fullArmed
              || decide (g.limit = 0 ∨ g.usage + g.held ≤ g.limit - g.limit / 16)))
        ∧ (let kept (l : List Nat) : List Nat := l.filter fun k => k ≠ n
           let grace := e.dev.clock.graceList
           let undated := e.dev.clock.undated
           (below → grace = kept s.dev.clock.graceList ∧ undated = kept s.dev.clock.undated)
           ∧ (¬ below → ¬ (enters ∧ G > 0) → grace = s.dev.clock.graceList ∧ undated = s.dev.clock.undated)
           ∧ (enters → G > 0 → valid = true →
               e.dev.JoinedGrace n s.dev.clock.graceList grace ∧ undated = s.dev.clock.undated)
           ∧ (enters → G > 0 → valid = false → grace = s.dev.clock.graceList
               ∧ ∃ before after, kept s.dev.clock.undated = before ++ after ∧ undated = before ++ n :: after
                 ∧ (∀ k ∈ before, k < n) ∧ ∀ k, after.head? = some k → n < k)))

/-- R24, R35, R41, R42, R186: GROUP LOAD: its refusals, and the storing of the limit with the check of the full notice;
usage and held stay, and no other group changes. ACCOUNT READ and GROUP READ answer with the record, an account's with
its effective limit, or are refused for a number out of range, and change nothing else. -/
def Obligations.GroupLoadAndQuotaReads : Prop :=
  (∀ (s : State) (p : PortId) (tag : Nat) (t : Txn) (n limit : Nat), s.Issued p tag .groupLoad t [.num n, .num limit] →
      let g := s.dev.group n
      let armed := g.fullArmed || decide (limit = 0 ∨ g.usage + g.held ≤ limit - limit / 16)
      (n > 1023 ∨ limit > 281474976710655 ∨ (n = 0 ∧ limit > 0) →
        exec (.groupLoad p tag) s = .next { s with dev := s.dev.answered p tag t .badArgument none [] })
      ∧ (n ≤ 1023 → limit ≤ 281474976710655 → (n ≠ 0 ∨ limit = 0) → ∃ e, exec (.groupLoad p tag) s = .next e
          ∧ e.dev = { s.dev.answered p tag t .ok none
              [.num 8 limit, .num 8 g.usage, .num 8 g.held, .num 1 (if armed then 1 else 0)] with
            groups := e.dev.groups }
          ∧ e.dev.group n = { limit := limit, usage := g.usage, held := g.held, fullArmed := armed }
          ∧ ∀ k, k ≠ n → e.dev.group k = s.dev.group k))
  ∧ (∀ (s : State) (p : PortId) (tag : Nat) (t : Txn) (n : Nat),
      (s.Issued p tag .accountRead t [.num n] →
        let a := s.dev.account n
        let limit := if a.state = .expired ∧ a.soft > 0 then a.soft else if a.hard > 0 then a.hard else 4294967295
        (n > 65535 → exec (.accountRead p tag) s = .next { s with dev := s.dev.answered p tag t .badArgument none [] })
        ∧ (n ≤ 65535 → exec (.accountRead p tag) s = .next { s with
            dev := s.dev.answered p tag t .ok none
              ([.num 4 a.soft, .num 4 a.hard, .num 2 a.grace, .num 2 a.group, .num 4 a.usage, .num 4 a.held
                , .name (match a.state with
                  | .under => .under
                  | .soft => .soft
                  | .expired => .expired)]
              ++ (match a.deadline with
                  | none => [.num 1 0, .raw (List.replicate 8 0)]
                  | some d => [.num 1 1, .time d])
              ++ [.num 4 limit, .num 1 (if a.hardArmed then 1 else 0), .num 1 (if a.underflow then 1 else 0)]) }))
      ∧ (s.Issued p tag .groupRead t [.num n] →
        let g := s.dev.group n
        (n > 1023 → exec (.groupRead p tag) s = .next { s with dev := s.dev.answered p tag t .badArgument none [] })
        ∧ (n ≤ 1023 → exec (.groupRead p tag) s = .next { s with
            dev := s.dev.answered p tag t .ok none
              [.num 8 g.limit, .num 8 g.usage, .num 8 g.held, .num 1 (if g.fullArmed then 1 else 0)] })))
/-! ### The commands of the volume unit -/

/-- R60: PRESERVE AREA: its refusals, and the setting of the area with the free queue filled with slots 0 to N - 1. -/
def Obligations.PreserveAreaSets : Prop :=
  ∀ (s : State) (p : PortId) (tag : Nat) (t : Txn) (base n : Nat),
    s.Issued p tag .preserveArea t [.num base, .num n] →
    let bad : Prop := n = 0 ∨ n > 4194304 ∨ base + 8 * n - 1 > 68719476735
    let Answers (d : Device) (st : MgmtStatus) (result : List Item) : Prop :=
      exec (.preserveArea p tag) s = .next { s with dev := d.answered p tag t st none result }
    (bad → Answers s.dev .badArgument [])
    ∧ (¬ bad → s.dev.volumes ≠ [] → Answers s.dev .conflict [])
    ∧ (¬ bad → s.dev.volumes = [] → Answers
        { s.dev with area := some { base := base, slots := n }, pres.free := List.range n } .ok [.num 8 base, .num 4 n])

/-- R62, R63, R61: VOLUME DEFINE: the six checks in their order, and the record of a PREPARING volume; its transaction
stays open until the fill ends. -/
def Obligations.VolumeDefineStarts : Prop :=
  ∀ (s : State) (p : PortId) (tag : Nat) (t : Txn) (v base capacity reserve imp anchor : Nat),
    s.Issued p tag .volumeDefine t
      [.num v, .num base, .num capacity, .num reserve, .num imp, .num anchor] →
    let bad : Prop := v = 0 ∨ v > 64 ∨ capacity = 0 ∨ capacity > 2147483648 ∨ reserve > 4194304
      ∨ base + 8 * capacity - 1 > 68719476735
    let shares (a n : Nat) : Prop := base < a + n ∧ a < base + 8 * capacity
    let total (f : Volume → Nat) : Nat := (s.dev.volumes.map fun e => f e.2).sum
    let Refused (st : MgmtStatus) : Prop :=
      exec (.volumeDefine p tag) s = .next { s with dev := s.dev.answered p tag t st none [] }
    (bad → Refused .badArgument)
    ∧ (¬ bad → s.dev.volume? v ≠ none → Refused .conflict)
    ∧ (¬ bad → s.dev.volume? v = none → s.dev.area = none → Refused .conflict)
    ∧ ∀ a, s.dev.area = some a → ¬ bad → s.dev.volume? v = none →
        let overlap : Prop := shares a.base (8 * a.slots) ∨ ∃ e ∈ s.dev.volumes, shares e.2.base (8 * e.2.capacity)
        (overlap → Refused .conflict)
        ∧ (¬ overlap → total Volume.capacity + capacity > 2147483648 → Refused .full)
        ∧ (¬ overlap → total Volume.capacity + capacity ≤ 2147483648 → total Volume.reserve + reserve > a.slots →
            Refused .full)
        ∧ (¬ overlap → total Volume.capacity + capacity ≤ 2147483648 → total Volume.reserve + reserve ≤ a.slots →
            exec (.volumeDefine p tag) s = .next { s with dev := { s.dev.taken p tag t with
              volumes := s.dev.volumes.insert v
                { state := .preparing, base := base, capacity := capacity, epoch := 2, reserve := reserve, slotsHeld := 0
                  reserveArmed := true, cut := none, inFlight := 0, retention := 0, enrolment := .none, target := none
                  anchor := if anchor = 0 then 0 else 1, report := none, fill := if imp = 0 then 0 else 1
                  grains := [], snapshots := [], slotWait := [], sweeps := [], sweepAt := none, sweepFreed := 0
                  answers := some { port := p, tag := tag } } } })

/-- R74, R113, R61, R97, R98, R186: VOLUME READ and SNAPSHOT LIST: refused for a number outside 1 to 64; an UNDEFINED
volume answers with its state and every other field absent; nothing else changes. The layout of the results is read
from R186 (DEDUCED, entry 18); that SNAPSHOT LIST sends whether a sweep runs or waits as a presence byte and the name
RUNNING or WAITING is the model's choice (DESIGN CHOICE, entry 18). -/
def Obligations.VolumeReadsAnswer : Prop :=
  ∀ (s : State) (p : PortId) (tag : Nat) (t : Txn) (v : Nat),
    let x := s.dev.volume? v
    let state : Item := .name (match x with
      | none => .undefined
      | some x => match x.state with
        | .preparing => .preparing
        | .ready => .ready
        | .removing => .removing)
    let cutting (x : Volume) : Name := if x.cut = none then .idle else .cutting
    (s.Issued p tag .volumeRead t [.num v] →
      (v = 0 ∨ v > 64 → exec (.volumeRead p tag) s = .next { s with dev := s.dev.answered p tag t .badArgument none [] })
      ∧ (1 ≤ v → v ≤ 64 → exec (.volumeRead p tag) s = .next { s with
          dev := s.dev.answered p tag t .ok none
            ([state] ++ Item.optNum 8 (x.map fun x => x.base) ++ Item.optNum 4 (x.map fun x => x.capacity)
            ++ Item.optNum 4 (x.map fun x => x.epoch) ++ Item.optNum 4 (x.map fun x => x.reserve)
            ++ Item.optNum 4 (x.map fun x => x.slotsHeld)
            ++ Item.optNum 1 (x.map fun x => if x.reserveArmed then 1 else 0) ++ Item.optName (x.map cutting)
            ++ Item.optNum 1 (x.map fun x => x.inFlight) ++ Item.optNum 1 (x.map fun x => x.retention)
            ++ Item.optName (x.map fun x => x.enrolment.name) ++ Item.optNum 2 (x.bind fun x => x.target)
            ++ Item.optNum 4 (x.map fun x => x.anchor)
            ++ (match x.bind fun x => x.report with
                | none => [.num 1 0, .raw (List.replicate 51 0)]
                | some r => [.num 1 1, .name r.outcome.name] ++ Item.optNum 4 r.snapshot ++ [.num 4 r.sent]
                    ++ Item.optName (r.reason.map PassReason.name) ++ Item.optTime r.endTime)
            ++ Item.optNum 4 (x.map fun _ => (s.dev.pres.map.filter fun e => e.volume = v).length)
            ++ Item.optNum 2 (x.map fun _ => (s.dev.pres.table.filter fun e => e.2.volume = v).length)) }))
    ∧ (s.Issued p tag .snapshotList t [.num v] →
      (v = 0 ∨ v > 64 → exec (.snapshotList p tag) s = .next { s with dev := s.dev.answered p tag t .badArgument none [] })
      ∧ (1 ≤ v → v ≤ 64 →
          let record (x : Volume) (n : Snapshot) : List Item :=
            [.num 4 n.number, .name n.kind.name] ++ Item.optTime n.cutTime
            ++ [.name (if n.state = .active then .active else .retiring), .num 1 n.pins]
            ++ Item.optName (if n.state = .retiring then
                some (if x.sweeps.head? = some n.number then .running else .waiting) else none)
          exec (.snapshotList p tag) s = .next { s with
            dev := s.dev.answered p tag t .ok none
              ([state] ++ Item.optNum 4 (x.map fun x => x.epoch) ++ Item.optName (x.map cutting)
              ++ Item.optNum 2 (x.map fun _ => (s.dev.heldOf v).length) ++ Item.optNum 1 (x.map fun x => x.retention)
              ++ (match x with
                  | none => [.num 1 0]
                  | some x => .num 1 x.snapshots.length :: (x.snapshots.map (record x)).flatten)) }))

/-- R72, R73: VOLUME REMOVE: the four checks in their order; an accepted one makes the volume REMOVING with its
transaction open, or, when the three conditions hold already, ends the removal at once: the volume's entries leave the
map, their slots join the free queue in map order, and the answer carries their number. -/
def Obligations.VolumeRemoveStarts : Prop :=
  ∀ (s : State) (p : PortId) (tag : Nat) (t : Txn) (v : Nat), s.Issued p tag .volumeRemove t [.num v] →
    let Refused (st : MgmtStatus) : Prop :=
      exec (.volumeRemove p tag) s = .next { s with dev := s.dev.answered p tag t st none [] }
    (v = 0 ∨ v > 64 → Refused .badArgument)
    ∧ (1 ≤ v → v ≤ 64 → s.dev.volume? v = none → Refused .notFound)
    ∧ ∀ x, 1 ≤ v → v ≤ 64 → s.dev.volume? v = some x →
        let wanted : Prop := (∃ n ∈ x.snapshots, n.pins > 0) ∨ (∃ e ∈ s.dev.dup.queue, e.volume = v)
          ∨ (∃ q, s.dev.dup.pass = some q ∧ q.volume = v)
          ∨ ∃ r ∈ s.dev.copy.restores, r.state ≠ .ended ∧ ∃ e ∈ r.extents, e.destVolume = v
        let atEnd : Prop := x.inFlight = 0 ∧ (∀ n ∈ x.snapshots, n.state = .active)
          ∧ ∀ e ∈ s.dev.pres.table, e.2.volume ≠ v
        let mine := s.dev.pres.map.filter fun e => e.volume = v
        (x.state ≠ .ready ∨ x.cut ≠ none → Refused .busy)
        ∧ (x.state = .ready → x.cut = none → wanted → Refused .conflict)
        ∧ (x.state = .ready → x.cut = none → ¬ wanted → ¬ atEnd →
            exec (.volumeRemove p tag) s = .next { s with dev := { s.dev.taken p tag t with
              volumes := s.dev.volumes.insert v { x with state := .removing, answers := some { port := p, tag := tag } } } })
        ∧ (x.state = .ready → x.cut = none → ¬ wanted → atEnd →
            exec (.volumeRemove p tag) s = .next { s with
              dev := Device.answered { s.dev with
                  pres.map := s.dev.pres.map.filter fun e => e.volume ≠ v
                  pres.free := s.dev.pres.free ++ mine.map PreserveEntry.slot
                  volumes := s.dev.volumes.erase v }
                p tag t .ok none [.num 4 mine.length] })

/-- R70, R71, R87: RESERVE SET: the checks in their order; the limit and the retention are stored, then the RESERVE_LOW
check and the re-arm check run for the new limit, and the slot-wait queue is looked at: it stands while it is empty, while
no slot is free or while the volume is at its new limit; otherwise its head takes the head of the free queue, and where
that leaves the volume at its limit or either queue empty, no other does. -/
def Obligations.ReserveSetStores : Prop :=
  ∀ (s : State) (p : PortId) (tag : Nat) (t : Txn) (v limit retention : Nat),
    s.Issued p tag .reserveSet t [.num v, .num limit, .num retention] →
    let bad : Prop := v = 0 ∨ v > 64 ∨ limit > 4194304 ∨ retention > 15
    let slots := match s.dev.area with
      | none => 0
      | some a => a.slots
    let Refused (st : MgmtStatus) : Prop :=
      exec (.reserveSet p tag) s = .next { s with dev := s.dev.answered p tag t st none [] }
    (bad → Refused .badArgument)
    ∧ (¬ bad → s.dev.volume? v = none → Refused .notFound)
    ∧ ∀ x, ¬ bad → s.dev.volume? v = some x →
        let total := (s.dev.volumes.map fun e => e.2.reserve).sum
        let low : Prop := x.reserveArmed = true ∧ limit > 0 ∧ x.slotsHeld ≥ limit - limit / 8
        let armed : Bool := if low then false else x.reserveArmed
        let y : Volume := { x with
          reserve := limit, retention := retention
          reserveArmed := armed || decide (x.slotsHeld ≤ limit - limit / 4) }
        let e : Device := if low then s.dev.noted .reserveLow (.volume v) (.number x.slotsHeld) else s.dev
        let f : Device := Device.answered { e with volumes := s.dev.volumes.insert v y } p tag t .ok none
          [.num 4 limit, .num 1 retention, .num 4 x.slotsHeld]
        (x.state = .removing → Refused .notFound)
        ∧ (x.state ≠ .removing → limit < x.slotsHeld → Refused .conflict)
        ∧ (x.state ≠ .removing → limit ≥ x.slotsHeld → total - x.reserve + limit > slots → Refused .full)
        ∧ (x.state ≠ .removing → limit ≥ x.slotsHeld → total - x.reserve + limit ≤ slots →
            exec (.reserveSet p tag) s = .next { s with dev := settle (f, [.serveSlots v]) }
            ∧ ((x.slotWait = [] ∨ s.dev.pres.free = [] ∨ limit = x.slotsHeld) →
              exec (.reserveSet p tag) s = .next { s with dev := f })
            ∧ ∀ g waits m base q slot frees, x.slotWait = g :: waits → g ∉ waits → s.dev.entry? v g = some m →
              m.phase = .slotWait base q → s.dev.pres.free = slot :: frees → limit > x.slotsHeld →
              s.dev.pool.link = .up → limit = x.slotsHeld + 1 ∨ waits = [] ∨ frees = [] →
              exec (.reserveSet p tag) s = .next { s with dev := f.slotServed v g y m base q slot waits frees })

/-! ### The commands of the snapshot unit -/

/-- R99, R100, R103: CUT: the checks in their order; an accepted cut makes the volume CUTTING with its record, the list
giving room HAVE below 16 records; with no write in flight it completes at the same event, appends its record, raises E
and answers. Here no write of the volume is held (the release of held writes is CutsEnd) and no pass waits to cut it. -/
def Obligations.CutStarts : Prop :=
  ∀ (s : State) (p : PortId) (tag : Nat) (t : Txn) (v drain : Nat), s.Issued p tag .cut t [.num v, .num drain] →
    let Refused (st : MgmtStatus) : Prop :=
      exec (.cut p tag) s = .next { s with dev := s.dev.answered p tag t st none [] }
    let bad : Prop := v = 0 ∨ v > 64 ∨ drain > 255
    let stamp := if s.dev.clock.valid then some s.dev.clock.time else none
    (bad → Refused .badArgument)
    ∧ (¬ bad → s.dev.volume? v = none → Refused .notFound)
    ∧ ∀ x, ¬ bad → s.dev.volume? v = some x →
        let loose (n : Snapshot) : Prop := n.state = .active ∧ n.pins = 0 ∧ n.kind = .scheduled
        let full : Prop := x.snapshots.length ≥ 16 ∧ ∀ n ∈ x.snapshots, n.state = .active ∧ ¬ loose n
        let record : CutRecord := { kind := .manual, requester := .command { port := p, tag := tag }, acceptedAt := stamp
                                    drainEnds := s.dev.clock.now + 100 * (if drain = 0 then 20 else drain), room := .have }
        (x.state = .removing → Refused .notFound)
        ∧ (x.state = .preparing ∨ (x.state = .ready ∧ x.cut ≠ none) → Refused .busy)
        ∧ (x.state = .ready → x.cut = none → x.epoch = 16777215 → Refused .exhausted)
        ∧ (x.state = .ready → x.cut = none → x.epoch ≠ 16777215 → full → Refused .full)
        ∧ (x.state = .ready → x.cut = none → x.epoch ≠ 16777215 → x.snapshots.length < 16 → x.inFlight > 0 →
            exec (.cut p tag) s = .next { s with dev := { s.dev.taken p tag t with
              volumes := s.dev.volumes.insert v { x with cut := some record } } })
        ∧ (x.state = .ready → x.cut = none → x.epoch ≠ 16777215 → x.snapshots.length ≥ 16 →
            (∃ n ∈ x.snapshots, n.state = .retiring) →
            exec (.cut p tag) s = .next { s with dev := { s.dev.taken p tag t with
              volumes := s.dev.volumes.insert v { x with cut := some { record with room := .waiting } } } })
        ∧ (x.state = .ready → x.cut = none → x.epoch ≠ 16777215 → x.snapshots.length ≥ 16 →
            (∀ n ∈ x.snapshots, n.state = .active) →
            ∀ k, x.snapshots.find? Snapshot.looseScheduled = some k →
            exec (.cut p tag) s = .next { s with dev := { s.dev.taken p tag t with
              volumes := s.dev.volumes.insert v { x.startRetirement k.number none with
                cut := some { record with room := .waiting } } } })
        ∧ (x.state = .ready → x.cut = none → x.epoch ≠ 16777215 → x.snapshots.length < 16 → x.inFlight = 0 →
            (∀ w ∈ s.dev.cutHold, ∀ j, s.dev.job? w = some j → j.volume ≠ v) →
            (∀ q, s.dev.dup.pass = some q → q.volume ≠ v ∨ q.state ≠ .cutting) →
            exec (.cut p tag) s = .next { s with
              dev := Device.answered { (s.dev.noted .cutDone (.volume v) (.number x.epoch)) with
                  volumes := s.dev.volumes.insert v { x with
                    snapshots := x.snapshots ++ [{ number := x.epoch, kind := .manual, cutTime := stamp, state := .active
                                                   pins := 0, answers := none }]
                    epoch := x.epoch + 1 } }
                p tag t .ok none [.num 4 x.epoch, .num 4 (x.epoch + 1), .num 2 0] })

/-- R107, R108: RETIRE: the checks in their order; an accepted one makes the snapshot RETIRING at the end of the sweep
order, its sweep beginning at once when none runs, with its transaction open. -/
def Obligations.RetireStarts : Prop :=
  ∀ (s : State) (p : PortId) (tag : Nat) (t : Txn) (v k : Nat), s.Issued p tag .retire t [.num v, .num k] →
    let Refused (st : MgmtStatus) : Prop :=
      exec (.retire p tag) s = .next { s with dev := s.dev.answered p tag t st none [] }
    (v = 0 ∨ v > 64 → Refused .badArgument)
    ∧ (1 ≤ v → v ≤ 64 → s.dev.volume? v = none → Refused .notFound)
    ∧ ∀ x, 1 ≤ v → v ≤ 64 → s.dev.volume? v = some x →
        (x.state ≠ .ready → Refused .notFound)
        ∧ (x.state = .ready → (∀ n ∈ x.snapshots, n.number ≠ k) → Refused .notFound)
        ∧ ∀ n, x.state = .ready → (x.snapshots.map Snapshot.number).Pairwise (· < ·) → n ∈ x.snapshots → n.number = k →
            (n.state = .retiring → Refused .busy)
            ∧ (n.state = .active → n.pins > 0 → Refused .conflict)
            ∧ (n.state = .active → n.pins = 0 →
                exec (.retire p tag) s = .next { s with dev := { s.dev.taken p tag t with
                  volumes := s.dev.volumes.insert v { x with
                    snapshots := x.snapshots.map fun m =>
                      if m.number = k then { m with state := .retiring, answers := some { port := p, tag := tag } } else m
                    sweeps := x.sweeps ++ [k]
                    sweepAt := if x.sweeps = [] then none else x.sweepAt
                    sweepFreed := if x.sweeps = [] then 0 else x.sweepFreed } } })

/-! ### Ports that lose their servers -/

/-- R162, R164, R165, R167, R2, R29, R30, R85: a link loss, a liveness expiry (standing alone, entry 5) and a FENCE of
another port, which is answered first, take the port's open work: every open transaction in ascending tag order, and
then what follows, in the model's order (entry 27). With none open only the port's record and its notice change. One
open transaction is discarded with its tag FREE while held or queued; a WRITE that was admitted gives back its charge
and leaves the count in flight and the entry it waits on, which gives up its wait for a slot when it has no other
waiter; one that is forwarded, or is a command, runs on with its answer no longer owed. That FENCE is answered before
what follows from it is settled is the model's choice (DESIGN CHOICE, entry 14). -/
def Obligations.PortWorkDiscarded : Prop :=
  ∀ (s : State) (q : PortId), s.dev.resetLow = false →
    let x := s.dev.port q
    let fenced (d : Device) (r : FenceReason) : Device := { d.noted .portFenced (.port q.val) (.name r.name) with
      ports := d.ports.set q.val { x with fence := some r, counter := 0 } q.isLt }
    (∀ (i : Instr) (e : Device) (done : Device → Device),
      (i = .serverLinkDown q ∧ x.link = .up ∧ done = id
          ∧ e = { s.dev with ports := s.dev.ports.set q.val { x with link := .down } q.isLt })
        ∨ (i = .livenessExpiry q ∧ x.link = .up ∧ x.fence = none ∧ x.reload > 0 ∧ x.counter = 0 ∧ done = id
          ∧ e = fenced s.dev .liveness)
        ∨ (∃ (p : PortId) (tag : Nat) (t : Txn), i = .fence p tag ∧ tag < 32 ∧ q ≠ p ∧ x.fence = none
          ∧ s.Issued p tag .fence t [.num q.val] ∧ e = fenced (s.dev.taken p tag t) .command
          ∧ done = fun d => d.answered p tag t .ok none [.name .fenced, .num 1 1, .name .command]) →
      let Ends (d : Device) : Prop := exec i s = .next { s with dev := done d }
      let mine := e.txns.filter fun f => f.1 / 32 = q.val
      let admitted := (mine.filter fun f =>
        f.2.job.stage = .admitting ∨ (f.2.job.stage = .queued ∧ f.2.kind = .write)).map fun f => f.2.job
      let later : List Task := (admitted.map fun j => j.waits.map (Task.giveUp j.volume)).flatten
        ++ admitted.map (fun j => Task.volumeCheck j.volume)
        ++ (admitted.filter fun j => j.charge.getD 0 ≠ 0).map fun j => Task.recheck j.account
      let discarded := mine.foldl (fun d f => d.discardTxn q (f.1 % 32) f.2) e
      exec i s = .next { s with dev := settle (done discarded, later) }
      ∧ (mine = [] → Ends e)
      ∧ ∀ (g : Nat) (y : Txn), g < 32 → mine = [(txnKey q g, y)] →
          let gone := e.txns.erase (txnKey q g)
          let requests := e.pool.pathQ.filter fun r => r.requester ≠ .server q g
          (y.job.stage = .held →
            Ends { e with txns := gone, cutHold := e.cutHold.filter fun w => w ≠ .server q g })
          ∧ (y.kind ≠ .write → y.job.stage = .queued → Ends { e with txns := gone, pool.pathQ := requests })
          ∧ (y.job.stage = .command ∨ (∃ k, y.job.stage = .forwarded k) →
              Ends { e with txns := e.txns.insert (txnKey q g) { y with owed := false } })
          ∧ ∀ z c, y.job.stage = .admitting ∨ (y.job.stage = .queued ∧ y.kind = .write) → y.job.charge = some c →
              s.dev.volume? y.job.volume = some z → z.cut = none → z.state ≠ .removing →
              let v := y.job.volume
              let f : Device := { e with
                txns := gone
                pool.pathQ := if y.job.stage = .queued then requests else e.pool.pathQ
                volumes := e.volumes.insert v { z with inFlight := z.inFlight - 1 } }
              (y.job.waits = [] → c = 0 → Ends f)
              ∧ (y.job.waits = [] → c > 0 → ∃ d : Device, Ends d
                  ∧ d = { f with accounts := d.accounts, groups := d.groups, clock := d.clock }
                  ∧ s.dev.Settled d y.job.account c (s.dev.account y.job.account).usage)
              ∧ ∀ k b, y.job.waits = [k] → c = 0 → s.dev.entry? v k = some b →
                  let left := b.waiters.filter fun w => w ≠ .server q g
                  let waits := z.slotWait.filter fun h => h ≠ k
                  ((∀ base p, b.phase ≠ .slotWait base p) ∨ left ≠ [] →
                    Ends { f with pres.table := e.pres.table.insert (pendKey v k) { b with waiters := left } })
                  ∧ (∀ base p, b.phase = .slotWait base p → left = [] → b.readers > 0 → Ends { f with
                      pres.table := e.pres.table.insert (pendKey v k) { b with phase := .reading, waiters := [] }
                      volumes := e.volumes.insert v { z with inFlight := z.inFlight - 1, slotWait := waits } })
                  ∧ (∀ base p, b.phase = .slotWait base p → left = [] → b.readers = 0 → e.pres.readerWait = [] →
                      Ends { f with
                        pres.table := e.pres.table.erase (pendKey v k)
                        volumes := e.volumes.insert v { z with inFlight := z.inFlight - 1, slotWait := waits } }))
    ∧ ∀ (p : PortId) (tag n : Nat) (t : Txn), s.Issued p tag .fence t [.num n] →
        let Answers (d : Device) (st : MgmtStatus) (result : List Item) : Prop :=
          exec (.fence p tag) s = .next { s with dev := d.answered p tag t st none result }
        (n > 3 → Answers s.dev .badArgument [])
        ∧ (n = p.val → Answers s.dev .conflict [])
        ∧ (n = q.val → q ≠ p → ∀ r, x.fence = some r →
            Answers s.dev .ok [.name .fenced, .num 1 1, .name r.name])

/-! ### The pool port -/

/-- R9, R10, R11, R12, R13, R178: a POOL DONE frees a BUSY tag and ends its transaction (a REFUSED one as
MEDIA_ERROR), a timeout quarantines the tag until 5 s after it, and either on any other tag changes nothing; the end
of a quarantine frees the tag and, with a PATH RESET pending, takes it from the set, the last one answering it. There
the transaction is a server READ and no request waits for a tag. The grant that follows a tag's freeing (R12), here
the end of its quarantine, the one FREE tag: the head of class PRESERVE takes any tag; with none, a reserved tag stays
FREE, and an unreserved one goes to the head of class PATH while the path streak is below 3 or none of class COPY
waits, else to the head of class COPY; the tag is BUSY from now on, its record FORWARDED and the request issued to the
pool. With several tags FREE a PRESERVE request takes the lowest reserved one, or else the lowest of the others. That
a timeout of a tag that is not BUSY, R13's race apart, and the end of a quarantine of a tag that is not QUARANTINED
change nothing is the model's choice (DESIGN CHOICE, entry 4). -/
def Obligations.PoolTransactionsEnd : Prop :=
  ∀ (s : State) (k : PoolTagId), s.dev.resetLow = false →
    let noneWaits : Prop := s.dev.pool.preserveQ = [] ∧ s.dev.pool.pathQ = [] ∧ s.dev.pool.copyQ = []
    let withTag (x : PoolTag) (now : Nat) : Device :=
      { s.dev with pool.tags := s.dev.pool.tags.set k.val x k.isLt, clock.now := max s.dev.clock.now now }
    ((∀ r m, s.dev.pool.tags[k] ≠ .busy r m) →
      exec (.poolTimeout k) s = .next s ∧ ∀ st data, exec (.poolDone k st data) s = .next s)
    ∧ ((∀ m, s.dev.pool.tags[k] ≠ .quarantined m) → exec (.quarantineEnd k) s = .next s)
    ∧ (∀ (p : PortId) (g m : Nat) (y : Txn), s.dev.pool.tags[k] = .busy (.server p g) m →
        s.dev.txn? p g = some y → y.kind = .read →
        exec (.poolTimeout k) s = .next { s with
          dev := (withTag (.quarantined (max s.dev.clock.now (m + 5000) + 5000)) (m + 5000)).ended p g y .timeout 0 [] }
        ∧ (noneWaits → ∀ st data, exec (.poolDone k st data) s = .next { s with
            dev := (withTag .free 0).ended p g y (if st = .ok then .ok else .mediaError) 0
              (if st = .ok then data else []) }))
    ∧ (∀ m, s.dev.pool.tags[k] = .quarantined m → noneWaits →
        (s.dev.mgmt.pathReset = none → exec (.quarantineEnd k) s = .next { s with dev := withTag .free m })
        ∧ ∀ r, s.dev.mgmt.pathReset = some r →
          let left := r.left.filter fun j => j ≠ k
          (left ≠ [] → exec (.quarantineEnd k) s = .next { s with
            dev := { withTag .free m with mgmt.pathReset := some { r with left := left } } })
          ∧ (∀ u, left = [] → s.dev.txn? r.txn.port r.txn.tag = some u →
            exec (.quarantineEnd k) s = .next { s with
              dev := Device.answered { withTag .free m with mgmt.pathReset := none } r.txn.port r.txn.tag u .ok none
                [.num 1 r.aborted, .num 1 r.restores, .num 1 (if r.passEnded then 1 else 0)] }))
    ∧ (∀ m, s.dev.pool.tags[k] = .quarantined m → s.dev.mgmt.pathReset = none →
        let d := withTag .free m
        let sole : Prop := ∀ j, j ≠ k → s.dev.pool.tags[j] ≠ .free
        let Issues (t : PoolTagId) (r : PoolRequest) (e : Device) : Prop :=
          exec (.quarantineEnd k) s = .next { s with dev := { e with
            pool.tags := d.pool.tags.set t.val (.busy r.requester d.clock.now) t.isLt
            out := s.dev.out ++ [.pool t r.op] } }
        (∀ r rest, sole → s.dev.pool.preserveQ = r :: rest → r.requester.isPreserve = true →
          Issues k r { d with pool.preserveQ := rest })
        ∧ (sole → s.dev.pool.preserveQ = [] → k.val ≥ 60 → exec (.quarantineEnd k) s = .next { s with dev := d })
        ∧ (∀ r rest p g y, sole → s.dev.pool.preserveQ = [] → k.val ≤ 59 → s.dev.pool.pathQ = r :: rest →
            r.requester = .server p g → s.dev.txn? p g = some y → s.dev.pool.copyQ = [] ∨ s.dev.pool.streak < 3 →
            Issues k r { d with
              pool.pathQ := rest, pool.streak := if s.dev.pool.copyQ = [] then 0 else s.dev.pool.streak + 1
              txns := s.dev.txns.insert (txnKey p g) { y with job := { y.job with stage := .forwarded k } } })
        ∧ (∀ r rest j z, sole → s.dev.pool.preserveQ = [] → k.val ≤ 59 → s.dev.pool.copyQ = r :: rest →
            r.requester = .slot j → s.dev.slot? j = some z → s.dev.pool.pathQ = [] ∨ s.dev.pool.streak ≥ 3 →
            (z.phase = .reading → Issues k r { d with pool.copyQ := rest, pool.streak := 0 })
            ∧ ∀ b due, z.phase = .writing b due → Issues k r { d with
                pool.copyQ := rest, pool.streak := 0
                copy.slots := s.dev.copy.slots.set j.val
                  (some { z with phase := .writing { b with stage := .forwarded k } due }) j.isLt })
        ∧ ∀ r t, s.dev.pool.preserveQ = [r] → s.dev.pool.pathQ = [] → s.dev.pool.copyQ = [] →
            r.requester.isPreserve = true →
            let Lowest (lo hi : Nat) : Prop := lo ≤ t.val ∧ t.val ≤ hi ∧ d.pool.tags[t] = .free
              ∧ ∀ j : PoolTagId, lo ≤ j.val → j < t → d.pool.tags[j] ≠ .free
            Lowest 60 63 ∨ (Lowest 0 59 ∧ ∀ j : PoolTagId, 60 ≤ j.val → d.pool.tags[j] ≠ .free) →
            Issues t r { d with pool.preserveQ := [] })

/-- R9, R28, R29, R30, R34, R35, R52, R66: the POOL DONE of a WRITE with a charge, of a volume neither CUTTING nor REMOVING
and with no request waiting: the tag is FREE, the volume's count of writes in flight falls, the completion carries the
charge after an OK and 0 otherwise; the charge leaves held and, after an OK, joins usage up to its greatest value, in the
account and its group; the account's state is checked again, with the grace list and the undated set, and the armed
flags of the account and its group; their other fields, and every other account and group, stay as they are. -/
def Obligations.WriteEndSettlesCharge : Prop :=
  ∀ (s : State) (k : PoolTagId) (p : PortId) (g m c : Nat) (y : Txn) (z : Volume) (st : PoolStatus) (data : List Byte),
    s.dev.resetLow = false → s.dev.pool.tags[k] = .busy (.server p g) m → s.dev.txn? p g = some y → y.kind = .write →
    y.job.charge = some c → 0 < c → y.job.waits = [] → s.dev.volume? y.job.volume = some z → z.cut = none →
    z.state ≠ .removing → s.dev.pool.preserveQ = [] → s.dev.pool.pathQ = [] → s.dev.pool.copyQ = [] →
    let a := s.dev.account y.job.account
    let u := if st = .ok then min (a.usage + c) 4294967295 else a.usage
    ∃ t, exec (.poolDone k st data) s = .next t
      ∧ t.dev = Device.ended { s.dev with
          pool.tags := s.dev.pool.tags.set k.val .free k.isLt
          volumes := s.dev.volumes.insert y.job.volume { z with inFlight := z.inFlight - 1 }
          accounts := t.dev.accounts, groups := t.dev.groups, clock := t.dev.clock }
          p g y (if st = .ok then .ok else .mediaError) (if st = .ok then c else 0) []
      ∧ s.dev.Settled t.dev y.job.account c u

/-- R14, R10, R11, R29, R86, R124, R127: the loss of the pool link: every BUSY tag is quarantined for 5 s, every
request is withdrawn, POOL_DOWN carries the number of transactions ended, and each of them ends with POOL_DOWN; with
the link already DOWN nothing changes, which is the model's choice (DESIGN CHOICE, entry 4). The order of the ends and
of the notice is open: the model's is some order of them, its index of free values moving on by their number, each
with what it gives rise to (`settle`) before the next (entries 10 and 14). Where one transaction or request is all
there is, the part comes to one state whichever comes first: a server READ ends, a WRITE ends with its charge released
(R29), here of a volume neither CUTTING nor REMOVING, a preservation fails and its slot goes back (R86), here with no
reader and no waiter, and a restore read fails (R124), here with other copies of its restore in flight. -/
def Obligations.PoolLinkLost : Prop :=
  ∀ s : State, s.dev.resetLow = false →
    let busy : List Requester := (List.finRange 64).filterMap fun t =>
      match s.dev.pool.tags[t] with
      | .busy r _ => some r
      | _ => none
    let waiting : List PoolRequest := s.dev.pool.preserveQ ++ s.dev.pool.pathQ ++ s.dev.pool.copyQ
    let work : List Requester := busy ++ waiting.map PoolRequest.requester
    let lost : Device := { s.dev with
      pool.link := .down, pool.preserveQ := [], pool.pathQ := [], pool.copyQ := []
      pool.tags := s.dev.pool.tags.map fun t =>
        match t with
        | .busy _ _ => .quarantined (s.dev.clock.now + 5000)
        | t => t
      freeIndex := s.dev.freeIndex + work.length }
    let told : Device := lost.noted .poolDown .absent (.number work.length)
    let To (d : Device) : Prop := exec .poolLinkDown s = .next { s with dev := d }
    (s.dev.pool.link = .down → exec .poolLinkDown s = .next s)
    ∧ (s.dev.pool.link = .up →
        (∃ order : List Task, order.Perm (.notePoolDown work.length :: work.map fun r => .poolEnd r .poolDown [])
          ∧ To (settle (lost, order)))
        ∧ (work = [] → To told)
        ∧ (∀ p g y, work = [.server p g] → s.dev.txn? p g = some y → y.kind = .read → To (told.ended p g y .poolDown 0 []))
        ∧ (∀ p g y c z, work = [.server p g] → s.dev.txn? p g = some y → y.kind = .write → y.job.charge = some c →
            y.job.waits = [] → s.dev.volume? y.job.volume = some z → z.cut = none → z.state ≠ .removing →
            ∃ e : Device, e = { told with accounts := e.accounts, groups := e.groups, clock := e.clock }
              ∧ (c = 0 → e = told)
              ∧ (0 < c → s.dev.Settled e y.job.account c (s.dev.account y.job.account).usage)
              ∧ To (Device.ended { e with
                  volumes := s.dev.volumes.insert y.job.volume { z with inFlight := z.inFlight - 1 } }
                  p g y .poolDown 0 []))
        ∧ (∀ v g e x b q slot, work = [.preserve v g] → s.dev.entry? v g = some e → e.readers = 0 → e.waiters = [] →
            e.phase = .preserving b q slot ∨ (∃ data, e.phase = .storing b q slot data) → s.dev.volume? v = some x →
            x.state ≠ .removing → x.slotWait = [] → s.dev.pres.readerWait = [] →
            let n := x.slotsHeld - 1
            To { told with
              volumes := s.dev.volumes.insert v { x with
                slotsHeld := n, reserveArmed := x.reserveArmed || decide (n ≤ x.reserve - x.reserve / 4) }
              pres.free := s.dev.pres.free ++ [slot]
              pres.table := s.dev.pres.table.erase (pendKey v g) })
        ∧ (∀ j z n v id r before after i, work = [.slot j] → s.dev.slot? j = some z → z.phase = .reading →
            z.image = .slot n v → z.stream = .restore id → s.dev.copy.restores = before ++ r :: after → r.id = id →
            (∀ q ∈ before ++ after, q.id ≠ id ∧ q.state ≠ .running) → r.state = .running → r.cancel = false →
            r.current = some i → r.outcomes[i]? = some .running → r.inFlight ≥ 2 → s.dev.dup.pass = none →
            To { told with
              copy.slots := s.dev.copy.slots.set j.val none j.isLt
              copy.restores := before ++
                { r with inFlight := r.inFlight - 1, outcomes := r.outcomes.set i (.failed .poolDown) } :: after }))

/-! ### Ticks of the reference oscillator -/

/-- R44, R45: leap years and month lengths; the dates and times of the calendar, a day that its month lacks not among
them; the carry of a day by those lengths; and the weekday of the date n days after 2000-01-01. -/
def Obligations.CalendarLengthsAndWeekday : Prop :=
  (∀ y m : Nat, 1 ≤ m → m ≤ 12 → monthLength y m =
      if m = 2 then (if (4 ∣ y ∧ ¬ (100 ∣ y ∧ ¬ 400 ∣ y)) then 29 else 28)
      else if m = 4 ∨ m = 6 ∨ m = 9 ∨ m = 11 then 30 else 31)
    ∧ (∀ t : CalTime, t.valid = true ↔ 2000 ≤ t.year ∧ t.year ≤ 2199 ∧ 1 ≤ t.month ∧ t.month ≤ 12 ∧ 1 ≤ t.day
        ∧ t.day ≤ monthLength t.year t.month ∧ t.hour ≤ 23 ∧ t.minute ≤ 59 ∧ t.second ≤ 59)
    ∧ (∀ t : CalTime, t.nextDay = if t.day < monthLength t.year t.month then { t with day := t.day + 1 }
        else if t.month < 12 then { t with month := t.month + 1, day := 1 }
        else { t with year := t.year + 1, month := 1, day := 1 })
    ∧ ∀ n : Nat, (CalTime.origin.addDays n).weekday = (n + 5) % 7 + 1

/-- R51: a deadline G hours after T is what 3,600 G advances of R46 make of T, and at most the calendar's last second. -/
def Obligations.DeadlineIsHoursOfAdvances : Prop :=
  ∀ (t : CalTime) (g : Nat), t.valid = true →
    let u := CalTime.nextSecond^[3600 * g] t
    t.addHours g = if u.year > 2199 then
        { year := 2199, month := 12, day := 31, hour := 23, minute := 59, second := 59 }
      else u

/-- R46, R47, R32, R54 to R58, R99, R136: a second tick advances the calendar by one second with its carries, or wraps
it; with the clock INVALID it does nothing else. With it VALID the accounts at the front of the grace list whose
deadlines have been reached expire in their order, and at the second 0 of a minute the schedule entries that match
fire in entry order. A WINDOW_OPEN opens the window, queues the READY enrolled volumes that have no entry, in volume
order, and a pass may start, here on a volume whose cut is accepted and drains. A WINDOW_CLOSE closes the window, with
WINDOW_OVERRUN while a pass runs. A SCHEDULED_CUT asks each READY volume whose retention is at least 1 for a cut in
volume order: a volume in a cut is skipped with CUT_FAILED, and a cut with nothing in flight completes. That every
volume has joined before a start is looked at, so that an entry that waits already keeps the head, is read from the
spec by inference (DEDUCED, entry 22). The wrap of a VALID clock hands over CLOCK_INVALID and makes the accounts of
the grace list undated. -/
def Obligations.SecondTickAdvances : Prop :=
  ∀ s : State, s.dev.resetLow = false →
    let k := s.dev.clock
    let c := k.time
    let last : CalTime := { year := 2199, month := 12, day := 31, hour := 23, minute := 59, second := 59 }
    let first : CalTime := { year := 2000, month := 1, day := 1, hour := 0, minute := 0, second := 0 }
    let d : CalTime :=
      if c.second < 59 then { c with second := c.second + 1 }
      else if c.minute < 59 then { c with second := 0, minute := c.minute + 1 }
      else if c.hour < 23 then { c with second := 0, minute := 0, hour := c.hour + 1 }
      else if c.day < monthLength c.year c.month then { c with second := 0, minute := 0, hour := 0, day := c.day + 1 }
      else if c.month < 12 then { c with second := 0, minute := 0, hour := 0, day := 1, month := c.month + 1 }
      else { c with second := 0, minute := 0, hour := 0, day := 1, month := 1, year := c.year + 1 }
    let ticked (time : CalTime) : Device := { s.dev with
      clock.time := time, clock.now := max k.now k.nextSecond, clock.nextSecond := k.nextSecond + 1000 }
    let later (l : List Nat) : Prop :=
      ∀ a, l.head? = some a → ∃ e, (s.dev.account a).deadline = some e ∧ d.rank < e.rank
    let matching (i : Fin 8) : Prop :=
      let e := k.schedule[i]
      e.enabled = true ∧ (e.minute = none ∨ e.minute = some d.minute) ∧ (e.hour = none ∨ e.hour = some d.hour)
        ∧ e.weekdays.getLsbD (d.weekday - 1) = true ∧ (e.day = none ∨ e.day = some d.day)
    let due : Prop := c ≠ last ∧ k.valid = true
    let sole (i : Fin 8) : Prop :=
      due ∧ later k.graceList ∧ d.second = 0 ∧ matching i ∧ ∀ j, j ≠ i → ¬ matching j
    let both (i j : Fin 8) : Prop :=
      due ∧ later k.graceList ∧ d.second = 0 ∧ i < j ∧ matching i ∧ matching j ∧ ∀ l, l ≠ i → l ≠ j → ¬ matching l
    let joined : List DupEntry :=
      (s.dev.volumes.filter fun e =>
        e.2.state = .ready ∧ e.2.enrolment ≠ .none ∧ ∀ q ∈ s.dev.dup.queue, q.volume ≠ e.1).map
      fun e => { volume := e.1, origin := .window }
    let opened : Device := { ticked d with clock.window := .opened, dup.queue := s.dev.dup.queue ++ joined }
    let noGrant : Prop := (∀ l, s.dev.slot? l ≠ none)
      ∨ ((∀ r ∈ s.dev.copy.restores, r.state ≠ .running) ∧ ∀ l ∈ s.dev.dup.staging, l.phase ≠ .ready)
    let cutOf (kind : CutKind) (r : CutRequester) : CutRecord :=
      { kind := kind, requester := r, acceptedAt := some d, drainEnds := max k.now k.nextSecond + 2000, room := .have }
    (c ≠ last → k.valid = false → exec .secondTick s = .next { s with dev := ticked d })
    ∧ (due → later k.graceList → d.second ≠ 0 ∨ (∀ i, ¬ matching i) →
        exec .secondTick s = .next { s with dev := ticked d })
    ∧ (∀ gone rest, due → d.second ≠ 0 ∨ (∀ i, ¬ matching i) → k.graceList = gone ++ rest → k.graceList.Nodup →
        (∀ a ∈ gone, ∃ e, (s.dev.account a).deadline = some e ∧ e.rank ≤ d.rank) → later rest →
        ∃ t, exec .secondTick s = .next t
          ∧ t = { s with dev := { ticked d with
              clock.graceList := rest, accounts := t.dev.accounts, groups := t.dev.groups
              mgmt := gone.foldl (fun m a => m.joined { kind := .quotaExpired, time := some d, subject := .account a
                                                        value := .number (s.dev.account a).soft }) s.dev.mgmt } }
          ∧ (∀ a ∈ gone,
              let x : Account := { s.dev.account a with state := .expired, deadline := none }
              t.dev.account a = { x with
                hardArmed := x.hardArmed || decide (x.limit < 4294967295 ∧ x.usage + x.held ≤ x.limit - x.limit / 16) })
          ∧ (∀ a, a ∉ gone → t.dev.account a = s.dev.account a)
          ∧ ∀ n,
              let g := s.dev.group n
              t.dev.group n = { g with
                fullArmed := g.fullArmed || decide ((∃ a ∈ gone, (s.dev.account a).group = n)
                  ∧ (g.limit = 0 ∨ g.usage + g.held ≤ g.limit - g.limit / 16)) })
    ∧ (∀ i, sole i → k.schedule[i].action = .windowOpen →
        (k.window = .opened → exec .secondTick s = .next { s with dev := ticked d })
        ∧ (k.window = .closed → s.dev.volumes.Sorted → noGrant →
          (s.dev.dup.pass ≠ none ∨ s.dev.dup.queue ++ joined = [] →
            exec .secondTick s = .next { s with dev := opened })
          ∧ ∀ e rest y, s.dev.dup.pass = none → s.dev.dup.queue ++ joined = e :: rest →
            s.dev.volume? e.volume = some y → y.state = .ready → y.cut = none → y.epoch < 16777215 →
            y.snapshots.length < 16 → y.inFlight > 0 →
            exec .secondTick s = .next { s with dev := { opened with
              dup.queue := rest.filter fun q => q.volume ≠ e.volume
              dup.pass := some {
                volume := e.volume, origin := e.origin, target := y.target.getD 0, anchor := y.anchor, snapshot := none
                state := .cutting, stopRequested := false, cursor := 0, sent := 0, nextSeq := 0, issuing := true
                backlog := [], resends := 0, startTime := some d, passEndWaits := false, passEndTimer := none }
              volumes := s.dev.volumes.insert e.volume { y with cut := some (cutOf .duplication .pass) } } }))
    ∧ (∀ i, sole i → k.schedule[i].action = .scheduledCut → s.dev.volumes.Sorted → s.dev.volumes.length ≤ 64 →
        let asked := s.dev.volumes.filter fun e => e.2.state = .ready ∧ 1 ≤ e.2.retention
        ((∀ e ∈ asked, e.2.cut ≠ none) →
          exec .secondTick s = .next { s with dev := { ticked d with
            mgmt := asked.foldl (fun m e => m.joined { kind := .cutFailed, time := some d, subject := .volume e.1
                                                       value := .name .busy }) s.dev.mgmt } })
        ∧ ∀ v y, asked = [(v, y)] → y.cut = none → y.epoch < 16777215 → y.snapshots.length < 16 →
          (y.inFlight > 0 → exec .secondTick s = .next { s with dev := { ticked d with
            volumes := s.dev.volumes.insert v { y with cut := some (cutOf .scheduled .schedule) } } })
          ∧ (y.inFlight = 0 → (∀ w ∈ s.dev.cutHold, ∀ j, s.dev.job? w = some j → j.volume ≠ v) →
            (∀ q, s.dev.dup.pass = some q → q.volume ≠ v ∨ q.state ≠ .cutting) →
            (y.snapshots.filter fun n => n.state = .active ∧ n.pins = 0 ∧ n.kind = .scheduled).length < y.retention →
            exec .secondTick s = .next { s with
              dev := { (ticked d).noted .cutDone (.volume v) (.number y.epoch) with
                volumes := s.dev.volumes.insert v { y with
                  epoch := y.epoch + 1
                  snapshots := y.snapshots ++ [{ number := y.epoch, kind := .scheduled, cutTime := some d
                                                 state := .active, pins := 0, answers := none }] } } }))
    ∧ (∀ i j p, both i j → noGrant → s.dev.volumes.Sorted → s.dev.dup.pass = some p →
        let late : Device := opened.noted .windowOverrun (.volume p.volume) (.number p.sent)
        (k.schedule[i].action = .windowOpen → k.schedule[j].action = .windowClose → k.window = .closed →
          exec .secondTick s = .next { s with dev := { late with clock.window := .closed } })
        ∧ (k.schedule[i].action = .windowClose → k.schedule[j].action = .windowOpen → k.window = .opened →
          exec .secondTick s = .next { s with dev := late }))
    ∧ (∀ i, sole i → k.schedule[i].action = .windowClose →
        (k.window = .closed → exec .secondTick s = .next { s with dev := ticked d })
        ∧ (k.window = .opened → s.dev.dup.pass = none →
          exec .secondTick s = .next { s with dev := { ticked d with clock.window := .closed } })
        ∧ (∀ p, k.window = .opened → s.dev.dup.pass = some p →
          exec .secondTick s = .next { s with
            dev := { (ticked d).noted .windowOverrun (.volume p.volume) (.number p.sent) with
              clock.window := .closed } }))
    ∧ (c = last → k.valid = false → exec .secondTick s = .next { s with dev := ticked first })
    ∧ (c = last → k.valid = true → ∃ t, exec .secondTick s = .next t
        ∧ t.dev = { ticked first with
            clock.valid := false, clock.graceList := [], clock.undated := t.dev.clock.undated
            accounts := t.dev.accounts
            mgmt := s.dev.mgmt.joined
              { kind := .clockInvalid, time := none, subject := .absent, value := .number k.graceList.length } }
        ∧ (∀ a ∈ k.graceList, t.dev.account a = { s.dev.account a with deadline := none })
        ∧ (∀ a, a ∉ k.graceList → t.dev.account a = s.dev.account a)
        ∧ ∀ a, a ∈ t.dev.clock.undated ↔ a ∈ k.undated ∨ a ∈ k.graceList)

/-- R32, R34, R35, R54 (standing alone, entry 6) and R162, R165: the head of the grace list whose deadline has come
becomes EXPIRED with its QUOTA_EXPIRED, and no other account does. A quarter-second tick takes 1 from the counter of
every port that counts, and fences those it brings to 0; here those have no open transaction. Where several are
fenced at one tick their ascending order is the model's choice: log entry 21. -/
def Obligations.GraceAndLivenessTimers : Prop :=
  ∀ s : State, s.dev.resetLow = false →
    (∀ a, s.dev.clock.valid = false ∨ s.dev.clock.graceList.head? ≠ some a →
      exec (.graceExpiry a) s = .next s)
    ∧ (∀ a e, s.dev.clock.valid = true → s.dev.clock.graceList.head? = some a →
        (s.dev.account a).deadline = some e →
        let x := s.dev.account a
        let g := s.dev.group x.group
        (s.dev.clock.time.rank < e.rank → exec (.graceExpiry a) s = .next s)
        ∧ (e.rank ≤ s.dev.clock.time.rank → ∃ t, exec (.graceExpiry a) s = .next t
            ∧ t.dev = { s.dev.noted .quotaExpired (.account a) (.number x.soft) with
                accounts := t.dev.accounts, groups := t.dev.groups
                clock.graceList := s.dev.clock.graceList.filter fun b => b ≠ a }
            ∧ (∀ b, b ≠ a → t.dev.account b = s.dev.account b)
            ∧ (∀ b, b ≠ x.group → t.dev.group b = s.dev.group b)
            ∧ (let l := if x.soft > 0 then x.soft else if x.hard > 0 then x.hard else 4294967295
               t.dev.account a = { x with
                state := .expired, deadline := none
                hardArmed := x.hardArmed || decide (l < 4294967295 ∧ x.usage + x.held ≤ l - l / 16) })
            ∧ t.dev.group x.group = { g with
                fullArmed := g.fullArmed || decide (g.limit = 0 ∨ g.usage + g.held ≤ g.limit - g.limit / 16) }))
    ∧ (let counts (x : Port) : Prop := x.link = .up ∧ x.fence = none ∧ x.reload > 0 ∧ x.counter > 0
       let ends : List PortId := (List.finRange 4).filter fun q => counts (s.dev.port q) ∧ (s.dev.port q).counter = 1
       (∀ q ∈ ends, ∀ e ∈ s.dev.txns, e.1 / 32 ≠ q.val) →
       exec .quarterSecondTick s = .next { s with dev := { s.dev with
        clock.now := max s.dev.clock.now s.dev.clock.nextQuarter
        clock.nextQuarter := s.dev.clock.nextQuarter + 250
        ports := Vector.ofFn fun q : PortId =>
          let x := s.dev.port q
          if counts x then
            { x with counter := x.counter - 1, fence := if x.counter = 1 then some .liveness else none }
          else x
        mgmt := ends.foldl (fun m q => m.joined
          { kind := .portFenced, time := if s.dev.clock.valid then some s.dev.clock.time else none
            subject := .port q.val, value := .name .liveness }) s.dev.mgmt } })

/-! ### Volumes and snapshots getting somewhere -/

/-- R63, R72, R73: the end of a map fill makes a PREPARING volume READY and answers its VOLUME DEFINE with the record;
the end of a removal (standing alone, entry 5) frees what a REMOVING volume holds, once its conditions hold, and
answers with the number of entries freed; neither changes anything otherwise, which is the model's choice (DESIGN
CHOICE, entry 4). The layout of the record is read from R186 (entry 18). -/
def Obligations.FillsAndRemovalsEnd : Prop :=
  ∀ (s : State) (v : Nat), s.dev.resetLow = false →
    (s.dev.volume? v = none → exec (.mapFillEnd v) s = .next s ∧ exec (.removalEnd v) s = .next s)
    ∧ ∀ x, s.dev.volume? v = some x →
      (x.state ≠ .preparing → exec (.mapFillEnd v) s = .next s)
      ∧ (∀ (p : PortId) (tag : Nat) (t : Txn), x.state = .preparing → x.answers = some { port := p, tag := tag } →
          s.dev.txn? p tag = some t →
          exec (.mapFillEnd v) s = .next { s with
            dev := Device.answered
              { s.dev with volumes := s.dev.volumes.insert v { x with state := .ready, answers := none } }
              p tag t .ok none
              ([.name .ready] ++ Item.optNum 8 (some x.base) ++ Item.optNum 4 (some x.capacity)
              ++ Item.optNum 4 (some x.epoch) ++ Item.optNum 4 (some x.reserve) ++ Item.optNum 4 (some x.slotsHeld)
              ++ Item.optNum 1 (some (if x.reserveArmed then 1 else 0))
              ++ Item.optName (some (if x.cut = none then .idle else .cutting)) ++ Item.optNum 1 (some x.inFlight)
              ++ Item.optNum 1 (some x.retention) ++ Item.optName (some x.enrolment.name) ++ Item.optNum 2 x.target
              ++ Item.optNum 4 (some x.anchor)
              ++ (match x.report with
                  | none => [.num 1 0, .raw (List.replicate 51 0)]
                  | some r => [.num 1 1, .name r.outcome.name] ++ Item.optNum 4 r.snapshot ++ [.num 4 r.sent]
                      ++ Item.optName (r.reason.map PassReason.name) ++ Item.optTime r.endTime)) })
      ∧ (x.state ≠ .removing → exec (.removalEnd v) s = .next s)
      ∧ (let atEnd : Prop := x.inFlight = 0 ∧ (∀ n ∈ x.snapshots, n.state = .active)
           ∧ ∀ e ∈ s.dev.pres.table, e.2.volume ≠ v
         let mine := s.dev.pres.map.filter fun e => e.volume = v
         (x.state = .removing → x.cut = none → ¬ atEnd → exec (.removalEnd v) s = .next s)
         ∧ ∀ (p : PortId) (tag : Nat) (t : Txn), x.state = .removing → x.cut = none → atEnd →
            x.answers = some { port := p, tag := tag } → s.dev.txn? p tag = some t →
            exec (.removalEnd v) s = .next { s with
              dev := Device.answered { s.dev with
                  pres.map := s.dev.pres.map.filter fun e => e.volume ≠ v
                  pres.free := s.dev.pres.free ++ mine.map PreserveEntry.slot
                  volumes := s.dev.volumes.erase v }
                p tag t .ok none [.num 4 mine.length] })

/-- R89, R109, R110, R69, R71, R87, R88, R90, R111: one visit of a volume's running sweep passes the next of its
preserve entries in map order and keeps it while some ACTIVE snapshot lies in its range, else frees it with its slot
at the free queue's tail, and the head of the slot-wait queue takes the free queue's head. A sweep that has visited
every entry ends at RETIREMENT_END: its record leaves the list with SNAPSHOT_RETIRED, its RETIRE is answered and a cut
that waits gets room. An entry that waits for a slot is then removed when its need has lapsed, and its write goes on;
otherwise it stands while a snapshot is RETIRING, starts the retirement of the oldest ACTIVE unpinned one, or fails
with RESERVE_FULL when there is none; here one entry waits, its write charges nothing, and the volume is not REMOVING:
several waiting entries and a volume being removed are left out. That a visit or an end with no sweep running, and a
visit with no entry left, change nothing is the model's choice (DESIGN CHOICE, entry 4). That the last visit leaves
the snapshot RETIRING until a command of its own ends the retirement is read from the spec by inference (DEDUCED,
entry 7), and so is the place the sweep keeps (DEDUCED, entry 16). -/
def Obligations.SweepsVisitAndEnd : Prop :=
  ∀ (s : State) (v : Nat) (x : Volume), s.dev.resetLow = false → s.dev.volume? v = some x →
    let later (e : PreserveEntry) : Prop :=
      e.volume = v ∧ ∀ g f, x.sweepAt = some (g, f) → g < e.grain ∨ (g = e.grain ∧ f < e.first)
    (x.sweeps = [] → exec (.sweepVisit v) s = .next s ∧ exec (.retirementEnd v) s = .next s)
    ∧ ((∀ e ∈ s.dev.pres.map, ¬ later e) → exec (.sweepVisit v) s = .next s)
    ∧ (∀ e, e ∈ s.dev.pres.map → later e → exec (.retirementEnd v) s = .next s)
    ∧ (∀ before e after, x.sweeps ≠ [] → s.dev.pres.map = before ++ e :: after → (∀ f ∈ before, ¬ later f) → later e →
        ((∃ n ∈ x.snapshots, n.state = .active ∧ e.first ≤ n.number ∧ n.number ≤ e.last) →
          exec (.sweepVisit v) s = .next { s with dev := { s.dev with
            volumes := s.dev.volumes.insert v { x with sweepAt := some (e.grain, e.first) } } })
        ∧ ((∀ n ∈ x.snapshots, ¬ (n.state = .active ∧ e.first ≤ n.number ∧ n.number ≤ e.last)) →
          let y : Volume := { x with
            sweepAt := some (e.grain, e.first)
            sweepFreed := x.sweepFreed + 1
            slotsHeld := x.slotsHeld - 1
            reserveArmed := x.reserveArmed || decide (x.slotsHeld - 1 ≤ x.reserve - x.reserve / 4) }
          let freed : Device := { s.dev with
            pres.map := s.dev.pres.map.filter fun f => f ≠ e
            pres.free := s.dev.pres.free ++ [e.slot]
            volumes := s.dev.volumes.insert v y }
          (x.slotWait = [] → exec (.sweepVisit v) s = .next { s with dev := freed })
          ∧ ∀ g waits m base q slot frees, x.slotWait = g :: waits → g ∉ waits → s.dev.entry? v g = some m →
              m.phase = .slotWait base q → s.dev.pres.free ++ [e.slot] = slot :: frees → x.slotsHeld - 1 < x.reserve →
              s.dev.pool.link = .up → x.reserve = x.slotsHeld - 1 + 1 ∨ waits = [] ∨ frees = [] →
              exec (.sweepVisit v) s = .next { s with dev := freed.slotServed v g y m base q slot waits frees }))
    ∧ ∀ k rest n, x.sweeps = k :: rest → (∀ e ∈ s.dev.pres.map, ¬ later e) → x.state ≠ .removing →
        x.snapshots.find? (fun m => m.number = k) = some n →
        let y : Volume := { x with
          snapshots := x.snapshots.filter fun m => m.number ≠ k, sweeps := rest, sweepAt := none, sweepFreed := 0 }
        let retired (z : Volume) : Device :=
          { s.dev.noted .snapshotRetired (.snapshot v k) (.number x.sweepFreed) with
            volumes := s.dev.volumes.insert v z }
        (x.slotWait = [] → x.cut = none → n.answers = none →
          exec (.retirementEnd v) s = .next { s with dev := retired y })
        ∧ (∀ (p : PortId) (tag : Nat) (t : Txn), x.slotWait = [] → x.cut = none →
            n.answers = some { port := p, tag := tag } → s.dev.txn? p tag = some t →
            exec (.retirementEnd v) s = .next { s with
              dev := (retired y).answered p tag t .ok none [.num 4 x.sweepFreed] })
        ∧ (∀ c, x.slotWait = [] → x.cut = some c → n.answers = none → x.inFlight > 0 → y.snapshots.length < 16 →
            exec (.retirementEnd v) s = .next { s with
              dev := retired { y with cut := some { c with room := .have } } })
        ∧ ∀ (g base q : Nat) (m : Pending) (p : PortId) (tag : Nat) (t : Txn),
            x.slotWait = [g] → x.cut = none → n.answers = none → s.dev.entry? v g = some m →
            m.phase = .slotWait base q → m.readers = 0 → m.waiters = [.server p tag] → s.dev.pres.readerWait = [] →
            s.dev.pool.link = .up → s.dev.txn? p tag = some t → t.kind = .write → t.job.volume = v →
            t.job.charge = some 0 → t.job.stage = .admitting → t.job.waits = [g] →
            let needed : Prop := ∃ a ∈ y.snapshots, a.state = .active ∧ base ≤ a.number ∧ a.number ≤ q - 1
            (¬ needed → y.needs g = false → exec (.retirementEnd v) s = .next { s with
              dev := Device.joinPool
                { retired { y with slotWait := [], grains := Table.put x.fill x.grains g x.epoch } with
                  pres.table := s.dev.pres.table.erase (pendKey v g)
                  txns := s.dev.txns.insert (txnKey p tag)
                    { t with job := { t.job with stage := .queued, waits := [] } } }
                { requester := .server p tag, op := .write (x.base + t.job.first) t.job.blocks t.job.payload } })
            ∧ (needed → (∃ a ∈ y.snapshots, a.state = .retiring) →
              exec (.retirementEnd v) s = .next { s with dev := retired y })
            ∧ (∀ before a after, needed → (∀ b ∈ y.snapshots, b.state = .active) → y.snapshots = before ++ a :: after →
              (∀ b ∈ before, b.pins ≠ 0) → a.pins = 0 → (∀ b ∈ before ++ after, b.number ≠ a.number) →
              exec (.retirementEnd v) s = .next { s with dev := retired { y with
                snapshots := before ++ { a with state := .retiring, answers := none } :: after
                sweeps := rest ++ [a.number] } })
            ∧ (needed → (∀ b ∈ y.snapshots, b.state = .active ∧ b.pins ≠ 0) →
              let failed : Device := { retired { y with slotWait := [], inFlight := x.inFlight - 1 } with
                pres.table := s.dev.pres.table.erase (pendKey v g) }
              exec (.retirementEnd v) s = .next { s with dev := failed.ended p tag t .reserveFull 0 [] })

/-- R101, R103, R104, R105, R106, R97, R99, R112, R141, R153: a cut that stands complete (standing alone, DEDUCED,
entry 5) appends its record, raises E and queues CUT_DONE; its held write is released, admitted and stamped with the
new E, retention starts retiring the oldest SCHEDULED snapshot that is one too many, and it answers its CUT with the
number released or gives the pass its snapshot with a pin, at which a pass that was told to stop ends. One whose drain
timer expires is abandoned with CUT_FAILED of value DRAIN and its CUT answered ABORTED for DRAIN, or its pass ended;
its held write is released under the unchanged E. A pass that waits for the volume's cut to end asks again, after the
completion or the abandonment of a cut that the schedule or a CUT asked for, here with the retention not exceeded.
Here at most one write of the volume is held, it charges nothing, touches one grain that needs no preservation and
finds no pool tag, and nothing else waits on a pass that ends. -/
def Obligations.CutsEnd : Prop :=
  ∀ (s : State) (v : Nat), s.dev.resetLow = false →
    ((∀ x, s.dev.volume? v = some x → x.cut = none) →
      exec (.cutCompletion v) s = .next s ∧ exec (.drainTimeout v) s = .next s)
    ∧ ∀ x c, s.dev.volume? v = some x → x.cut = some c →
      let stamp := if s.dev.clock.valid then some s.dev.clock.time else none
      let unheld : Prop := ∀ w ∈ s.dev.cutHold, ∀ j, s.dev.job? w = some j → j.volume ≠ v
      let untold : Prop := ∀ q, s.dev.dup.pass = some q → q.volume ≠ v ∨ q.state ≠ .cutting
      let complete : Prop := x.inFlight = 0 ∧ c.room = .have
      let loose (n : Snapshot) : Prop := n.state = .active ∧ n.pins = 0 ∧ n.kind = .scheduled
      let record : Snapshot := { number := x.epoch, kind := c.kind, cutTime := c.acceptedAt, state := .active
                                 pins := if c.kind = .duplication then 1 else 0, answers := none }
      let y : Volume := { x with snapshots := x.snapshots ++ [record], epoch := x.epoch + 1, cut := none }
      let doneAt (z : Volume) : Device := { s.dev.noted .cutDone (.volume v) (.number x.epoch) with
        volumes := s.dev.volumes.insert v z }
      let done : Device := doneAt y
      let leftAt (z : Volume) : Device := { s.dev.noted .cutFailed (.volume v) (.name .drain) with
        volumes := s.dev.volumes.insert v z
        clock.now := max s.dev.clock.now c.drainEnds }
      let left : Device := leftAt { x with cut := none }
      (x.inFlight > 0 ∨ c.room = .waiting → exec (.cutCompletion v) s = .next s)
      ∧ (complete → unheld → untold → c.requester = .schedule →
          (c.kind ≠ .scheduled ∨ (y.snapshots.filter fun n =>
            n.state = .active ∧ n.pins = 0 ∧ n.kind = .scheduled).length ≤ x.retention) →
          exec (.cutCompletion v) s = .next { s with dev := done })
      ∧ (∀ before a after, complete → unheld → untold → c.requester = .schedule → c.kind = .scheduled →
          y.snapshots = before ++ a :: after → (∀ n ∈ before, ¬ loose n) → loose a →
          (∀ n ∈ before ++ after, n.number ≠ a.number) →
          (y.snapshots.filter fun n =>
            n.state = .active ∧ n.pins = 0 ∧ n.kind = .scheduled).length = x.retention + 1 →
          exec (.cutCompletion v) s = .next { s with dev := doneAt { y with
            snapshots := before ++ { a with state := .retiring, answers := none } :: after
            sweeps := x.sweeps ++ [a.number]
            sweepAt := if x.sweeps = [] then none else x.sweepAt
            sweepFreed := if x.sweeps = [] then 0 else x.sweepFreed } })
      ∧ (∀ (p : PortId) (tag : Nat) (t : Txn), complete → unheld → untold →
          c.requester = .command { port := p, tag := tag } → c.kind ≠ .scheduled → s.dev.txn? p tag = some t →
          exec (.cutCompletion v) s = .next { s with
            dev := done.answered p tag t .ok none [.num 4 x.epoch, .num 4 (x.epoch + 1), .num 2 0] })
      ∧ (∀ q, complete → unheld → c.requester = .pass → c.kind = .duplication → s.dev.dup.pass = some q →
          let p : Pass := { q with snapshot := some x.epoch, state := .sweeping }
          let told : Device := { done with dup.pass := some p }
          (q.stopRequested = false → exec (.cutCompletion v) s = .next { s with dev := told })
          ∧ (q.stopRequested = true → q.volume = v → s.dev.PassAlone → exec (.cutCompletion v) s = .next { s with
              dev := (told.passClosed p y .stopped (some .stop)).noted .passFailed (.volume v) (.name .stop) }))
      ∧ (∀ q, complete → unheld → s.dev.dup.pass = some q → q.volume = v → q.state = .cutting → q.stopRequested = false →
          x.state = .ready → x.epoch + 1 < 16777215 → y.snapshots.length < 16 →
          let again (d : Device) : Device := { d.noted .cutDone (.volume v) (.number (x.epoch + 1)) with
            volumes := s.dev.volumes.insert v { y with
              snapshots := y.snapshots ++ [{ number := x.epoch + 1, kind := .duplication, cutTime := stamp
                                             state := .active, pins := 1, answers := none }]
              epoch := x.epoch + 2 }
            dup.pass := some { q with snapshot := some (x.epoch + 1), state := .sweeping } }
          (c.requester = .schedule → (c.kind ≠ .scheduled ∨ (y.snapshots.filter fun n =>
              n.state = .active ∧ n.pins = 0 ∧ n.kind = .scheduled).length ≤ x.retention) →
            exec (.cutCompletion v) s = .next { s with dev := again done })
          ∧ ∀ (p : PortId) (tag : Nat) (t : Txn), c.requester = .command { port := p, tag := tag } →
            c.kind ≠ .scheduled → s.dev.txn? p tag = some t →
            exec (.cutCompletion v) s = .next { s with
              dev := again (done.answered p tag t .ok none [.num 4 x.epoch, .num 4 (x.epoch + 1), .num 2 0]) })
      ∧ (unheld → untold → c.requester = .schedule → exec (.drainTimeout v) s = .next { s with dev := left })
      ∧ (∀ (p : PortId) (tag : Nat) (t : Txn), unheld → untold → c.requester = .command { port := p, tag := tag } →
          s.dev.txn? p tag = some t →
          exec (.drainTimeout v) s = .next { s with dev := left.answered p tag t .aborted (some .drain) [] })
      ∧ (∀ q, unheld → c.requester = .pass → s.dev.dup.pass = some q → q.volume = v → s.dev.PassAlone →
          let ended (o : PassOutcome) (r : PassReason) : Device :=
            (left.passClosed q { x with cut := none } o (some r)).noted .passFailed (.volume v) (.name r.name)
          (q.stopRequested = false →
            exec (.drainTimeout v) s = .next { s with dev := ended .failed .cut })
          ∧ (q.stopRequested = true →
            exec (.drainTimeout v) s = .next { s with dev := ended .stopped .stop }))
      ∧ (∀ q, unheld → s.dev.dup.pass = some q → q.volume = v → q.state = .cutting → x.state = .ready →
          x.epoch < 16777215 → x.snapshots.length < 16 → x.inFlight > 0 →
          let again (d : Device) : Device := { d with
            volumes := s.dev.volumes.insert v { x with
              cut := some { kind := .duplication, requester := .pass, acceptedAt := stamp
                            drainEnds := max s.dev.clock.now c.drainEnds + 2000, room := .have } } }
          (c.requester = .schedule → exec (.drainTimeout v) s = .next { s with dev := again left })
          ∧ ∀ (p : PortId) (tag : Nat) (t : Txn), c.requester = .command { port := p, tag := tag } →
            s.dev.txn? p tag = some t →
            exec (.drainTimeout v) s = .next { s with
              dev := again (left.answered p tag t .aborted (some .drain) []) })
      ∧ ∀ (p q : PortId) (tag tag' : Nat) (t u : Txn) (before after : List WriteId), untold →
          c.requester = .command { port := q, tag := tag' } → s.dev.txn? q tag' = some u → u.kind = .mgmt →
          s.dev.cutHold = before ++ .server p tag :: after →
          (∀ w ∈ before ++ after, ∀ j, s.dev.job? w = some j → j.volume ≠ v) →
          s.dev.txn? p tag = some t → t.kind = .write → t.job.volume = v → t.job.declared = 0 → 1 ≤ t.job.blocks →
          t.job.first % 8 + t.job.blocks ≤ 8 →
          let g := t.job.first / 8
          s.dev.entry? v g = none → s.dev.pres.table.length ≤ 256 → s.dev.pool.link = .up →
          s.dev.pool.preserveQ = [] → (∀ k : PoolTagId, k.val < 60 → s.dev.pool.tags[k] ≠ .free) →
          let released (d : Device) (z : Volume) : Device := { d with
            volumes := s.dev.volumes.insert v { z with
              inFlight := x.inFlight + 1, grains := Table.put x.fill x.grains g z.epoch }
            cutHold := before ++ after
            txns := s.dev.txns.insert (txnKey p tag) { t with
              job := { t.job with stage := .queued, charge := some 0, epoch := some z.epoch, waits := [] } }
            pool.pathQ := s.dev.pool.pathQ ++ [{
              requester := .server p tag, op := .write (x.base + t.job.first) t.job.blocks t.job.payload }] }
          (complete → c.kind ≠ .scheduled → y.needs g = false →
            exec (.cutCompletion v) s = .next { s with
              dev := (released done y).answered q tag' u .ok none
                [.num 4 x.epoch, .num 4 (x.epoch + 1), .num 2 1] })
          ∧ (x.needs g = false →
            exec (.drainTimeout v) s = .next { s with
              dev := (released left { x with cut := none }).answered q tag' u .aborted (some .drain) [] })

/-! ### Restores -/

/-- R121, R122, R120, R112, R117, R118, R92: RESTORE: its eight checks in their order, and its acceptance: with 24
records the one that ended first is evicted; the next id that no record holds is given, the record joins the tail of
the acceptance order, and the snapshot takes one more pin; QUEUED while 8 restores run, else RUNNING with its first
extent, when no older restore is QUEUED. Where a copy slot is FREE, here the only one, the restore's first grain that
is neither unwritten nor current in its destination is read into it at the same event, before the answer; here no
request waits for a pool tag, no other restore is eligible, and the pass is not, or the last grant was its own (R118).
-/
def Obligations.RestoreStarts : Prop :=
  ∀ (s : State) (p : PortId) (tag : Nat) (t : Txn) (c : Command) (a : RestoreArgs), s.dev.resetLow = false →
    s.dev.txn? p tag = some t → t.command = some c → c.isNamed .restore = true → readRestore c.area = some a →
    (s.dev.port p).role = .manager →
    let Refused (st : MgmtStatus) (r : Option MgmtReason) : Prop :=
      exec (.restore p tag) s = .next { s with dev := s.dev.answered p tag t st r [] }
    let bad : Prop := a.source = 0 ∨ a.source > 64 ∨ a.extents = [] ∨ a.extents.length > 32
      ∨ ∃ e ∈ a.extents, e.destVolume = 0 ∨ e.destVolume > 64 ∨ e.count = 0
    let absent (v : Nat) : Prop := ∀ x, s.dev.volume? v = some x → x.state = .removing
    let preparing (v : Nat) : Prop := ∃ x, s.dev.volume? v = some x ∧ x.state = .preparing
    let someDest (q : Nat → Prop) : Prop := ∃ e ∈ a.extents, q e.destVolume
    (bad → Refused .badArgument none)
    ∧ (¬ bad → absent a.source → Refused .notFound (some .noVolume))
    ∧ (¬ bad → preparing a.source → Refused .busy (some .notReady))
    ∧ ∀ x, ¬ bad → s.dev.volume? a.source = some x → x.state = .ready →
        let outside : Prop := ∃ e ∈ a.extents, e.source + e.count > x.capacity
          ∨ ∃ y, s.dev.volume? e.destVolume = some y ∧ e.dest + e.count > y.capacity
        let held : Prop := ∃ n ∈ x.snapshots, n.number = a.snapshot ∧ n.state = .active
        let full : Prop := s.dev.copy.restores.length ≥ 24 ∧ ∀ r ∈ s.dev.copy.restores, r.state ≠ .ended
        (someDest absent → Refused .notFound (some .noVolume))
        ∧ (¬ someDest absent → someDest preparing → Refused .busy (some .notReady))
        ∧ (¬ someDest absent → ¬ someDest preparing → outside → Refused .badArgument (some .range))
        ∧ (¬ someDest absent → ¬ someDest preparing → ¬ outside → ¬ held → Refused .notFound (some .snapshot))
        ∧ (¬ someDest absent → ¬ someDest preparing → ¬ outside → held → full → Refused .full none)
        ∧ (¬ someDest absent → ¬ someDest preparing → ¬ outside → held →
            ∀ rs order n, (s.dev.copy.restores.length < 24 ∧ rs = s.dev.copy.restores ∧ order = s.dev.copy.endedOrder)
              ∨ (s.dev.copy.restores.length ≥ 24 ∧ (∃ r ∈ s.dev.copy.restores, r.state = .ended)
                ∧ ∃ old, s.dev.copy.endedOrder = old :: order ∧ rs = s.dev.copy.restores.filter fun r => r.id ≠ old) →
            let after (i : Nat) : Nat := if i ≥ 65535 then 1 else i + 1
            let id := after^[n + 1] s.dev.copy.lastId
            n ≤ 24 → (∀ m, m < n → ∃ r ∈ rs, r.id = after^[m + 1] s.dev.copy.lastId) → (∀ r ∈ rs, r.id ≠ id) →
            let running := (rs.filter fun r => r.state = .running).length
            let record (st : RestoreState) (i : Option Nat) (g : Option Nat) (os : List ExtentOutcome) : Restore :=
              { id := id, state := st, cancel := false, source := a.source, snapshot := a.snapshot, account := a.account
                extents := a.extents, current := i, cursor := g, inFlight := 0, copied := 0, unwritten := 0
                alreadyCurrent := 0, outcomes := os, outcome := none, reason := none }
            let accepted (r : Restore) : Device := { s.dev with
              volumes := s.dev.volumes.insert a.source { x with
                snapshots := x.snapshots.map fun n => if n.number = a.snapshot then { n with pins := n.pins + 1 } else n }
              copy.restores := rs ++ [r]
              copy.endedOrder := order
              copy.lastId := id }
            let Becomes (d : Device) (st : Name) : Prop :=
              exec (.restore p tag) s = .next { s with dev := d.answered p tag t .ok none [.num 2 id, .name st] }
            (running ≥ 8 → Becomes (accepted (record .queued none none (a.extents.map fun _ => .pending))) .queued)
            ∧ ∀ e es, a.extents = e :: es → running < 8 → (∀ r ∈ rs, r.state ≠ .queued) →
              let started := record .running (some 0) (some e.source) (.running :: es.map fun _ => .pending)
              ((∀ k, s.dev.slot? k ≠ none) → Becomes (accepted started) .running)
              ∧ ∀ k g, s.dev.slot? k = none → (∀ l, l ≠ k → s.dev.slot? l ≠ none) → s.dev.pool.link = .up →
                s.dev.dup.pass = none ∨ (∀ o ∈ s.dev.dup.staging, o.phase ≠ .ready)
                  ∨ s.dev.copy.lastServed ≠ some .restore →
                s.dev.pool.preserveQ = [] → s.dev.pool.pathQ = [] → s.dev.pool.copyQ = [] →
                (∀ r ∈ rs, ∀ i f c, r.state = .running → r.cancel = false → r.current = some i → r.extents[i]? = some f →
                  r.cursor = some c → r.outcomes[i]? = some .running → f.source + f.count ≤ c) →
                let image (h : Nat) : Image := s.dev.resolve a.source a.snapshot h
                let inPlace (h : Nat) : Prop :=
                  (∃ v, image h = .live v) ∧ e.destVolume = a.source ∧ e.dest + (h - e.source) = h
                e.source ≤ g → g < e.source + e.count → (∀ h, e.source ≤ h → h < g → image h = .unwritten ∨ inPlace h) →
                ¬ inPlace g → image g ≠ .unwritten →
                ((∃ v, image g = .live v) → s.dev.entry? a.source g = none → s.dev.pres.table.length < 256) →
                let passed := List.range' e.source (g - e.source)
                let granted := accepted { started with
                  cursor := some (g + 1), inFlight := 1
                  unwritten := (passed.filter fun h => image h = .unwritten).length
                  alreadyCurrent := (passed.filter fun h => image h ≠ .unwritten).length }
                Becomes (Device.readAsked { granted with copy.lastServed := some .restore, copy.cursor := id } k
                  { stream := .restore id, volume := a.source, grain := g, snapshot := a.snapshot, image := image g
                    destVolume := e.destVolume, destGrain := e.dest + (g - e.source)
                    declared := if e.fresh then 1 else 0, phase := .reading }) .running)

/-- R131, R130, R112, R122, R123, R128, R132, R186: RESTORE STATUS answers with the record and changes nothing else.
RESTORE CANCEL ends a QUEUED restore at once, with every extent NOT_RUN, its pin dropped and RESTORE_END; marks a
RUNNING one and drops its slots that wait to retry, and its other copies in flight run on; ends a RUNNING one that has
none left, its current extent CANCELLED and the rest NOT_RUN, and the oldest QUEUED restore then takes its place among
the 8 that run; and leaves one marked before as it stands. Each is answered with the record in the order of its table.
Here no copy slot is FREE after that, or no other restore runs and no grain of the pass is ready. The layout of the
results is read from R186 (DEDUCED, entry 18). -/
def Obligations.RestoreStatusAndCancel : Prop :=
  ∀ (s : State) (p : PortId) (tag : Nat) (t : Txn) (id : Nat),
    let Answers (i : Instr) (d : Device) (st : MgmtStatus) (items : List Item) : Prop :=
      exec i s = .next { s with dev := d.answered p tag t st none items }
    let items (x : Restore) : List Item := List.flatten
      [ [.name x.state.name, .num 1 (if x.cancel then 1 else 0), .num 1 x.source, .num 4 x.snapshot, .num 2 x.account
          , .num 1 x.extents.length]
        , Item.optNum 1 (x.current.map fun i => i + 1)
        , [.num 1 x.inFlight, .num 4 x.copied, .num 4 x.unwritten, .num 4 x.alreadyCurrent]
        , .num 1 x.outcomes.length :: x.outcomes.map fun o => Item.name o.name
        , Item.optName (x.outcome.map RestoreOutcome.name), Item.optName (x.reason.map RestoreReason.name) ]
    let record (x : Restore) : List Item := List.flatten
      [ [.num 2 x.id, .name x.state.name, .num 1 (if x.cancel then 1 else 0), .num 1 x.source, .num 4 x.snapshot
          , .num 2 x.account]
        , .num 1 x.extents.length :: x.extents.flatMap fun e =>
          [.num 4 e.source, .num 2 e.count, .num 1 e.destVolume, .num 4 e.dest, .num 1 (if e.fresh then 1 else 0)
            , .num 1 (if e.notify then 1 else 0)]
        , Item.optNum 1 (x.current.map fun i => i + 1), Item.optNum 4 x.cursor
        , [.num 1 x.inFlight, .num 4 x.copied, .num 4 x.unwritten, .num 4 x.alreadyCurrent]
        , .num 1 x.outcomes.length :: x.outcomes.map fun o => Item.name o.name
        , Item.optName (x.outcome.map RestoreOutcome.name), Item.optName (x.reason.map RestoreReason.name) ]
    let found (x : Restore) : Prop :=
      ∃ before after, s.dev.copy.restores = before ++ x :: after ∧ x.id = id
        ∧ (∀ r ∈ before, r.id ≠ id) ∧ ∀ r ∈ after, r.id ≠ id
    (s.Issued p tag .restoreStatus t [.num id] →
      ((∀ r ∈ s.dev.copy.restores, r.id ≠ id) → Answers (.restoreStatus p tag) s.dev .notFound [])
      ∧ ∀ x, found x → Answers (.restoreStatus p tag) s.dev .ok (items x))
    ∧ (s.Issued p tag .restoreCancel t [.num id] →
      ((∀ r ∈ s.dev.copy.restores, r.id ≠ id) → Answers (.restoreCancel p tag) s.dev .notFound [])
      ∧ ∀ x, found x →
        let changed (y : Restore) : List Restore := s.dev.copy.restores.map fun r => if r.id = id then y else r
        let retries (z : CopySlot) : Bool :=
          z.stream = .restore id && match z.phase with | .writing _ (some _) => true | _ => false
        let kept := s.dev.copy.slots.map fun o => o.filter fun z => !retries z
        let dropped := (s.dev.copy.slots.toList.filter fun o => o.any retries).length
        let idle : Prop := (∀ r ∈ s.dev.copy.restores, r.id ≠ id → r.state ≠ .running)
          ∧ (s.dev.dup.pass = none ∨ ∀ o ∈ s.dev.dup.staging, o.phase ≠ .ready)
        let busy : Prop := ∀ k : SlotId, kept[k] ≠ none
        (x.state = .ended → Answers (.restoreCancel p tag) s.dev .conflict [])
        ∧ (x.state = .running → x.cancel = true → Answers (.restoreCancel p tag) s.dev .ok (record x))
        ∧ (x.state = .running → x.cancel = false → x.inFlight > dropped → busy ∨ idle →
            let y : Restore := { x with cancel := true, inFlight := x.inFlight - dropped }
            Answers (.restoreCancel p tag) { s.dev with copy.restores := changed y, copy.slots := kept } .ok (record y))
        ∧ (∀ i e z, x.state = .running → x.cancel = false → x.inFlight = dropped → x.current = some i →
            x.extents[i]? = some e → s.dev.volume? x.source = some z →
            let o : ExtentOutcome := if x.outcomes[i]? = some .running then .cancelled else (x.outcomes[i]?).getD .done
            let y : Restore := { x with
              state := .ended, cancel := true, current := none, cursor := none, inFlight := 0
              outcomes := (x.outcomes.set i o).take (i + 1) ++ List.replicate (x.outcomes.length - (i + 1)) .notRun
              outcome := some .cancelled, reason := some .command }
            let w : Volume := { z with
              snapshots := z.snapshots.map fun n => if n.number = x.snapshot then { n with pins := n.pins - 1 } else n }
            let told : Device := if e.notify then
              s.dev.noted .restoreExtent (.restore id) (.extent o.name (i + 1)) else s.dev
            let Ended (rs : List Restore) : Prop :=
              Answers (.restoreCancel p tag) { told.noted .restoreEnd (.restore id) (.restoreEnd .cancelled (some .command))
                with
                copy.restores := rs, copy.endedOrder := s.dev.copy.endedOrder ++ [id], copy.slots := kept
                volumes := s.dev.volumes.insert x.source w } .ok (record y)
            (busy ∨ idle → (∀ q ∈ s.dev.copy.restores, q.state ≠ .queued) → Ended (changed y))
            ∧ ∀ q older newer, busy → s.dev.copy.restores = older ++ q :: newer → q.state = .queued →
                (∀ r ∈ older, r.state ≠ .queued ∧ r.id ≠ q.id) → (∀ r ∈ newer, r.id ≠ q.id) →
                (s.dev.copy.restores.filter fun r => r.state = .running).length = 8 →
                Ended ((changed y).map fun r => if r.id = q.id then
                  { q with
                    state := .running, current := some 0, cursor := (q.extents[0]?).map Extent.source
                    outcomes := q.outcomes.set 0 .running } else r))
        ∧ (∀ z, x.state = .queued → s.dev.volume? x.source = some z →
            let y : Restore := { x with
              state := .ended, current := none, cursor := none, outcomes := x.outcomes.map fun _ => .notRun
              outcome := some .cancelled, reason := some .command }
            let w : Volume := { z with
              snapshots := z.snapshots.map fun n => if n.number = x.snapshot then { n with pins := n.pins - 1 } else n }
            Answers (.restoreCancel p tag) { s.dev.noted .restoreEnd (.restore id) (.restoreEnd .cancelled (some .command))
                with
              copy.restores := changed y, copy.endedOrder := s.dev.copy.endedOrder ++ [id]
              volumes := s.dev.volumes.insert x.source w } .ok (record y)))

/-- R126, R125, R101, R8, R66, R68: when a slot's retry comes due its write is made again: with its volume CUTTING it
is held, or waits 0.1 s more when the cut-hold queue is full; otherwise it is admitted afresh. Here the admitted write
charges nothing and its grain has no pending entry and needs no preservation: a fresh extent, which charges 1, and the
QUOTA refusal are left out. Any other slot is left as it is, which is the model's choice (DESIGN CHOICE, entry 4). -/
def Obligations.RetryMakesWriteAgain : Prop :=
  ∀ (s : State) (k : SlotId), s.dev.resetLow = false →
    ((∀ z j m, s.dev.slot? k = some z → z.phase ≠ .writing j (some m)) → exec (.retryDue k) s = .next s)
    ∧ ∀ z j m x, s.dev.slot? k = some z → z.phase = .writing j (some m) → s.dev.volume? j.volume = some x →
        let now := max s.dev.clock.now m
        let e (phase : SlotPhase) : Device := { s.dev with
          clock.now := now, copy.slots := s.dev.copy.slots.set k.val (some { z with phase := phase }) k.isLt }
        (x.cut ≠ none → s.dev.cutHold.length < 256 → exec (.retryDue k) s = .next { s with
          dev := { e (.writing { j with stage := .held } none) with cutHold := s.dev.cutHold ++ [.slot k] } })
        ∧ (x.cut ≠ none → s.dev.cutHold.length ≥ 256 → exec (.retryDue k) s = .next { s with
          dev := e (.writing { j with stage := .admitting, charge := none, epoch := none, waits := [] }
            (some (now + 100))) })
        ∧ (∀ g, x.cut = none → j.first = 8 * g → j.blocks = 8 → j.declared = 0 → s.dev.pool.link = .up →
            x.needs g = false → s.dev.entry? j.volume g = none → s.dev.pres.table.length ≤ 256 →
            let f := e (.writing { j with stage := .queued, charge := some 0, epoch := some x.epoch, waits := [] } none)
            exec (.retryDue k) s = .next { s with
              dev := Device.joinPool { f with
                  volumes := s.dev.volumes.insert j.volume { x with
                    inFlight := x.inFlight + 1, grains := Table.put x.fill x.grains g x.epoch } }
                { requester := .slot k, op := .write (x.base + 8 * g) 8 j.payload } })

/-! ### The commands of the duplication unit -/

/-- R135, R137, R139, R138, R116, R117, R118, R92: ENROL, DUPLICATE NOW and PACING SET: their checks in order, what each
stores, and the answer. A DUPLICATE NOW while a pass runs starts nothing. After a PACING SET the copy engine looks for a
grant: a FREE slot, here the only one, goes to the ready grain of the pass while the pass is under the cap of the mode in
force, or to the eligible restore that comes first after the cursor, whose unwritten and already current grains are
counted and passed over; of the two, to the one not served last. That ENROL NONE is not held back by a pass that runs to
another target is read from the spec by inference (DEDUCED, entry 24), and so is the presence byte before its target in
the answer (DEDUCED, entry 18); that DUPLICATE NOW is answered before a pass starts is the model's choice (DESIGN CHOICE,
entry 14). -/
def Obligations.EnrolAndPacing : Prop :=
  ∀ (s : State) (p : PortId) (tag : Nat) (t : Txn),
    let Answers (i : Instr) (d : Device) (st : MgmtStatus) (items : List Item) : Prop :=
      exec i s = .next { s with dev := d.answered p tag t st none items }
    (∀ (v target : Nat) (bytes : List Byte), s.Issued p tag .enrol t [.num v, .text bytes, .num target] →
      let i : Instr := .enrol p tag
      (bytes ≠ padded "NONE" → bytes ≠ padded "NIGHTLY" → bytes ≠ padded "ONCE" → Answers i s.dev .badArgument [])
      ∧ ∀ e : Enrolment, (bytes = padded "NONE" ∧ e = .none) ∨ (bytes = padded "NIGHTLY" ∧ e = .nightly)
            ∨ (bytes = padded "ONCE" ∧ e = .once) →
          let bad : Prop := v = 0 ∨ v > 64 ∨ (e ≠ .none ∧ (target = 0 ∨ target > 4095))
          let taken : Prop := ∃ f ∈ s.dev.volumes, f.1 ≠ v ∧ f.2.enrolment ≠ .none ∧ f.2.target = some target
          let elsewhere : Prop := ∃ q, s.dev.dup.pass = some q ∧ q.volume = v ∧ q.target ≠ target
          (bad → Answers i s.dev .badArgument [])
          ∧ (¬ bad → s.dev.volume? v = none → Answers i s.dev .notFound [])
          ∧ ∀ x, ¬ bad → s.dev.volume? v = some x →
              (x.state = .removing → Answers i s.dev .notFound [])
              ∧ (x.state ≠ .removing → e ≠ .none → taken → Answers i s.dev .conflict [])
              ∧ (x.state ≠ .removing → e ≠ .none → ¬ taken → elsewhere → Answers i s.dev .busy [])
              ∧ (x.state ≠ .removing → e ≠ .none → ¬ taken → ¬ elsewhere →
                  let anchor := if x.target = none ∨ x.target = some target then x.anchor else 0
                  Answers i { s.dev with
                      volumes := s.dev.volumes.insert v
                        { x with enrolment := e, target := some target, anchor := anchor } } .ok
                    ([.name e.name] ++ Item.optNum 2 (some target) ++ [.num 4 anchor]))
              ∧ (x.state ≠ .removing → e = .none →
                  Answers i { s.dev with
                      volumes := s.dev.volumes.insert v { x with enrolment := .none }
                      dup.queue := s.dev.dup.queue.filter fun f => f.volume ≠ v } .ok
                    ([.name .none] ++ Item.optNum 2 x.target ++ [.num 4 x.anchor])))
    ∧ (∀ v : Nat, s.Issued p tag .duplicateNow t [.num v] →
      let i : Instr := .duplicateNow p tag
      (v = 0 ∨ v > 64 → Answers i s.dev .badArgument [])
      ∧ (1 ≤ v → v ≤ 64 → s.dev.volume? v = none → Answers i s.dev .notFound [])
      ∧ ∀ x, 1 ≤ v → v ≤ 64 → s.dev.volume? v = some x →
          (x.state = .removing → Answers i s.dev .notFound [])
          ∧ (x.state = .preparing → Answers i s.dev .busy [])
          ∧ (x.state = .ready → x.enrolment = .none → Answers i s.dev .conflict [])
          ∧ (x.state = .ready → x.enrolment ≠ .none →
              let queue := s.dev.dup.queue
              ((∀ f ∈ queue, f.volume ≠ v) →
                let d : Device := Device.answered { s.dev with
                    dup.queue := queue ++ [{ volume := v, origin := .demand }] }
                  p tag t .ok none [.num 1 (queue.length + 1), .name .demand]
                exec i s = .next { s with dev := settle (d, [.passStart]) }
                ∧ (s.dev.dup.pass ≠ none → exec i s = .next { s with dev := d }))
              ∧ (∀ before f after, queue = before ++ f :: after → f.volume = v → (∀ g ∈ before, g.volume ≠ v) →
                (∀ g ∈ after, g.volume ≠ v) → s.dev.dup.pass ≠ none →
                Answers i { s.dev with
                    dup.queue := before ++ { f with origin := .demand } :: after } .ok
                  [.num 1 (before.length + 1), .name .demand])))
    ∧ (∀ bytes : List Byte, s.Issued p tag .pacingSet t [.text bytes] →
      let mode : Pacing :=
        if bytes = padded "SPRINT" then .sprint else if bytes = padded "SHARE" then .share else .trickle
      let word : Name :=
        if bytes = padded "SPRINT" then .sprint else if bytes = padded "SHARE" then .share else .trickle
      let d : Device := Device.answered { s.dev with dup.mode := mode } p tag t .ok none [.name word]
      let Becomes (e : Device) : Prop := exec (.pacingSet p tag) s = .next { s with dev := e }
      let cap := if s.dev.clock.window = .opened then (match mode with | .sprint => 12 | .share => 6 | .trickle => 1) else 1
      let noPass : Prop :=
        s.dev.dup.pass = none ∨ (∀ o ∈ s.dev.dup.staging, o.phase ≠ .ready) ∨ cap ≤ s.dev.passSlots
      let eligible (r : Restore) (i : Nat) (e : Extent) (c : Nat) : Prop :=
        r.state = .running ∧ r.cancel = false ∧ r.current = some i ∧ r.extents[i]? = some e ∧ r.cursor = some c
          ∧ c < e.source + e.count ∧ r.outcomes[i]? = some .running
      let image (r : Restore) (g : Nat) : Image := s.dev.resolve r.source r.snapshot g
      let inPlace (r : Restore) (e : Extent) (g : Nat) : Prop :=
        (∃ v, image r g = .live v) ∧ e.destVolume = r.source ∧ e.dest + (g - e.source) = g
      let room (v g : Nat) (m : Image) : Prop :=
        m ≠ .unwritten ∧ ((∃ n, m = .live n) → s.dev.entry? v g = none → s.dev.pres.table.length < 256)
      ((∀ k, s.dev.slot? k ≠ none) → Becomes d)
      ∧ (noPass → (∀ r ∈ s.dev.copy.restores, ∀ i e c, ¬ eligible r i e c) → Becomes d)
      ∧ ∀ k, s.dev.slot? k = none → (∀ l, l ≠ k → s.dev.slot? l ≠ none) → s.dev.pool.link = .up →
          (∀ q before pl after, s.dev.dup.pass = some q → s.dev.dup.staging = before ++ pl :: after →
            pl.phase = .ready → (∀ o ∈ before ++ after, o.phase ≠ .ready) → s.dev.passSlots < cap →
            (∀ r ∈ s.dev.copy.restores, ∀ i e c, ¬ eligible r i e c) ∨ s.dev.copy.lastServed = some .restore →
            let m := s.dev.resolve q.volume (q.snapshot.getD 0) pl.grain
            room q.volume pl.grain m →
            Becomes (Device.readAsked
              { d with copy.lastServed := some .pass
                       dup.staging := before ++ { pl with phase := .reading k } :: after } k
              { stream := .pass, volume := q.volume, grain := pl.grain, snapshot := q.snapshot.getD 0, image := m
                destVolume := 0, destGrain := 0, declared := 0, phase := .reading }))
          ∧ ∀ before r after i e c g, s.dev.copy.restores = before ++ r :: after →
            (∀ q ∈ before ++ after, q.id ≠ r.id) → eligible r i e c → noPass ∨ s.dev.copy.lastServed ≠ some .restore →
            (∀ q ∈ before ++ after, ∀ j f b, eligible q j f b →
              (s.dev.copy.cursor < r.id ∧ (s.dev.copy.cursor < q.id → r.id < q.id))
                ∨ (r.id ≤ s.dev.copy.cursor ∧ q.id ≤ s.dev.copy.cursor ∧ r.id < q.id)) →
            e.source ≤ c → c ≤ g → g < e.source + e.count → ¬ inPlace r e g → room r.source g (image r g) →
            (∀ h, c ≤ h → h < g → image r h = .unwritten ∨ inPlace r e h) →
            let passed := List.range' c (g - c)
            Becomes (Device.readAsked
              { d with
                copy.restores := before ++ { r with
                  cursor := some (g + 1), inFlight := r.inFlight + 1
                  unwritten := r.unwritten + (passed.filter fun h => image r h = .unwritten).length
                  alreadyCurrent := r.alreadyCurrent + (passed.filter fun h => image r h ≠ .unwritten).length } :: after
                copy.lastServed := some .restore, copy.cursor := r.id } k
              { stream := .restore r.id, volume := r.source, grain := g, snapshot := r.snapshot, image := image r g
                destVolume := e.destVolume, destGrain := e.dest + (g - e.source)
                declared := if e.fresh then 1 else 0, phase := .reading }))

/-- R157, R158, R159, R145, R186: STAGING SET stores its four settings, and gives issuing under the new marks to the
running pass; PASS STATUS answers with the unit's state and changes nothing else; SIGNAL PEER leaves an ATTENTION
waiting, or sends it at once over a READY link whose transmitter is idle. The layout of the results is read from R186
(entry 18). -/
def Obligations.StagingStatusAndSignal : Prop :=
  ∀ (s : State) (p : PortId) (tag : Nat) (t : Txn),
    let Answers (i : Instr) (d : Device) (st : MgmtStatus) (items : List Item) : Prop :=
      exec i s = .next { s with dev := d.answered p tag t st none items }
    let u := s.dev.dup
    (∀ low high idle ack : Nat, s.Issued p tag .stagingSet t [.num low, .num high, .num idle, .num ack] →
      let bad : Prop := low < 1 ∨ low > 62 ∨ high < 2 ∨ high > 63 ∨ low ≥ high ∨ idle < 1 ∨ idle > 255 ∨ ack < 1 ∨ ack > 255
      (bad → Answers (.stagingSet p tag) s.dev .badArgument [])
      ∧ (¬ bad → Answers (.stagingSet p tag) { s.dev with
            dup.settings := { low := low, high := high, idleClose := idle, ackTimeout := ack }
            dup.pass := u.pass.map fun q => { q with issuing :=
              if u.staging.length ≥ high then false else if u.staging.length ≤ low then true else q.issuing } } .ok
          [.num 1 low, .num 1 high, .num 1 idle, .num 1 ack]))
    ∧ (s.Issued p tag .passStatus t [] → Answers (.passStatus p tag) s.dev .ok
        ([.name (if s.dev.clock.window = .opened then .opened else .closed), .name u.mode.name
          , .name (if s.dev.clock.window = .opened then u.mode.name else .trickle)
          , .name (match u.link with
              | .down => .down
              | .up => .up
              | .ready _ => .ready)
          , .num 1 u.settings.low, .num 1 u.settings.high, .num 1 u.settings.idleClose, .num 1 u.settings.ackTimeout]
        ++ (.num 1 u.queue.length :: (u.queue.map fun e => [Item.num 1 e.volume, .name e.origin.name]).flatten)
        ++ (match u.pass with
            | none => [.num 1 0, .raw (List.replicate 85 0)]
            | some q =>
              [.num 1 1, .num 1 q.volume, .name q.origin.name, .num 2 q.target, .num 4 q.anchor]
              ++ Item.optNum 4 q.snapshot
              ++ [.name q.state.name, .num 1 (if q.stopRequested then 1 else 0), .num 4 q.cursor, .num 4 q.sent
                , .num 1 q.nextSeq, .name (if q.issuing then .on else .off), .num 2 q.backlog.length, .num 1 q.resends]
              ++ Item.optTime q.startTime
              ++ [.num 1 u.staging.length, .num 1 (u.staging.filter fun x => match x.phase with
                    | .placed _ _ => true
                    | _ => false).length]
              ++ (.num 1 u.batches.length :: (u.batches.map fun b =>
                  [Item.num 1 b.sequence, .name b.state.name, .num 2 b.grains.length, .num 1 b.resends]).flatten))))
    ∧ ∀ code : Nat, s.Issued p tag .signalPeer t [.num code] →
        (code > 65535 → Answers (.signalPeer p tag) s.dev .badArgument [])
        ∧ (code ≤ 65535 → u.attention ≠ none → Answers (.signalPeer p tag) s.dev .busy [])
        ∧ (code ≤ 65535 → u.attention = none → (∀ m, u.link ≠ .ready m) ∨ u.transmitting ≠ none →
            Answers (.signalPeer p tag) { s.dev with dup.attention := some code } .ok [])
        ∧ (∀ m, code ≤ 65535 → u.attention = none → u.link = .ready m → u.transmitting = none →
            let d := s.dev.answered p tag t .ok none []
            exec (.signalPeer p tag) s = .next { s with dev := { d with
              dup.transmitting := some (.attention code), out := d.out ++ [.offsite (.attention code)] } })
/-! ### The pass getting somewhere -/

/-- R138, R140, R141, R103: the start of a pass (standing alone, entry 5), of the head entry while the window is OPEN
and of the oldest DEMAND entry while it is CLOSED: the entry leaves the queue, the record is made, and the cut is asked
for. A volume being CUT makes the pass wait; an accepted cut waits for its writes in flight or completes at once, the
pass then SWEEPING with the snapshot pinned; one refused as EXHAUSTED ends the pass FAILED with reason CUT (here with
nothing else waiting on that end). With a pass running, or no entry that may start, nothing changes. -/
def Obligations.PassStarts : Prop :=
  ∀ s : State, s.dev.resetLow = false →
    let queue := s.dev.dup.queue
    let starts (e : DupEntry) : Prop :=
      if s.dev.clock.window = .opened then queue.head? = some e
      else ∃ before after, queue = before ++ e :: after ∧ e.origin = .demand ∧ ∀ f ∈ before, f.origin ≠ .demand
    (s.dev.dup.pass ≠ none ∨ (∀ e, ¬ starts e) → exec .passStart s = .next s)
    ∧ ∀ e x, s.dev.dup.pass = none → starts e → s.dev.volume? e.volume = some x →
        let stamp := if s.dev.clock.valid then some s.dev.clock.time else none
        let pass (n : Option Nat) (st : PassState) : Pass :=
          { volume := e.volume, origin := e.origin, target := x.target.getD 0, anchor := x.anchor, snapshot := n
            state := st, stopRequested := false, cursor := 0, sent := 0, nextSeq := 0, issuing := true, backlog := []
            resends := 0, startTime := stamp, passEndWaits := false, passEndTimer := none }
        let d (q : Pass) (y : Volume) : Device := { s.dev with
          dup.queue := queue.filter fun f => f.volume ≠ e.volume
          dup.pass := some q
          volumes := s.dev.volumes.insert e.volume y }
        (x.cut ≠ none → ∃ t, exec .passStart s = .next t ∧ t.dev = { s.dev with
          dup.queue := queue.filter fun f => f.volume ≠ e.volume
          dup.pass := some (pass none .cutting) } ∧ t.pending = s.pending)
        ∧ (x.cut = none → x.state = .ready → x.epoch < 16777215 → x.snapshots.length < 16 →
            (x.inFlight > 0 → exec .passStart s = .next { s with
              dev := d (pass none .cutting) { x with
                cut := some { kind := .duplication, requester := .pass, acceptedAt := stamp
                              drainEnds := s.dev.clock.now + 2000, room := .have } } })
            ∧ (x.inFlight = 0 → s.dev.cutHold = [] → exec .passStart s = .next { s with
              dev := Device.noted (d (pass (some x.epoch) .sweeping) { x with
                  snapshots := x.snapshots ++ [{ number := x.epoch, kind := .duplication, cutTime := stamp
                                                 state := .active, pins := 1, answers := none }]
                  epoch := x.epoch + 1 })
                .cutDone (.volume e.volume) (.number x.epoch) }))
        ∧ (x.cut = none → x.state = .ready → x.epoch = 16777215 → queue = [e] →
            Device.PassAlone { s.dev with dup.queue := [] } →
            exec .passStart s = .next { s with
              dev := (Device.passClosed { s.dev with dup.queue := [] } (pass none .cutting) x .failed (some .cut)).noted
                .passFailed (.volume e.volume) (.name .cut) })

/-- R142, R143, R144: making ready reserves a place at the tail for the head of the resend backlog, or for the sweep's
next grain to send, as of the pass's snapshot and above its anchor, and turns issuing OFF at the high mark; with four
batches and none OPEN a sweep grain waits; a walk that finds none passes the last grain. A placement puts the slot's
data and its grain check into the grain's place, or drops it, and the slot becomes FREE. Here every copy slot works,
or no grain is ready and no restore runs, and the transmitter can take nothing: a making ready with a copy slot FREE
for it is left out. That a placement of a slot that is not STAGING changes nothing is the model's choice (DESIGN
CHOICE, entry 4). That making ready is a command of its own, and that one of them carries the whole walk past the last
grain, is read from the spec by inference (DEDUCED, entry 8). -/
def Obligations.GrainsMadeReadyAndPlaced : Prop :=
  ∀ s : State, s.dev.resetLow = false →
    let staging := s.dev.dup.staging
    let batches := s.dev.dup.batches
    let ready : Prop := ∃ pl ∈ staging, pl.phase = .ready
    (∀ q, s.dev.dup.pass = some q → (q.state ≠ .sweeping ∧ q.state ≠ .draining) ∨ q.issuing = false ∨ ready →
      exec .grainMakeReady s = .next s)
    ∧ (s.dev.dup.pass = none → exec .grainMakeReady s = .next s)
    ∧ (∀ q x, s.dev.dup.pass = some q → q.state = .sweeping ∨ q.state = .draining → q.issuing = true → ¬ ready →
        s.dev.volume? q.volume = some x →
        let version (g : Nat) : Option Nat := (s.dev.resolve q.volume (q.snapshot.getD 0) g).version
        let sends (g : Nat) : Prop := ∃ v, version g = some v ∧ q.anchor < v
        let reserved (r : Pass) (g v : Nat) (source : PlaceSource) : State := { s with dev := { s.dev with
          dup.staging := staging ++ [{ grain := g, version := v, source := source, phase := .ready }]
          dup.pass := some { r with issuing := decide (staging.length + 1 < s.dev.dup.settings.high) } } }
        let passed (r : Pass) : State := { s with dev := { s.dev with
          dup.pass := some r } }
        (∀ g n rest v, (∀ k, s.dev.slot? k ≠ none) → q.backlog = (g, n) :: rest → version g = some v →
          exec .grainMakeReady s = .next (reserved { q with backlog := rest } g v (.resend n)))
        ∧ (q.backlog = [] → q.state = .draining → exec .grainMakeReady s = .next s)
        ∧ (∀ g v, q.backlog = [] → q.state = .sweeping → q.cursor ≤ g → g < x.capacity →
            (∀ f, q.cursor ≤ f → f < g → ¬ sends f) → version g = some v → q.anchor < v →
            (batches.length ≥ 4 → (∀ b ∈ batches, b.state ≠ .opened) →
              exec .grainMakeReady s = .next (passed { q with cursor := g }))
            ∧ ((∀ k, s.dev.slot? k ≠ none) → (batches.length < 4 ∨ ∃ b ∈ batches, b.state = .opened) →
              exec .grainMakeReady s = .next (reserved { q with cursor := g + 1 } g v .sweep)))
        ∧ (q.backlog = [] → q.state = .sweeping → staging ≠ [] →
            (∀ g, q.cursor ≤ g → g < x.capacity → ¬ sends g) →
            exec .grainMakeReady s = .next (passed { q with cursor := max q.cursor x.capacity })))
    ∧ (∀ k, (∀ z data, s.dev.slot? k = some z → z.phase ≠ .staging data) → exec (.placementEnd k) s = .next s)
    ∧ ∀ k z data, s.dev.slot? k = some z → z.phase = .staging data → ¬ ready →
        (∀ r ∈ s.dev.copy.restores, r.state ≠ .running) → s.dev.TransmitterHeld →
        exec (.placementEnd k) s = .next { s with dev := { s.dev with
          copy.slots := s.dev.copy.slots.set k.val none k.isLt
          dup.staging := staging.map fun pl =>
            if pl.phase = .reading k then { pl with phase := .placed data (grainCheck data) } else pl } }

/-- R145, R146, R147: at the end of a transmission the transmitter, the link READY, takes an ATTENTION, else the SHUT
of the oldest batch that waits, else a PASS END, else from the head place of staging, when PLACED, the OPEN of a
resend or of a new batch (four in the table hold it back) or the grain, which joins its batch, the last one shutting
it; with the link not READY, nothing waiting (the pass then not at the end of its sweep or of its draining) or the
head RESERVED it becomes idle. Here another place follows a grain taken. The idle timer shuts the OPEN batch (here
with a transmitter that can take nothing). That an end of a transmission with no frame in transmission, and an idle
close with no OPEN batch or no timer of it running, change nothing is the model's choice (DESIGN CHOICE, entry 4), and
so is that a link not READY leaves the transmitter idle (DESIGN CHOICE, entry 28). -/
def Obligations.TransmitterTakesFrames : Prop :=
  ∀ s : State, s.dev.resetLow = false →
    let u := s.dev.dup
    let idle : State := { s with dev := { s.dev with
      dup.transmitting := none } }
    let sent (v : Duplication) (f : OffsiteFrame) : State := { s with dev := { s.dev with
      dup := { v with transmitting := some f }
      out := s.dev.out ++ [.offsite f] } }
    let shut (b : Batch) (now : Nat) : Batch :=
      { b with state := .shut, reopened := false, idleEnds := none
               ackEnds := some (now + 1000 * u.settings.ackTimeout), shutWaits := true }
    let isAt (before : List Batch) (b : Batch) (after : List Batch) : Prop :=
      u.batches = before ++ b :: after ∧ (∀ f ∈ before, f.sequence ≠ b.sequence) ∧ ∀ f ∈ after, f.sequence ≠ b.sequence
    (u.transmitting = none → exec .transmissionEnd s = .next s)
    ∧ (u.transmitting ≠ none → (∀ m, u.link ≠ .ready m) → exec .transmissionEnd s = .next idle)
    ∧ (∀ m, u.transmitting ≠ none → u.link = .ready m →
        (∀ c, u.attention = some c → exec .transmissionEnd s = .next (sent { u with attention := none } (.attention c)))
        ∧ (∀ before b after, u.attention = none → isAt before b after → b.shutWaits = true →
            (∀ f ∈ before, f.shutWaits = false) →
            exec .transmissionEnd s = .next
              (sent { u with batches := before ++ { b with shutWaits := false } :: after }
                (.shut b.sequence b.grains.length b.check)))
        ∧ (u.attention = none → (∀ b ∈ u.batches, b.shutWaits = false) → u.pass = none →
            exec .transmissionEnd s = .next idle)
        ∧ ∀ q, u.attention = none → (∀ b ∈ u.batches, b.shutWaits = false) → u.pass = some q →
            (q.passEndWaits = true →
              exec .transmissionEnd s = .next (sent { u with pass := some { q with passEndWaits := false } }
                (.passEnd q.target (q.snapshot.getD 0) q.sent)))
            ∧ (q.passEndWaits = false → u.staging = [] →
              (q.state = .sweeping → q.backlog ≠ [] ∨ ∃ x, s.dev.volume? q.volume = some x ∧ q.cursor < x.capacity) →
              (q.state = .draining → q.backlog ≠ [] ∨ u.batches ≠ []) → exec .transmissionEnd s = .next idle)
            ∧ ∀ pl rest, q.passEndWaits = false → u.staging = pl :: rest →
              ((∀ data check, pl.phase ≠ .placed data check) → exec .transmissionEnd s = .next idle)
              ∧ ∀ data check, pl.phase = .placed data check →
                (∀ before b after, isAt before b after → pl.source = .resend b.sequence → b.reopened = false →
                  exec .transmissionEnd s = .next (sent
                    { u with batches := before ++ { b with reopened := true, check := 0, resent := 0 } :: after }
                    (.openBatch b.sequence q.target)))
                ∧ (pl.source = .sweep → (∀ b ∈ u.batches, b.state ≠ .opened) → u.batches.length ≥ 4 →
                  exec .transmissionEnd s = .next idle)
                ∧ (pl.source = .sweep → (∀ b ∈ u.batches, b.state ≠ .opened) → u.batches.length < 4 →
                  let b : Batch := { sequence := q.nextSeq, state := .opened, grains := [], check := 0, resends := 0
                                     reopened := false, resent := 0, idleEnds := none, ackEnds := none
                                     shutWaits := false }
                  exec .transmissionEnd s = .next (sent
                    { u with batches := u.batches ++ [b], pass := some { q with nextSeq := (q.nextSeq + 1) % 256 } }
                    (.openBatch q.nextSeq q.target)))
                ∧ (∀ before b after, rest ≠ [] → isAt before b after →
                  let low (r : Pass) : Pass :=
                    { r with issuing := if rest.length ≤ u.settings.low then true else r.issuing }
                  let taken (c : Batch) (r : Pass) : State :=
                    sent { u with staging := rest, batches := before ++ c :: after, pass := some (low r) }
                      (.grain q.target pl.grain pl.version data check)
                  (pl.source = .sweep → b.state = .opened → (∀ f ∈ before, f.state ≠ .opened) →
                    let c : Batch := { b with
                      grains := b.grains ++ [pl.grain], check := b.check ^^^ check
                      idleEnds := some (s.dev.clock.now + 100 * u.settings.idleClose) }
                    exec .transmissionEnd s = .next
                      (taken (if b.grains.length + 1 = 256 then shut c s.dev.clock.now else c)
                        { q with sent := q.sent + 1 }))
                  ∧ (pl.source = .resend b.sequence → b.state = .resending → b.reopened = true →
                    let c : Batch := { b with check := b.check ^^^ check, resent := b.resent + 1 }
                    exec .transmissionEnd s = .next
                      (taken (if b.resent + 1 = b.grains.length then shut c s.dev.clock.now else c) q))))
    ∧ ((∀ b ∈ u.batches, b.state ≠ .opened) → exec .batchIdleClose s = .next s)
    ∧ ∀ before b after, isAt before b after → b.state = .opened → (∀ f ∈ before, f.state ≠ .opened) →
        (b.idleEnds = none → exec .batchIdleClose s = .next s)
        ∧ ∀ m, b.idleEnds = some m → s.dev.TransmitterHeld →
            exec .batchIdleClose s = .next { s with dev := { s.dev with
              clock.now := max s.dev.clock.now m
              dup.batches := before ++ shut b (max s.dev.clock.now m) :: after } }

/-- R148, R149, R150, R151, R153: an ACK of a SHUT batch takes it and every older batch out of the table, the pass
going on while anything is left to it, and a DRAINING pass left with nothing asks for its PASS END; a REFUSE with DATA
or ORDER and the expiry of an acknowledgement timer start the go-back: the covered batches become RESENDING with one
more resend, staging is emptied, the cursor returns to the lowest sweep grain discarded, the backlog holds the covered
grain lists and issuing is ON; a covered batch with three resends ends the pass FAILED with RESEND, and a REFUSE with
FULL or NO_TARGET with that reason (here with nothing else waiting on that end). Anything else is discarded. The
transmitter can take nothing here. Neither an ACK nor the go-back makes a grain ready: the next making ready is a
command of its own (DEDUCED, entry 8). -/
def Obligations.AcksAndGoBack : Prop :=
  ∀ s : State, s.dev.resetLow = false → s.dev.TransmitterHeld →
    let u := s.dev.dup
    let now := s.dev.clock.now
    (∀ n, (∀ m, u.link ≠ .ready m) ∨ (∀ b ∈ u.batches, b.sequence ≠ n) →
      exec (.ack n) s = .next s ∧ ∀ r, exec (.refuse n r) s = .next s)
    ∧ (∀ n, (∀ b ∈ u.batches, b.sequence ≠ n) → exec (.ackTimeout n) s = .next s)
    ∧ ∀ before b after, u.batches = before ++ b :: after → (∀ f ∈ before, f.sequence ≠ b.sequence) →
        let n := b.sequence
        (b.state ≠ .shut → exec (.ack n) s = .next s)
        ∧ (b.ackEnds = none → exec (.ackTimeout n) s = .next s)
        ∧ ∀ q x, u.pass = some q → s.dev.volume? q.volume = some x →
            (∀ m, u.link = .ready m → b.state = .shut →
              u.staging ≠ [] ∨ q.backlog ≠ [] ∨
                ((q.state = .sweeping → q.cursor < x.capacity) ∧ (q.state = .draining → after ≠ [])) →
              exec (.ack n) s = .next { s with dev := { s.dev with
                dup.batches := after } })
            ∧ (∀ m, u.link = .ready m → b.state = .shut → q.state = .draining → u.staging = [] → q.backlog = [] →
                after = [] →
                exec (.ack n) s = .next { s with dev := { s.dev with
                  dup.batches := []
                  dup.pass := some { q with
                    state := .closing, passEndWaits := true
                    passEndTimer := some (now + 1000 * u.settings.ackTimeout) } } })
            ∧ (∀ m, u.link = .ready m → s.dev.PassAlone →
                exec (.refuse n .full) s = .next { s with
                  dev := (s.dev.passClosed q x .failed (some .full)).noted .passFailed (.volume q.volume) (.name .full) }
                ∧ exec (.refuse n .noTarget) s = .next { s with
                  dev := (s.dev.passClosed q x .failed (some .noTarget)).noted .passFailed (.volume q.volume)
                    (.name .noTarget) })
            ∧ ∀ older covered, u.batches = older ++ covered →
                (∀ f ∈ older, f.sequence ≠ n ∧ f.state ≠ .resending) →
                (∃ f rest, covered = f :: rest ∧ (f.sequence = n ∨ f.state = .resending)) →
                let kept := covered.filter fun c => ¬ (c.state = .opened ∧ c.grains = [])
                let back (now : Nat) : State := { s with dev := { s.dev with
                  clock.now := now
                  dup.staging := []
                  dup.batches := older ++ kept.map fun c => { c with
                    state := .resending, reopened := false, resent := 0, resends := c.resends + 1, idleEnds := none
                    ackEnds := some (now + 1000 * u.settings.ackTimeout), shutWaits := false }
                  dup.pass := some { q with
                    nextSeq := match covered.find? fun c => c.state = .opened ∧ c.grains = [] with
                      | some c => c.sequence
                      | none => q.nextSeq
                    cursor := ((u.staging.filter fun pl => pl.source = .sweep).map Place.grain).min?.getD q.cursor
                    backlog := (kept.map fun c => c.grains.map fun g => (g, c.sequence)).flatten
                    issuing := true } } }
                ((∀ c ∈ covered, c.resends < 3) → (∃ c ∈ covered, c.grains ≠ []) →
                  (∀ m, u.link = .ready m →
                    exec (.refuse n .data) s = .next (back now) ∧ exec (.refuse n .order) s = .next (back now))
                  ∧ ∀ m, b.ackEnds = some m → exec (.ackTimeout n) s = .next (back (max now m)))
                ∧ ((∃ c ∈ covered, c.resends ≥ 3) → s.dev.PassAlone →
                  let ended (now : Nat) : State := { s with
                    dev := { (s.dev.passClosed q x .failed (some .resend)).noted .passFailed (.volume q.volume)
                        (.name .resend) with
                      clock.now := now } }
                  (∀ m, u.link = .ready m →
                    exec (.refuse n .data) s = .next (ended now) ∧ exec (.refuse n .order) s = .next (ended now))
                  ∧ ∀ m, b.ackEnds = some m → exec (.ackTimeout n) s = .next (ended (max now m)))

/-- R151, R152, R153, R154, R155, R107, R108: a SWEEPING pass with no grain left to send, nothing in the backlog and
staging empty shuts its OPEN batch and becomes DRAINING, and CLOSING at once with no batch; a DRAINING pass with
nothing left becomes CLOSING, its PASS END waiting and its timer started; that timer resends the PASS END three times
and then ends the pass FAILED with CLOSE; the matching PASS ACK ends it DONE: the anchor becomes the snapshot, ONCE
becomes NONE with the queue entry gone, PASS_END is queued, and the volume's older ACTIVE unpinned DUPLICATION
snapshots start retiring, oldest first (R107). PASS STOP stops a cut still open at its outcome, else ends the pass
STOPPED at once; its response shows no pass state then (DEDUCED, entry 17). The other events change nothing. That the
end of the sweep carries the cursor past the grains with nothing to send, a command of its own, is read from the spec
by inference (DEDUCED, entry 8). Here nothing else waits on the pass's end, and the transmitter can take nothing. -/
def Obligations.PassEnds : Prop :=
  ∀ s : State, s.dev.resetLow = false → s.dev.TransmitterHeld →
    let u := s.dev.dup
    (u.pass = none → exec .sweepEnd s = .next s ∧ exec .drainEnd s = .next s ∧ exec .passEndTimeout s = .next s
      ∧ (∀ target n, exec (.passAck target n) s = .next s)
      ∧ ∀ p tag t, s.Issued p tag .passStop t [] →
          exec (.passStop p tag) s = .next { s with dev := s.dev.answered p tag t .notFound none [] })
    ∧ ∀ q x, u.pass = some q → s.dev.volume? q.volume = some x →
        let now := s.dev.clock.now
        let sends (g : Nat) : Prop :=
          ∃ v, (s.dev.resolve q.volume (q.snapshot.getD 0) g).version = some v ∧ q.anchor < v
        let swept : Prop := q.state = .sweeping ∧ q.backlog = [] ∧ u.staging = []
          ∧ ∀ g, q.cursor ≤ g → g < x.capacity → ¬ sends g
        let drained : Prop := q.state = .draining ∧ q.backlog = [] ∧ u.staging = [] ∧ u.batches = []
        let onward (r : Pass) (batches : List Batch) : State := { s with dev := { s.dev with
          dup.pass := some r
          dup.batches := batches } }
        let closing (r : Pass) (now : Nat) : Pass :=
          { r with state := .closing, passEndWaits := true
                   passEndTimer := some (now + 1000 * u.settings.ackTimeout) }
        let atEnd : Pass := { q with cursor := max q.cursor x.capacity }
        (¬ swept → exec .sweepEnd s = .next s)
        ∧ (swept → u.batches = [] → exec .sweepEnd s = .next (onward (closing atEnd now) []))
        ∧ (swept → u.batches ≠ [] → (∀ b ∈ u.batches, b.state ≠ .opened) →
            exec .sweepEnd s = .next (onward { atEnd with state := .draining } u.batches))
        ∧ (∀ before b after, swept → u.batches = before ++ b :: after → b.state = .opened →
            (∀ f ∈ before, f.state ≠ .opened ∧ f.sequence ≠ b.sequence) → (∀ f ∈ after, f.sequence ≠ b.sequence) →
            exec .sweepEnd s = .next (onward { atEnd with state := .draining }
              (before ++ { b with state := .shut, reopened := false, idleEnds := none
                                  ackEnds := some (now + 1000 * u.settings.ackTimeout), shutWaits := true } :: after)))
        ∧ (¬ drained → exec .drainEnd s = .next s)
        ∧ (drained → exec .drainEnd s = .next (onward (closing q now) []))
        ∧ (q.state ≠ .closing ∨ q.passEndTimer = none → exec .passEndTimeout s = .next s)
        ∧ (∀ m, q.state = .closing → q.passEndTimer = some m →
            (q.resends < 3 → exec .passEndTimeout s = .next { s with dev := { s.dev with
              clock.now := max now m
              dup.pass := some { closing q (max now m) with resends := q.resends + 1 } } })
            ∧ (q.resends ≥ 3 → s.dev.PassAlone → exec .passEndTimeout s = .next { s with
              dev := { (s.dev.passClosed q x .failed (some .close)).noted .passFailed (.volume q.volume) (.name .close)
                  with
                clock.now := max now m } }))
        ∧ (∀ target n, (∀ m, u.link ≠ .ready m) ∨ q.state ≠ .closing ∨ q.target ≠ target ∨ q.snapshot ≠ some n →
            exec (.passAck target n) s = .next s)
        ∧ (∀ m n, u.link = .ready m → q.state = .closing → q.snapshot = some n → s.dev.PassAlone →
            let older := (x.snapshots.filter fun k =>
              k.state = .active ∧ k.pins = 0 ∧ k.kind = .duplication ∧ k.number < n).map Snapshot.number
            let begins : Prop := x.sweeps = [] ∧ older ≠ []
            let y : Volume := { x with
              anchor := n, enrolment := if x.enrolment = .once then .none else x.enrolment
              snapshots := x.snapshots.map fun k =>
                if k.number ∈ older then { k with state := .retiring, answers := none } else k
              sweeps := x.sweeps ++ older, sweepAt := if begins then none else x.sweepAt
              sweepFreed := if begins then 0 else x.sweepFreed }
            exec (.passAck q.target n) s = .next { s with
              dev := { (s.dev.passClosed q y .done none).noted .passEnd (.volume q.volume) (.number n) with
                dup := { u with
                  pass := none, staging := [], batches := []
                  queue := if x.enrolment = .once then u.queue.filter fun e => e.volume ≠ q.volume else u.queue } } })
        ∧ ∀ p tag t, s.Issued p tag .passStop t [] →
            (∀ c, q.state = .cutting → x.cut = some c → c.requester = .pass →
              exec (.passStop p tag) s = .next { s with
                dev := Device.answered { s.dev with
                    dup.pass := some { q with stopRequested := true } }
                  p tag t .ok none [.num 1 1, .name .cutting] })
            ∧ ((q.state ≠ .cutting ∨ ∀ c, x.cut = some c → c.requester ≠ .pass) → s.dev.PassAlone →
              exec (.passStop p tag) s = .next { s with
                dev := Device.noted ((s.dev.passClosed q x .stopped (some .stop)).answered p tag t .ok none
                    [.num 1 0, .raw (List.replicate 16 0)])
                  .passFailed (.volume q.volume) (.name .stop) })


/-! ### The management unit -/

/-- R182, R183: NOTICE READ takes from the head as many notices as its count or as the queue holds, clears the overflow
flag, leaves ATTN# low while a notice remains, and answers with the number taken, the flag before, the number left and
the notices; a count of 0 or above 8 is refused with BAD_ARGUMENT; with no answer owed no notice leaves and the flag is
kept. -/
def Obligations.NoticeReadTakes : Prop :=
  ∀ (s : State) (p : PortId) (tag : Nat) (t : Txn) (n : Nat), s.Issued p tag .noticeRead t [.num n] →
    let m := s.dev.mgmt
    (n = 0 ∨ n > 8 → exec (.noticeRead p tag) s = .next { s with dev := s.dev.answered p tag t .badArgument none [] })
    ∧ (1 ≤ n → n ≤ 8 → t.owed = true → exec (.noticeRead p tag) s = .next { s with
        dev := Device.answered { s.dev with
            mgmt := { m with notices := m.notices.drop n, overflow := false
                             attnLow := decide (n < m.notices.length) } }
          p tag t .ok none
          ([.num 1 (min n m.notices.length), .num 1 (if m.overflow then 1 else 0), .num 1 (m.notices.length - n)]
            ++ (m.notices.take n).map fun x => Item.raw x.bytes) })
    ∧ (1 ≤ n → n ≤ 8 → t.owed = false → exec (.noticeRead p tag) s = .next { s with
        dev := s.dev.answered p tag t .ok none [] })

/-- R16, R95, R114, R133, R160, R177, R178, R29: PATH RESET: BUSY while one is pending. Carried out, it quarantines every
BUSY pool tag for 5 s, empties the request queue, the cut-hold queue, the reader and slot waits and the table of pending
entries, frees every copy slot and clears the streak and the copy engine's fairness state; with no tag BUSY it answers at
once with its three counts, else it waits for those tags. It ends every open READ and WRITE ABORTED, in an order that is
open (DESIGN CHOICE, entry 10); a WRITE or a copy's write that was admitted releases its charge and leaves the epoch
writes in flight; the slot of an entry whose preservation had not stored returns; a cut is abandoned with CUT_FAILED of
value RESET and a CUT answered ABORTED for RESET; a restore that is QUEUED or RUNNING ends CANCELLED for RESET, its
current extent CANCELLED and the rest NOT_RUN; the pass ends FAILED for RESET. Each of these is stated with the others
absent, but for the open transactions, which are stated together, and for a CUTTING pass with its cut, whose two notices
come in an open order (DESIGN CHOICE, entry 11). Here no volume is REMOVING and no queue entry may start a pass. -/
def Obligations.PathResetAborts : Prop :=
  ∀ (s : State) (p : PortId) (tag : Nat) (t : Txn), s.Issued p tag .pathReset t [] → t.kind = .mgmt →
    let d := s.dev
    let Becomes (e : Device) : Prop := exec (.pathReset p tag) s = .next { s with dev := e }
    (d.mgmt.pathReset ≠ none → Becomes (d.answered p tag t .busy none []))
    ∧ (d.mgmt.pathReset = none → d.txns.Sorted → d.volumes.Sorted → d.volumes.length ≤ 64 →
        (∀ e ∈ d.volumes, e.2.state ≠ .removing) →
        (d.dup.queue = [] ∨ (d.clock.window = .closed ∧ ∀ e ∈ d.dup.queue, e.origin ≠ .demand)) →
        let data : List (Nat × Txn) := d.txns.filter fun e => e.2.kind = .read ∨ e.2.kind = .write
        let bare (x : Volume) : Volume := { x with slotWait := [] }
        let cleared : Device := { d with
          txns := (d.taken p tag t).txns
          cutHold := []
          volumes := d.volumes.map fun e => (e.1, bare e.2)
          pool := { d.pool with
            tags := d.pool.tags.map fun x => match x with
              | .busy _ _ => .quarantined (d.clock.now + 5000)
              | y => y
            preserveQ := [], pathQ := [], copyQ := [], streak := 0 }
          pres := { d.pres with table := [], readerWait := [] }
          copy := { d.copy with slots := Vector.replicate 16 none, lastServed := none, cursor := 0 } }
        let left : List PoolTagId := d.pool.busyTags.map Prod.fst
        let finish (e : Device) (aborted restores : Nat) (passEnded : Bool) : Device :=
          if left = [] then
            e.answered p tag t .ok none [.num 1 aborted, .num 1 restores, .num 1 (if passEnded then 1 else 0)]
          else
            { e with mgmt.pathReset := some { txn := { port := p, tag := tag }, left := left, aborted := aborted
                                              restores := restores, passEnded := passEnded } }
        let unchargedSlots : Prop :=
          ∀ k z j n, d.slot? k = some z → z.phase = .writing j n → j.charge = none
        let noCut : Prop := ∀ e ∈ d.volumes, e.2.cut = none
        let unstored (e : Nat × Pending) (s : Nat) : Prop :=
          (∃ b n, e.2.phase = .preserving b n s) ∨ ∃ b n o, e.2.phase = .storing b n s o
        let stored : Prop := ∀ e ∈ d.pres.table, ∀ s, ¬ unstored e s
        let noRestore : Prop := ∀ r ∈ d.copy.restores, r.state = .ended
        (unchargedSlots → noCut → stored → noRestore → d.dup.pass = none →
          ∀ ends : List (PortId × Nat × Txn), data = ends.map (fun e => (txnKey e.1 e.2.1, e.2.2)) →
            (∀ e ∈ ends, e.2.1 < 32 ∧ e.2.2.job.charge = none) →
            ∃ order : List (PortId × Nat × Txn), order.Perm ends
              ∧ Becomes (finish
                  (order.foldl (fun e x => Device.ended e x.1 x.2.1 x.2.2 .aborted 0 [])
                    { cleared with freeIndex := d.freeIndex + (ends.length - 1) })
                  ends.length 0 false))
        ∧ (∀ (j : Job) (c : Nat) (z : Volume), j.charge = some c → d.volume? j.volume = some z → noCut → stored →
            noRestore → d.dup.pass = none →
            let a := d.account j.account
            let lowered : Volume := { bare z with inFlight := z.inFlight - 1 }
            let settled (e : Device) (x : Device) : Prop :=
              e = { cleared with
                    volumes := cleared.volumes.insert j.volume lowered
                    accounts := x.accounts, groups := x.groups, clock := x.clock }
                ∧ (0 < c → d.Settled x j.account c a.usage)
                ∧ (c = 0 → x.accounts = d.accounts ∧ x.groups = d.groups ∧ x.clock = d.clock)
            (∀ (q : PortId) (g : Nat) (y : Txn), g < 32 → unchargedSlots → data = [(txnKey q g, y)] → y.kind = .write →
              y.job = j →
              ∃ e x, settled e x ∧ Becomes (finish (e.ended q g y .aborted 0 []) 1 0 false))
            ∧ (∀ (k : SlotId) (w : CopySlot) (n : Option Nat), data = [] → d.slot? k = some w → w.phase = .writing j n →
              (∀ l z i m, l ≠ k → d.slot? l = some z → z.phase = .writing i m → i.charge = none) →
              ∃ e x, settled e x ∧ Becomes (finish e 0 0 false)))
        ∧ (∀ before e after slot x, data = [] → unchargedSlots → noCut → noRestore → d.dup.pass = none →
            d.pres.table = before ++ e :: after → unstored e slot →
            (∀ f ∈ before ++ after, ∀ s, ¬ unstored f s) → d.volume? e.2.volume = some x →
            let held := x.slotsHeld - 1
            Becomes (finish { cleared with
              pres := { cleared.pres with free := d.pres.free ++ [slot] }
              volumes := cleared.volumes.insert e.2.volume { bare x with
                slotsHeld := held
                reserveArmed := x.reserveArmed || decide (held ≤ x.reserve - x.reserve / 4) } } 0 0 false))
        ∧ (∀ v x c, data = [] → unchargedSlots → stored → noRestore → d.volume? v = some x → x.cut = some c →
            (∀ e ∈ d.volumes, e.1 ≠ v → e.2.cut = none) →
            let gone : Device := { cleared with
              volumes := cleared.volumes.insert v { bare x with cut := none } }
            let told (e : Device) : Device :=
              { e.noted .cutFailed (.volume v) (.name .reset) with freeIndex := d.freeIndex + 1 }
            (d.dup.pass = none → c.requester = .schedule → Becomes (finish (told gone) 0 0 false))
            ∧ (∀ q tag' u, d.dup.pass = none → c.requester = .command { port := q, tag := tag' } →
              txnKey q tag' ≠ txnKey p tag → d.txn? q tag' = some u →
              Becomes (finish (told (gone.answered q tag' u .aborted (some .reset) [])) 0 0 false))
            ∧ ∀ q, c.requester = .pass → d.dup.pass = some q → q.volume = v → q.snapshot = none →
              let closed : Device :=
                { gone.passClosed q { bare x with cut := none } .failed (some .reset) with freeIndex := d.freeIndex + 2 }
              Becomes (finish ((closed.noted .cutFailed (.volume v) (.name .reset)).noted
                  .passFailed (.volume v) (.name .reset)) 0 0 true)
              ∨ Becomes (finish ((closed.noted .passFailed (.volume v) (.name .reset)).noted
                  .cutFailed (.volume v) (.name .reset)) 0 0 true))
        ∧ (∀ before r after x, data = [] → unchargedSlots → noCut → stored → d.dup.pass = none →
            d.copy.restores = before ++ r :: after → r.state ≠ .ended →
            (∀ q ∈ before ++ after, q.id ≠ r.id ∧ q.state = .ended) → d.volume? r.source = some x →
            let overAs (outcomes : List ExtentOutcome) : Device := { cleared with
              copy := { cleared.copy with
                restores := before ++ { r with
                  state := .ended, current := none, cursor := none, inFlight := 0, outcomes := outcomes
                  outcome := some .cancelled, reason := some .reset } :: after
                endedOrder := d.copy.endedOrder ++ [r.id] }
              volumes := cleared.volumes.insert r.source { bare x with
                snapshots := x.snapshots.map fun n =>
                  if n.number = r.snapshot then { n with pins := n.pins - 1 } else n } }
            let told (e : Device) (n : Nat) : Device :=
              { e.noted .restoreEnd (.restore r.id) (.restoreEnd .cancelled (some .reset)) with
                freeIndex := d.freeIndex + n }
            (r.current = none → Becomes (finish (told (overAs (r.outcomes.map fun _ => .notRun)) 1) 0 1 false))
            ∧ ∀ done o rest f, r.current = some done.length → r.outcomes = done ++ o :: rest →
              r.extents[done.length]? = some f →
              let ended := overAs (done ++ .cancelled :: rest.map fun _ => .notRun)
              (f.notify = false → Becomes (finish (told ended 1) 0 1 false))
              ∧ (f.notify = true → Becomes (finish
                  (told (ended.noted .restoreExtent (.restore r.id) (.extent .cancelled (done.length + 1))) 2) 0 1 false)))
        ∧ ∀ q x, data = [] → unchargedSlots → noCut → stored → noRestore → d.dup.pass = some q →
            d.volume? q.volume = some x →
            let ended : Device := { cleared.passClosed q (bare x) .failed (some .reset) with
              freeIndex := d.freeIndex + 1 }
            Becomes (finish (ended.noted .passFailed (.volume q.volume) (.name .reset)) 0 0 true))

/-! ### Preservation and copy reads -/

/-- R78 to R88, R93, R13, R69, R71, R111: an admitted write whose one touched grain needs preservation waits on a new
entry that takes the head of the free queue, and the preserve read is requested. With no slot to take the entry waits
in the slot-wait queue: while a snapshot of the volume is RETIRING; or as the retirement of the oldest ACTIVE unpinned
snapshot starts; or, with none, it fails at once and the write ends with RESERVE_FULL. The end of the preserve read
leads to the preserve store, and the end of the store puts the older image into the map in its order, raises the
grain's epoch and removes the entry; its waiting write then goes on to the pool, or the copy read at the head of the
reader wait list takes the place. With no ACTIVE snapshot left in its range the store's end makes no map entry: the
slot returns to the tail of the free queue, and the head of the slot-wait queue takes the free queue's head (R87). A
failure of either returns the slot to the tail of the free queue. That a tag is freed, and the arbiter looks, before
the end's outcome is handed on, so that the store may take the tag its read had, is read from the spec by inference
(DEDUCED, entry 9). Here the write charges nothing, no RESERVE_LOW is armed, and in the ends no other request or
reader stands. -/
def Obligations.PreservationRuns : Prop :=
  (∀ (s : State) (p : PortId) (h : Header) (payload : List Byte) (x : Volume) (slot : Nat) (rest : List Nat),
    s.dev.resetLow = false → (s.dev.port p).link = .up → h.badWrite payload = false → s.dev.txn? p h.tag = none →
    (s.dev.port p).fence = none → s.dev.pool.link = .up → s.dev.volume? h.volume = some x → x.state = .ready →
    h.first + h.blocks ≤ 8 * x.capacity → x.cut = none → h.declared = 0 → h.first % 8 + h.blocks ≤ 8 →
    let g := h.first / 8
    x.needs g = true → s.dev.entry? h.volume g = none → s.dev.pres.table.length < 256 → s.dev.pres.free = slot :: rest →
    x.slotsHeld < x.reserve → x.reserveArmed = false →
    exec (.write p h payload) s = .next { s with
      dev := Device.joinPool { s.dev with
          volumes := s.dev.volumes.insert h.volume
            { x with inFlight := x.inFlight + 1, slotsHeld := x.slotsHeld + 1 }
          pres.free := rest
          pres.table := s.dev.pres.table.insert (pendKey h.volume g)
            { volume := h.volume, grain := g, phase := .preserving (x.w g) x.epoch slot, readers := 0
              waiters := [.server p h.tag] }
          txns := s.dev.txns.insert (txnKey p h.tag)
            { kind := .write, owed := true, command := none
              job := { h.job payload .admitting with charge := some 0, epoch := some x.epoch, waits := [g] } } }
        { requester := .preserve h.volume g, op := .read (x.base + 8 * g) 8 } })
  ∧ (∀ (s : State) (p : PortId) (h : Header) (payload : List Byte) (x : Volume),
    s.dev.resetLow = false → (s.dev.port p).link = .up → h.badWrite payload = false → s.dev.txn? p h.tag = none →
    (s.dev.port p).fence = none → s.dev.pool.link = .up → s.dev.volume? h.volume = some x → x.state = .ready →
    h.first + h.blocks ≤ 8 * x.capacity → x.cut = none → h.declared = 0 → h.first % 8 + h.blocks ≤ 8 →
    let g := h.first / 8
    x.needs g = true → s.dev.entry? h.volume g = none → s.dev.pres.table.length < 256 →
    s.dev.pres.free = [] ∨ x.reserve ≤ x.slotsHeld →
    let waiting (z : Volume) : Device := { s.dev with
      volumes := s.dev.volumes.insert h.volume { z with inFlight := x.inFlight + 1, slotWait := x.slotWait ++ [g] }
      pres.table := s.dev.pres.table.insert (pendKey h.volume g)
        { volume := h.volume, grain := g, phase := .slotWait (x.w g) x.epoch, readers := 0
          waiters := [.server p h.tag] }
      txns := s.dev.txns.insert (txnKey p h.tag)
        { kind := .write, owed := true, command := none
          job := { h.job payload .admitting with charge := some 0, epoch := some x.epoch, waits := [g] } } }
    ((∃ a ∈ x.snapshots, a.state = .retiring) →
      exec (.write p h payload) s = .next { s with dev := waiting x })
    ∧ (∀ before a after, (∀ b ∈ x.snapshots, b.state = .active) → x.snapshots = before ++ a :: after →
      (∀ b ∈ before, b.pins ≠ 0) → a.pins = 0 → (∀ b ∈ before ++ after, b.number ≠ a.number) → x.sweeps = [] →
      exec (.write p h payload) s = .next { s with dev := waiting { x with
        snapshots := before ++ { a with state := .retiring, answers := none } :: after
        sweeps := [a.number], sweepAt := none, sweepFreed := 0 } })
    ∧ ((∀ b ∈ x.snapshots, b.state = .active ∧ b.pins ≠ 0) → x.slotWait = [] → s.dev.pres.readerWait = [] →
      exec (.write p h payload) s = .next { s with dev := { s.dev with
        volumes := s.dev.volumes.insert h.volume x
        out := s.dev.out ++ [.completion p { kind := 2, tag := h.tag, status := .reserveFull, count := 0, data := [] }] } }))
  ∧ ∀ (s : State) (k : PoolTagId) (v g m : Nat) (e : Pending) (x : Volume) (a : Area),
    s.dev.resetLow = false → s.dev.pool.tags[k] = .busy (.preserve v g) m → s.dev.entry? v g = some e →
    s.dev.volume? v = some x → s.dev.area = some a → s.dev.pool.link = .up →
    s.dev.pool.preserveQ = [] → s.dev.pool.pathQ = [] → s.dev.pool.copyQ = [] →
    x.cut = none → x.state ≠ .removing →
    let freed : Device := { s.dev with pool.tags := s.dev.pool.tags.set k.val .free k.isLt }
    (∀ base p slot data, e.phase = .preserving base p slot → exec (.poolDone k .ok data) s = .next { s with
      dev := Device.joinPool { freed with
          pres.table := s.dev.pres.table.insert (pendKey v g) { e with phase := .storing base p slot data } }
        { requester := .preserve v g, op := .write (a.base + 8 * slot) 8 data } })
    ∧ (∀ base p slot buffer data, e.phase = .storing base p slot buffer → e.readers = 0 → x.w g < p →
        let Ends (map : List PreserveEntry) (frees : List Nat) (y : Volume) : Prop :=
          let kept (z : Volume) : Device := { freed with
            pres.table := s.dev.pres.table.erase (pendKey v g)
            pres.map := map
            pres.free := frees
            volumes := s.dev.volumes.insert v z }
          (e.waiters = [] → s.dev.pres.readerWait = [] → exec (.poolDone k .ok data) s = .next { s with dev := kept y })
          ∧ (∀ (port : PortId) (tag : Nat) (t : Txn), e.waiters = [.server port tag] → s.dev.pres.readerWait = [] →
            s.dev.txn? port tag = some t → t.kind = .write → t.job.volume = v → t.job.charge ≠ none →
            t.job.stage = .admitting → t.job.waits = [g] → y.needs g = false →
            let gone : Device := { kept { y with grains := Table.put x.fill y.grains g x.epoch } with
              txns := s.dev.txns.insert (txnKey port tag)
                { t with job := { t.job with stage := .queued, waits := [] } } }
            exec (.poolDone k .ok data) s = .next { s with
              dev := gone.joinPool
                { requester := .server port tag, op := .write (x.base + t.job.first) t.job.blocks t.job.payload } })
          ∧ ∀ (j : SlotId) (z : CopySlot) (u : Volume), e.waiters = [] → s.dev.pres.readerWait = [j] →
            s.dev.slot? j = some z → z.volume ≠ v → s.dev.volume? z.volume = some u → 0 < u.w z.grain →
            u.w z.grain ≤ z.snapshot → s.dev.entry? z.volume z.grain = none → s.dev.pres.table.length ≤ 256 →
            let read : Device := { kept y with
              pres.table := (s.dev.pres.table.erase (pendKey v g)).insert (pendKey z.volume z.grain)
                { volume := z.volume, grain := z.grain, phase := .reading, readers := 1, waiters := [] }
              pres.readerWait := []
              copy.slots := s.dev.copy.slots.set j.val (some { z with image := .live (u.w z.grain) }) j.isLt }
            exec (.poolDone k .ok data) s = .next { s with
              dev := read.joinPool { requester := .slot j, op := .read (u.base + 8 * z.grain) 8 } }
        (∀ before after, (∃ n ∈ x.snapshots, n.state = .active ∧ base ≤ n.number ∧ n.number ≤ p - 1) →
          s.dev.pres.map = before ++ after →
          (∀ f ∈ before, f.volume < v ∨ f.volume = v ∧ (f.grain < g ∨ f.grain = g ∧ f.first ≤ base)) →
          (∀ f ∈ after, v < f.volume ∨ f.volume = v ∧ (g < f.grain ∨ f.grain = g ∧ base < f.first)) →
          Ends (before ++ { volume := v, grain := g, first := base, last := p - 1, slot := slot } :: after)
            s.dev.pres.free { x with grains := Table.put x.fill x.grains g p })
        ∧ ((∀ n ∈ x.snapshots, ¬ (n.state = .active ∧ base ≤ n.number ∧ n.number ≤ p - 1)) →
          let y : Volume := { x with
            grains := Table.put x.fill x.grains g p
            slotsHeld := x.slotsHeld - 1
            reserveArmed := x.reserveArmed || decide (x.slotsHeld - 1 ≤ x.reserve - x.reserve / 4) }
          (x.slotWait = [] → Ends s.dev.pres.map (s.dev.pres.free ++ [slot]) y)
          ∧ ∀ g' waits b q n frees f, x.slotWait = g' :: waits → g' ∉ waits → g' ≠ g →
            s.dev.entry? v g' = some f → f.phase = .slotWait b q → s.dev.pres.free ++ [slot] = n :: frees →
            x.slotsHeld - 1 < x.reserve → x.reserve = x.slotsHeld - 1 + 1 ∨ waits = [] ∨ frees = [] →
            e.waiters = [] → s.dev.pres.readerWait = [] →
            let served : Device := Device.slotServed { freed with
              pres.free := s.dev.pres.free ++ [slot], volumes := s.dev.volumes.insert v y } v g' y f b q n waits frees
            exec (.poolDone k .ok data) s = .next { s with
              dev := { served with pres.table := served.pres.table.erase (pendKey v g) } }))
    ∧ (∀ slot st data, ((∃ base p, e.phase = .preserving base p slot) ∨ ∃ base p b, e.phase = .storing base p slot b) →
        st ≠ .ok → e.readers = 0 → e.waiters = [] → x.slotWait = [] → s.dev.pres.readerWait = [] →
        exec (.poolDone k st data) s = .next { s with dev := { freed with
          pres.table := s.dev.pres.table.erase (pendKey v g)
          pres.free := s.dev.pres.free ++ [slot]
          volumes := s.dev.volumes.insert v { x with
            slotsHeld := x.slotsHeld - 1
            reserveArmed := x.reserveArmed || decide (x.slotsHeld - 1 ≤ x.reserve - x.reserve / 4) } } })

/-- R94, R119, R123, R124, R125, R127, R101, R128, R129, R117, R153: the end of a copy read. A pass read that ends OK
leaves its data in the slot for placing, and one that fails ends the pass FAILED with READ, here with nothing else
waiting on that end; with its place discarded by a go-back it frees the slot and no more; a read of an ended pass
frees its slot; a restore read that ends OK becomes a write to the destination, here held by a cut; one that fails
frees its slot and gives the restore's current extent the outcome FAILED, here with other copies of the restore in
flight. A registered read leaves its grain's entry, here with other readers. The end of a restore write (R127): its
charge is settled, its slot FREE, the copy counted or the extent FAILED; with it the extent ends when nothing of it is
left, with its notice, and the next extent's first grain is given the slot, here one that lies in a preserve slot, or
the restore ends, its pin dropped. No request waits for a tag; no other restore runs or waits to; where a grant could
follow, no other stream is eligible. -/
def Obligations.CopyReadsEnd : Prop :=
  (∀ (s : State) (k : PoolTagId) (j : SlotId) (m : Nat) (z : CopySlot), s.dev.resetLow = false →
    s.dev.pool.tags[k] = .busy (.slot j) m → s.dev.slot? j = some z → z.phase = .reading →
    s.dev.pool.preserveQ = [] → s.dev.pool.pathQ = [] → s.dev.pool.copyQ = [] →
    let freed : Device := { s.dev with pool.tags := s.dev.pool.tags.set k.val .free k.isLt }
    let withSlot (d : Device) (o : Option CopySlot) : Device :=
      { d with copy.slots := d.copy.slots.set j.val o j.isLt }
    ∀ d : Device,
      ((∃ n v, z.image = .slot n v) ∧ d = freed)
        ∨ (∃ v e, z.image = .live v ∧ s.dev.entry? z.volume z.grain = some e ∧ e.readers ≥ 2 ∧ d = { freed with
            pres.table := s.dev.pres.table.insert (pendKey z.volume z.grain) { e with readers := e.readers - 1 } }) →
      (∀ pl ∈ s.dev.dup.staging, z.stream = .pass → pl.phase = .reading j →
        (∀ data, exec (.poolDone k .ok data) s = .next { s with
          dev := withSlot d (some { z with phase := .staging data }) })
        ∧ ∀ q x st data, s.dev.dup.pass = some q → s.dev.volume? q.volume = some x → st ≠ .ok →
          (withSlot d none).PassAlone →
          exec (.poolDone k st data) s = .next { s with
            dev := ((withSlot d none).passClosed q x .failed (some .read)).noted .passFailed (.volume q.volume)
              (.name .read) })
      ∧ (z.stream = .pass → (∀ pl ∈ s.dev.dup.staging, pl.phase ≠ .reading j ∧ pl.phase ≠ .ready) →
          (∀ r ∈ s.dev.copy.restores, r.state ≠ .running) →
          ∀ st data, exec (.poolDone k st data) s = .next { s with dev := withSlot d none })
      ∧ (z.stream = .dropped → (∀ r ∈ s.dev.copy.restores, r.state ≠ .running) → s.dev.dup.pass = none →
          ∀ st data, exec (.poolDone k st data) s = .next { s with dev := withSlot d none })
      ∧ ∀ id before r after, z.stream = .restore id → s.dev.copy.restores = before ++ r :: after → r.id = id →
          (∀ q ∈ before, q.id ≠ id) → (∀ q ∈ after, q.id ≠ id) →
          let job (data : List Byte) : Job :=
            { volume := z.destVolume, account := r.account, first := 8 * z.destGrain, blocks := 8, declared := z.declared
              payload := data, stage := .held, charge := none, epoch := none, waits := [] }
          let failed (i : Nat) : Restore :=
            { r with inFlight := r.inFlight - 1, outcomes := r.outcomes.set i (.failed .mediaError) }
          (∀ x data, s.dev.volume? z.destVolume = some x → x.cut ≠ none → s.dev.cutHold.length < 256 →
            exec (.poolDone k .ok data) s = .next { s with
              dev := { withSlot d (some { z with phase := .writing (job data) none }) with
                cutHold := s.dev.cutHold ++ [.slot j] } })
          ∧ (∀ st data i, st ≠ .ok → r.state = .running → r.cancel = false → r.current = some i →
              r.outcomes[i]? = some .running → r.inFlight ≥ 2 → s.dev.dup.pass = none →
              (∀ q ∈ before ++ after, q.state ≠ .running) →
              exec (.poolDone k st data) s = .next { s with
                dev := { withSlot d none with
                  copy.restores := before ++ failed i :: after } }))
  ∧ (∀ (s : State) (k : PoolTagId) (j : SlotId) (m c i id : Nat) (z : CopySlot) (b : Job) (w : Volume) (r : Restore)
      (before after : List Restore) (e : Extent) (st : PoolStatus) (data : List Byte),
      s.dev.resetLow = false → s.dev.pool.tags[k] = .busy (.slot j) m → s.dev.slot? j = some z →
      z.stream = .restore id → z.phase = .writing b none → b.charge = some c → b.waits = [] →
      s.dev.volume? b.volume = some w → w.cut = none → w.state ≠ .removing → s.dev.pool.preserveQ = [] →
      s.dev.pool.pathQ = [] → s.dev.pool.copyQ = [] → s.dev.copy.restores = before ++ r :: after → r.id = id →
      (∀ q ∈ before ++ after, q.id ≠ id ∧ q.state = .ended) → r.state = .running → r.cancel = false →
      r.current = some i → r.extents[i]? = some e → r.outcomes[i]? = some .running → s.dev.dup.pass = none →
      (st = .ok → ∀ g, r.cursor = some g → e.source + e.count ≤ g) →
      let a := s.dev.account b.account
      let u := if st = .ok then min (a.usage + c) 4294967295 else a.usage
      let freed : Device := { s.dev with
        pool.tags := s.dev.pool.tags.set k.val .free k.isLt
        volumes := s.dev.volumes.insert b.volume { w with inFlight := w.inFlight - 1 }
        copy.slots := s.dev.copy.slots.set j.val none j.isLt }
      let o : ExtentOutcome := if st = .ok then .done else .failed .mediaError
      let copied := r.copied + if st = .ok then 1 else 0
      ∃ d : Device, d = { freed with accounts := d.accounts, groups := d.groups, clock := d.clock }
        ∧ (c = 0 → d = freed) ∧ (0 < c → s.dev.Settled d b.account c u)
        ∧ (r.inFlight ≥ 2 → exec (.poolDone k st data) s = .next { s with
            dev := { d with copy.restores := before ++
              { r with
                inFlight := r.inFlight - 1, copied := copied
                outcomes := if st = .ok then r.outcomes else r.outcomes.set i o } :: after } })
        ∧ (r.inFlight = 1 →
            let told : Device := if e.notify then d.noted .restoreExtent (.restore id) (.extent o.name (i + 1)) else d
            (∀ x, r.extents.length = i + 1 → freed.volume? r.source = some x →
              let os := r.outcomes.set i o
              let out : RestoreOutcome := if os.all fun q => q = .done then .done else .doneWithErrors
              exec (.poolDone k st data) s = .next { s with
                dev := { told.noted .restoreEnd (.restore id) (.restoreEnd out.name none) with
                  copy.restores := before ++
                    { r with
                      state := .ended, current := none, cursor := none, inFlight := 0, copied := copied, outcomes := os
                      outcome := some out, reason := none } :: after
                  copy.endedOrder := s.dev.copy.endedOrder ++ [id]
                  volumes := freed.volumes.insert r.source { x with
                    snapshots := x.snapshots.map fun n =>
                      if n.number = r.snapshot then { n with pins := n.pins - 1 } else n } } })
            ∧ (∀ f ar n v, r.extents[i + 1]? = some f → 0 < f.count → r.outcomes.length = r.extents.length →
                s.dev.area = some ar →
                freed.resolve r.source r.snapshot f.source = .slot n v → (∀ l, l ≠ j → s.dev.slot? l ≠ none) →
                s.dev.pool.link = .up →
                exec (.poolDone k st data) s = .next { s with
                  dev := Device.joinPool { told with
                      copy.restores := before ++
                        { r with
                          current := some (i + 1), cursor := some (f.source + 1), inFlight := 1, copied := copied
                          outcomes := (r.outcomes.set i o).set (i + 1) .running } :: after
                      copy.slots := s.dev.copy.slots.set j.val (some {
                        stream := .restore id, volume := r.source, grain := f.source, snapshot := r.snapshot
                        image := .slot n v, destVolume := f.destVolume, destGrain := f.dest
                        declared := if f.fresh then 1 else 0, phase := .reading }) j.isLt
                      copy.lastServed := some .restore, copy.cursor := id }
                    { requester := .slot j, op := .read (ar.base + 8 * n) 8 } })))
end

