-- ==== Sys2Proof/Laws/Table.lean ====
section
/-! SUPPORT. What the operations on tables do: reads after writes, and the canonical form they keep. -/

namespace Sys2Proof

variable {α : Type}

@[simp] theorem Table.find_nil (k : Nat) : Table.find ([] : Table α) k = none := rfl

@[simp] theorem Table.find_insert_same (t : Table α) (k : Nat) (v : α) : (t.insert k v).find k = some v := by
  induction t with
  | nil => simp [Table.insert, Table.find]
  | cons e t ih =>
    obtain ⟨k', v'⟩ := e
    simp only [Table.insert]
    split
    · simp [Table.find]
    · split
      · simp [Table.find]
      · rename_i h
        simp [Table.find, h, ih]

theorem Table.find_insert_other (t : Table α) {k k' : Nat} (v : α) (h : k' ≠ k) :
    (t.insert k v).find k' = t.find k' := by
  induction t with
  | nil => simp [Table.insert, Table.find, h.symm]
  | cons e t ih =>
    obtain ⟨a, b⟩ := e
    simp only [Table.insert]
    split
    · simp [Table.find, h.symm]
    · split
      · rename_i h2
        subst h2
        simp [Table.find, h.symm]
      · simp only [Table.find]
        split
        · rfl
        · exact ih

theorem Table.find_insert (t : Table α) (k k' : Nat) (v : α) :
    (t.insert k v).find k' = if k' = k then some v else t.find k' := by
  split
  · rename_i h
    subst h
    simp
  · rename_i h
    exact t.find_insert_other v h

theorem Table.find_erase (t : Table α) (k k' : Nat) :
    (t.erase k).find k' = if k' = k then none else t.find k' := by
  induction t with
  | nil => simp [Table.erase, Table.find]
  | cons e t ih =>
    obtain ⟨a, b⟩ := e
    by_cases ha : a = k
    · have : Table.erase ((a, b) :: t) k = Table.erase t k := by simp [Table.erase, ha]
      rw [this, ih]
      by_cases hk : k' = k
      · simp [hk]
      · have : a ≠ k' := fun h => hk (h ▸ ha)
        simp [hk, Table.find, this]
    · have : Table.erase ((a, b) :: t) k = (a, b) :: Table.erase t k := by simp [Table.erase, ha]
      rw [this]
      simp only [Table.find, ih]
      by_cases hk : a = k'
      · subst hk
        simp [ha]
      · simp [hk]

@[simp] theorem Table.find_erase_same (t : Table α) (k : Nat) : (t.erase k).find k = none := by
  simp [Table.find_erase]

/-- A key set and then erased is erased. -/
@[simp] theorem Table.erase_insert (t : Table α) (k : Nat) (v : α) : (t.insert k v).erase k = t.erase k := by
  induction t with
  | nil => simp [Table.insert, Table.erase]
  | cons e t ih =>
    obtain ⟨a, b⟩ := e
    simp only [Table.insert]
    split
    · simp [Table.erase]
    · split
      · rename_i h
        simp [Table.erase, h]
      · rename_i h
        have hc (u : Table α) : Table.erase ((a, b) :: u) k = (a, b) :: Table.erase u k := by
          simp [Table.erase, h]
        rw [hc, hc, ih]

/-- A key set twice keeps the second record. -/
@[simp] theorem Table.insert_insert (t : Table α) (k : Nat) (v w : α) :
    (t.insert k v).insert k w = t.insert k w := by
  induction t with
  | nil => simp [Table.insert]
  | cons e t ih =>
    obtain ⟨a, b⟩ := e
    simp only [Table.insert]
    split
    · simp [Table.insert]
    · split
      · simp [Table.insert]
      · rename_i h1 h2
        simp [Table.insert, h1, h2, ih]

theorem Table.erase_of_find_none (t : Table α) (k : Nat) (h : t.find k = none) : t.erase k = t := by
  induction t with
  | nil => rfl
  | cons e t ih =>
    obtain ⟨a, b⟩ := e
    simp only [Table.find] at h
    split at h
    · cases h
    · rename_i ha
      have hc : Table.erase ((a, b) :: t) k = (a, b) :: Table.erase t k := by simp [Table.erase, ha]
      rw [hc, ih h]

theorem Table.mem_of_find (t : Table α) {k : Nat} {v : α} (h : t.find k = some v) : (k, v) ∈ t := by
  induction t with
  | nil => cases h
  | cons e t ih =>
    obtain ⟨a, b⟩ := e
    simp only [Table.find] at h
    split at h
    · rename_i ha
      cases h
      simp [ha]
    · simp [ih h]

theorem Table.mem_insert (t : Table α) {k : Nat} {v : α} {e : Nat × α} (h : e ∈ t.insert k v) :
    e = (k, v) ∨ e ∈ t := by
  induction t with
  | nil => simpa [Table.insert] using h
  | cons a t ih =>
    obtain ⟨a, b⟩ := a
    simp only [Table.insert] at h
    split at h
    · simpa using h
    · split at h
      · rcases List.mem_cons.1 h with h | h
        · exact .inl h
        · exact .inr (List.mem_cons_of_mem _ h)
      · rcases List.mem_cons.1 h with h | h
        · exact .inr (h ▸ List.mem_cons_self)
        · exact (ih h).imp id (List.mem_cons_of_mem _)

/-! ### The canonical form is kept -/

theorem Table.Sorted.insert {t : Table α} (h : t.Sorted) (k : Nat) (v : α) : (t.insert k v).Sorted := by
  induction t with
  | nil => simp [Table.insert]
  | cons e t ih =>
    obtain ⟨a, b⟩ := e
    have ht := List.pairwise_cons.1 h
    simp only [Table.insert]
    split
    · rename_i hk
      refine List.pairwise_cons.2 ⟨?_, h⟩
      intro x hx
      rcases List.mem_cons.1 hx with rfl | hx
      · exact hk
      · exact lt_trans hk (ht.1 x hx)
    · split
      · rename_i hk
        subst hk
        exact List.pairwise_cons.2 ⟨ht.1, ht.2⟩
      · rename_i h1 h2
        refine List.pairwise_cons.2 ⟨?_, ih ht.2⟩
        intro x hx
        rcases Table.mem_insert t hx with rfl | hx
        · simp only; omega
        · exact ht.1 x hx

theorem Table.Sorted.erase {t : Table α} (h : t.Sorted) (k : Nat) : (t.erase k).Sorted :=
  List.Pairwise.filter _ h

theorem Table.Wf.put [DecidableEq α] {d : α} {t : Table α} (h : Table.Wf d t) (k : Nat) (v : α) :
    Table.Wf d (Table.put d t k v) := by
  unfold Table.put
  split
  · exact ⟨h.1.erase k, fun e he => h.2 e (List.mem_of_mem_filter he)⟩
  · rename_i hv
    refine ⟨h.1.insert k v, fun e he => ?_⟩
    rcases Table.mem_insert t he with rfl | he
    · exact hv
    · exact h.2 e he

theorem Table.Wf.nil (d : α) : Table.Wf d ([] : Table α) := ⟨List.Pairwise.nil, fun _ h => by cases h⟩

/-! ### Reads of a table with a default -/

@[simp] theorem Table.get_put_same [DecidableEq α] (d : α) (t : Table α) (k : Nat) (v : α) :
    Table.get d (Table.put d t k v) k = v := by
  unfold Table.get Table.put
  split
  · rename_i h
    simp [h]
  · simp

theorem Table.get_put_other [DecidableEq α] (d : α) (t : Table α) {k k' : Nat} (v : α) (h : k' ≠ k) :
    Table.get d (Table.put d t k v) k' = Table.get d t k' := by
  unfold Table.get Table.put
  split
  · simp [Table.find_erase, h]
  · simp [Table.find_insert_other _ _ h]

theorem Table.get_put [DecidableEq α] (d : α) (t : Table α) (k k' : Nat) (v : α) :
    Table.get d (Table.put d t k v) k' = if k' = k then v else Table.get d t k' := by
  split
  · rename_i h
    simp [h]
  · rename_i h
    exact Table.get_put_other d t v h

/-! ### Sums over a table -/

variable (f : α → Nat)

theorem Table.sum_insert (t : Table α) (h : t.Sorted) (k : Nat) (v : α) :
    ((t.insert k v).map fun e => f e.2).sum + ((t.find k).elim 0 f) = (t.map fun e => f e.2).sum + f v := by
  induction t with
  | nil => simp [Table.insert]
  | cons e t ih =>
    obtain ⟨a, b⟩ := e
    have ht := List.pairwise_cons.1 h
    simp only [Table.insert, Table.find]
    split
    · rename_i hk
      have : ¬ a = k := by omega
      have hn : Table.find t k = none := by
        cases hf : Table.find t k with
        | none => rfl
        | some w => have := ht.1 _ (Table.mem_of_find t hf); simp at this; omega
      simp [this, hn]; omega
    · split
      · simp; omega
      · have := ih ht.2
        simp; omega

theorem Table.sum_erase (t : Table α) (h : t.Sorted) (k : Nat) :
    ((t.erase k).map fun e => f e.2).sum + ((t.find k).elim 0 f) = (t.map fun e => f e.2).sum := by
  induction t with
  | nil => simp [Table.erase]
  | cons e t ih =>
    obtain ⟨a, b⟩ := e
    have ht := List.pairwise_cons.1 h
    by_cases ha : a = k
    · have hn : Table.find t k = none := by
        cases hf : Table.find t k with
        | none => rfl
        | some w => have := ht.1 _ (Table.mem_of_find t hf); simp at this; omega
      have h1 : Table.erase ((a, b) :: t) k = t := by
        have : Table.erase ((a, b) :: t) k = Table.erase t k := by simp [Table.erase, ha]
        rw [this, Table.erase_of_find_none _ _ hn]
      rw [h1]; simp [Table.find, ha]; omega
    · have hc : Table.erase ((a, b) :: t) k = (a, b) :: Table.erase t k := by simp [Table.erase, ha]
      have := ih ht.2
      rw [hc]; simp [Table.find, ha]; omega

/-- The sum of a measure over a table after a write that keeps the canonical form; the default measures 0. -/

theorem Table.sum_put [DecidableEq α] {d : α} (t : Table α) (h : t.Sorted) (hd : f d = 0) (k : Nat) (v : α) :
    ((t.put d k v).map fun e => f e.2).sum + f (t.get d k) = (t.map fun e => f e.2).sum + f v := by
  unfold Table.put Table.get
  split
  · rename_i hv; subst hv
    have := Table.sum_erase f t h k
    cases hf : Table.find t k <;> simp_all
  · have := Table.sum_insert f t h k v
    cases hf : Table.find t k <;> simp_all

end Sys2Proof
end

