-- ==== Sys2Proof/Laws/Change.lean ====
section
/-! SUPPORT. What any consequence of an event can do to the state that the invariants speak of, said once: Prim lists
the single changes, Change closes them, and every operation and every consequence is shown to be a Change. An
invariant then needs one case for each Prim. -/

namespace Sys2Proof.Machine

/-- The part of the state that the invariants speak of. -/
structure Core where
  resetLow : Bool
  ports : Vector Port 4
  pool : Pool
  accounts : Table Account
  groups : Table Group
  time : CalTime
  valid : Bool
  area : Option Area
  volumes : Table Volume
  notices : List Notice
  overflow : Bool
  attnLow : Bool

def Device.core (d : Device) : Core :=
  { resetLow := d.resetLow, ports := d.ports, pool := d.pool, accounts := d.accounts, groups := d.groups
    time := d.clock.time, valid := d.clock.valid, area := d.area, volumes := d.volumes
    notices := d.mgmt.notices, overflow := d.mgmt.overflow, attnLow := d.mgmt.attnLow }

def Core.account (c : Core) (a : Nat) : Account := c.accounts.get Account.initial a

def Core.group (c : Core) (g : Nat) : Group := c.groups.get Group.initial g

/-- A change of one account's record that leaves what only ACCOUNT LOAD, RELEASE and a write's end set. -/
structure AccountStep (x y : Account) : Prop where
  soft : y.soft = x.soft
  hard : y.hard = x.hard
  grace : y.grace = x.grace
  group : y.group = x.group
  usage : y.usage = x.usage
  deadline : (x.deadline.isSome → x.state = .soft) → y.deadline.isSome → y.state = .soft

/-- A change of one group's record that leaves its limit and usage. -/
structure GroupStep (x y : Group) : Prop where
  limit : y.limit = x.limit
  usage : y.usage = x.usage

/-- A change of one volume's record. -/
structure VolumeStep (x y : Volume) : Prop where
  base : y.base = x.base
  capacity : y.capacity = x.capacity
  fill : y.fill = x.fill
  grains : y.grains = x.grains ∨ ∃ g e, y.grains = x.grains.put x.fill g e
  epoch : (y.epoch = x.epoch ∧ (y.snapshots.map Snapshot.number).Sublist (x.snapshots.map Snapshot.number))
    ∨ (y.epoch = x.epoch + 1 ∧ y.snapshots.map Snapshot.number = x.snapshots.map Snapshot.number ++ [x.epoch]
        ∧ y.cut = none ∧ ∃ c, x.cut = some c ∧ c.room = .have)
  cut : ∀ c, y.cut = some c →
    (x.cut.isSome ∨ x.epoch ≠ Config.lastEpoch) ∧ y.epoch = x.epoch
      ∧ (c.room = .have → (∃ c', x.cut = some c' ∧ c'.room = .have) ∨ y.snapshots.length < Config.snapshotRecords)

/-- A grant of tag t (R12): one waiting request leaves its queue, and only a PRESERVE request may take a reserved tag. -/
structure Grant (p p' : Pool) (t : PoolTagId) (r : PoolRequest) (now : Nat) : Prop where
  tags : p'.tags = p.tags.set t.val (.busy r.requester now) t.isLt
  link : p'.link = p.link
  free : p.tags[t] = .free
  waits : r ∈ p.preserveQ ∨ ((r ∈ p.pathQ ∨ r ∈ p.copyQ) ∧ t.val ≤ 59)
  preserveQ : List.Sublist p'.preserveQ p.preserveQ
  pathQ : List.Sublist p'.pathQ p.pathQ
  copyQ : List.Sublist p'.copyQ p.copyQ
  streak : p.streak ≤ 3 → p'.streak ≤ 3

/-- A change of the waiting requests: each comes from the queue as it was or, with the link UP, is of its class. -/
structure Requests (p p' : Pool) : Prop where
  tags : p'.tags = p.tags
  link : p'.link = p.link
  streak : p'.streak = p.streak ∨ p'.streak = 0
  preserveQ : ∀ r ∈ p'.preserveQ, r ∈ p.preserveQ ∨ (p.link = .up ∧ ∃ v g, r.requester = .preserve v g)
  pathQ : ∀ r ∈ p'.pathQ, r ∈ p.pathQ ∨ (p.link = .up ∧ ∃ q tag, r.requester = .server q tag)
  copyQ : ∀ r ∈ p'.copyQ, r ∈ p.copyQ ∨ (p.link = .up ∧ ∃ k, r.requester = .slot k)

/-- One single change. -/
inductive Prim : Core → Core → Prop where
  | notice (c : Core) (n : Notice) : c.notices.length < Config.noticePlaces →
      Prim c { c with notices := c.notices ++ [n], attnLow := true }
  | overflow (c : Core) : Prim c { c with overflow := true }
  | account (c : Core) (a : Nat) (x : Account) : AccountStep (c.account a) x →
      Prim c { c with accounts := c.accounts.put Account.initial a x }
  | group (c : Core) (g : Nat) (x : Group) : GroupStep (c.group g) x →
      Prim c { c with groups := c.groups.put Group.initial g x }
  | usage (c : Core) (a n : Nat) (x : Account) (y : Group) :
      x = { c.account a with held := x.held, usage := min ((c.account a).usage + n) Config.accountMax } →
      y = { c.group (c.account a).group with
              held := y.held, usage := (c.group (c.account a).group).usage + (x.usage - (c.account a).usage) } →
      Prim c { c with
        accounts := c.accounts.put Account.initial a x, groups := c.groups.put Group.initial (c.account a).group y }
  | port (c : Core) (p : PortId) (x : Port) : x.role = c.ports[p].role → x.reload = c.ports[p].reload →
      x.link = c.ports[p].link → Prim c { c with ports := c.ports.set p.val x p.isLt }
  | volume (c : Core) (v : Nat) (x y : Volume) : c.volumes.find v = some x → VolumeStep x y →
      Prim c { c with volumes := c.volumes.insert v y }
  | remove (c : Core) (v : Nat) : Prim c { c with volumes := c.volumes.erase v }
  | volumes (c : Core) (f : Volume → Volume) : (∀ x, VolumeStep x (f x)) →
      Prim c { c with volumes := c.volumes.map fun e => (e.1, f e.2) }
  | grant (c : Core) (t : PoolTagId) (r : PoolRequest) (now : Nat) (p : Pool) : Grant c.pool p t r now →
      Prim c { c with pool := p }
  | requests (c : Core) (p : Pool) : Requests c.pool p → Prim c { c with pool := p }
  | tag (c : Core) (t : PoolTagId) (x : PoolTag) : (∀ r m, x ≠ .busy r m) →
      Prim c { c with pool := { c.pool with tags := c.pool.tags.set t.val x t.isLt } }
  | quarantine (c : Core) (f : PoolTag → PoolTag) : (∀ x r m, f x ≠ .busy r m) →
      Prim c { c with pool := { c.pool with tags := c.pool.tags.map f } }

/-- What a part can become by single changes. -/
abbrev Change (d d' : Device) : Prop := Relation.ReflTransGen Prim d.core d'.core

theorem Change.refl (d : Device) : Change d d := Relation.ReflTransGen.refl

theorem Change.trans {a b c : Device} (h : Change a b) (h' : Change b c) : Change a c := Relation.ReflTransGen.trans h h'

/-- The change of the last part of a chain, then that of the first. -/
theorem Change.after {a b c : Device} (h' : Change b c) (h : Change a b) : Change a c := h.trans h'

theorem Change.one {a b : Device} (h : Prim a.core b.core) : Change a b := Relation.ReflTransGen.single h

theorem Change.same {a b : Device} (h : b.core = a.core) : Change a b := by
  unfold Change
  rw [h]

theorem Change.of_core {a b a' b' : Device} (h : Change a b) (ha : a'.core = a.core) (hb : b'.core = b.core) :
    Change a' b' := by
  unfold Change at *
  rw [ha, hb]
  exact h

/-- A fold of changes is a change. -/
theorem Change.foldl {α : Type} (f : Device → α → Device) (l : List α) (h : ∀ d x, Change d (f d x)) (d : Device) :
    Change d (l.foldl f d) := by
  induction l generalizing d with
  | nil => exact .refl d
  | cons x l ih => exact (h d x).trans (ih _)

end Sys2Proof.Machine
end

