-- ==== Sys2Proof/Laws/CoreFrame.lean ====
section
/-! SUPPORT. The operations that leave the core of the state as it stands: the frames of everything that keeps
transactions, pending entries, the preserve map, copy slots, restores, the pass, staging, batches and sent frames. -/

namespace Sys2Proof.Machine

variable (d : Device)

/-! ### Records outside the core -/

@[simp] theorem core_setTxn (p : PortId) (tag : Nat) (t : Txn) : (d.setTxn p tag t).core = d.core := rfl
@[simp] theorem core_freeTag (p : PortId) (tag : Nat) : (d.freeTag p tag).core = d.core := rfl
@[simp] theorem core_onTxn (p : PortId) (tag : Nat) (f : Txn → Txn) : (d.onTxn p tag f).core = d.core := by
  unfold Device.onTxn; split <;> rfl
@[simp] theorem core_setEntry (x : Pending) : (d.setEntry x).core = d.core := rfl
@[simp] theorem core_onEntry (v g : Nat) (f : Pending → Pending) : (d.onEntry v g f).core = d.core := by
  unfold Device.onEntry; split <;> rfl
@[simp] theorem core_removeEntry (v g : Nat) : (d.removeEntry v g).core = d.core := rfl
@[simp] theorem core_setSlot (k : SlotId) (x : Option CopySlot) : (d.setSlot k x).core = d.core := rfl
@[simp] theorem core_onRestore (id : Nat) (f : Restore → Restore) : (d.onRestore id f).core = d.core := rfl
@[simp] theorem core_onPass (f : Pass → Pass) : (d.onPass f).core = d.core := rfl
@[simp] theorem core_reach (m : Nat) : (d.reach m).core = d.core := rfl
@[simp] theorem core_onJob (w : WriteId) (f : Job → Job) : (d.onJob w f).core = d.core := by
  unfold Device.onJob
  split
  · simp
  · split
    · split <;> simp
    · rfl

/-! ### Frames sent -/

@[simp] theorem core_emit (o : Output) : (d.emit o).core = d.core := rfl
@[simp] theorem core_refuse (p : PortId) (k : Byte) (tag : Nat) (st : Status) : (d.refuse p k tag st).core = d.core := rfl
@[simp] theorem core_refuseMgmt (p : PortId) (tag : Nat) (st : MgmtStatus) : (d.refuseMgmt p tag st).core = d.core := rfl
@[simp] theorem core_endTxn (p : PortId) (tag : Nat) (st : Status) (n : Nat) (data : List Byte) :
    (d.endTxn p tag st n data).core = d.core := by
  unfold Device.endTxn; split
  · rfl
  · dsimp only; split <;> simp
@[simp] theorem core_reply (p : PortId) (tag : Nat) (st : MgmtStatus) (r : Option MgmtReason) (items : List Item) :
    (d.reply p tag st r items).core = d.core := by
  unfold Device.reply; split
  · rfl
  · dsimp only; split <;> simp
@[simp] theorem core_answer (r : Option TxnRef) (st : MgmtStatus) (m : Option MgmtReason) (items : List Item) :
    (d.answer r st m items).core = d.core := by
  unfold Device.answer; split <;> simp

/-! ### Clock lists -/

@[simp] theorem core_joinGrace (a : Nat) : (d.joinGrace a).core = d.core := rfl
@[simp] theorem core_joinUndated (a : Nat) : (d.joinUndated a).core = d.core := rfl
@[simp] theorem core_leaveGrace (a : Nat) : (d.leaveGrace a).core = d.core := rfl

/-! ### Write path -/

@[simp] theorem core_leaveWaits (w : WriteId) (j : Job) : (d.leaveWaits w j).core = d.core := by
  unfold Device.leaveWaits
  generalize j.waits = gs
  induction gs generalizing d with
  | nil => rfl
  | cons g gs ih => simp only [List.foldl_cons, ih, core_onEntry]
@[simp] theorem core_joinEntry (w : WriteId) (v g : Nat) : (d.joinEntry w v g).core = d.core := by
  simp [Device.joinEntry]
@[simp] theorem core_createEntry (w : WriteId) (v g : Nat) : (d.createEntry w v g).core = d.core := by
  simp [Device.createEntry]
@[simp] theorem core_retryLater (k : SlotId) : (d.retryLater k).core = d.core := by
  unfold Device.retryLater; repeat' split
  all_goals simp
@[simp] theorem core_finishCopy (k : SlotId) (r : Status) : (d.finishCopy k r).1.core = d.core := by
  unfold Device.finishCopy; repeat' split
  all_goals simp
@[simp] theorem core_reportWrite (w : WriteId) (r : Status) (n : Nat) : (d.reportWrite w r n).1.core = d.core := by
  unfold Device.reportWrite; repeat' split
  all_goals simp
theorem core_joinHold {d d' : Device} {w : WriteId} (h : d.joinHold w = some d') : d'.core = d.core := by
  unfold Device.joinHold at h
  split at h
  · cases h; simp; rfl
  · cases h

/-! ### Preservation and snapshots -/

@[simp] theorem core_addPreserve (e : PreserveEntry) : (d.addPreserve e).core = d.core := rfl
@[simp] theorem core_releaseHeld (v : Nat) : (d.releaseHeld v).core = d.core := rfl

/-! ### Duplication -/

@[simp] theorem core_onBatch (q : Nat) (f : Batch → Batch) : (d.onBatch q f).core = d.core := rfl
@[simp] theorem core_shutBatch (q : Nat) : (d.shutBatch q).core = d.core := rfl
@[simp] theorem core_shutOpen : d.shutOpen.core = d.core := by unfold Device.shutOpen; split <;> rfl
@[simp] theorem core_transmitFrame (f : OffsiteFrame) : (d.transmitFrame f).core = d.core := rfl
@[simp] theorem core_checkLow : d.checkLow.core = d.core := by unfold Device.checkLow; split <;> rfl
@[simp] theorem core_takeGrainFrame (p : Pass) (pl : Place) (data : List Byte) (c : BitVec 32) (b : Batch) :
    (d.takeGrainFrame p pl data c b).core = d.core := by
  unfold Device.takeGrainFrame
  dsimp only
  rw [core_transmitFrame, core_checkLow]
  split <;> split <;> rfl
@[simp] theorem core_takeStaged (p : Pass) : (d.takeStaged p).core = d.core := by
  unfold Device.takeStaged
  repeat' split
  all_goals (try simp)
  rfl
@[simp] theorem core_reservePlace (g v : Nat) (s : PlaceSource) : (d.reservePlace g v s).core = d.core := by
  unfold Device.reservePlace
  dsimp only
  split <;> rfl
@[simp] theorem core_setOffsite (l : OffsiteLink) : (d.setOffsite l).core = d.core := rfl
@[simp] theorem core_queueWindow : d.queueWindow.core = d.core := rfl
@[simp] theorem core_releasePassSlot (k : SlotId) : (d.releasePassSlot k).core = d.core := by
  unfold Device.releasePassSlot
  repeat' split
  all_goals rfl
@[simp] theorem core_withdrawn (p : PortId) (tag : Nat) :
    ({ d with cutHold := d.cutHold.filter fun w => w ≠ WriteId.server p tag }).core = d.core := rfl

end Sys2Proof.Machine
end

