-- ==== Sys2Proof/Laws/OpsChange.lean ====
section
/-! SUPPORT. Every shared operation of the blocks is a Change. -/

namespace Sys2Proof.Machine

variable (d : Device)

/-! ### Open orders -/

/-- An open order holds each item of the list as often as the list does, whatever the free values are. -/
theorem openOrder_perm {α : Type} (n i : Nat) (l : List α) : (openOrder n i l).Perm l := by
  induction n generalizing i l with
  | zero => exact .refl l
  | succ n ih =>
    unfold openOrder
    dsimp only
    split
    · rename_i x hx
      obtain ⟨hk, rfl⟩ := List.getElem?_eq_some_iff.1 hx
      exact ((ih _ _).cons _).trans (List.getElem_cons_eraseIdx_perm hk)
    · exact .refl l

/-! ### Notices -/

theorem queueNotice_change (n : Notice) : Change d (d.queueNotice n) := by
  unfold Device.queueNotice
  split
  · exact .one (.notice d.core n (by assumption))
  · exact .one (.overflow d.core)

theorem notify_change (k : NoticeKind) (x : Subject) (v : NoticeValue) : Change d (d.notify k x v) :=
  queueNotice_change d _

/-! ### Accounts and groups -/

theorem AccountStep.refl (x : Account) : AccountStep x x := ⟨rfl, rfl, rfl, rfl, rfl, id⟩

/-- A change of an account that leaves its deadline and state. -/
theorem AccountStep.mk' {x y : Account} (h1 : y.soft = x.soft) (h2 : y.hard = x.hard)
    (h3 : y.grace = x.grace) (h4 : y.group = x.group) (h5 : y.usage = x.usage) (h6 : y.deadline = x.deadline)
    (h7 : y.state = x.state) : AccountStep x y := ⟨h1, h2, h3, h4, h5, by rw [h6, h7]; exact id⟩

/-- A change of an account that leaves it without a deadline. -/
theorem AccountStep.undated {x y : Account} (h1 : y.soft = x.soft) (h2 : y.hard = x.hard)
    (h3 : y.grace = x.grace) (h4 : y.group = x.group) (h5 : y.usage = x.usage) (h6 : y.deadline = none) :
    AccountStep x y := ⟨h1, h2, h3, h4, h5, by simp [h6]⟩

theorem setAccount_change (a : Nat) (x : Account) (h : AccountStep (d.account a) x) :
    Change d (d.setAccount a x) := .one (.account d.core a x h)

theorem setGroup_change (g : Nat) (x : Group) (h : GroupStep (d.group g) x) : Change d (d.setGroup g x) :=
  .one (.group d.core g x h)

@[simp] theorem account_setAccount (a : Nat) (x : Account) : (d.setAccount a x).account a = x := by
  simp [Device.account, Device.setAccount]

@[simp] theorem account_setGroup (g a : Nat) (x : Group) : (d.setGroup g x).account a = d.account a := rfl

@[simp] theorem group_setAccount (g a : Nat) (x : Account) : (d.setAccount a x).group g = d.group g := rfl

@[simp] theorem group_setGroup (g : Nat) (x : Group) : (d.setGroup g x).group g = x := by
  simp [Device.group, Device.setGroup]

@[simp] theorem account_notify (a : Nat) (k : NoticeKind) (s : Subject) (v : NoticeValue) :
    (d.notify k s v).account a = d.account a := by
  unfold Device.notify Device.queueNotice; split <;> rfl

@[simp] theorem valid_notify (k : NoticeKind) (s : Subject) (v : NoticeValue) :
    (d.notify k s v).clock = d.clock := by
  unfold Device.notify Device.queueNotice; split <;> rfl

theorem rearm_step (x : Account) : AccountStep x x.rearm := by
  unfold Account.rearm; split
  · exact .mk' rfl rfl rfl rfl rfl rfl rfl
  · exact .refl _

theorem rearmAccount_change (a : Nat) : Change d (d.rearmAccount a) := setAccount_change d a _ (rearm_step _)

theorem rearmGroup_change (g : Nat) : Change d (d.rearmGroup g) := by
  refine setGroup_change d g _ ?_
  unfold Group.rearm; split <;> exact ⟨rfl, rfl⟩

theorem enterGrace_change (a : Nat) : Change d (d.enterGrace a) := by
  unfold Device.enterGrace
  dsimp only
  have h1 : Change d ((d.setAccount a { d.account a with state := .soft }).notify .quotaSoft (.account a)
      (.number ((d.account a).usage + (d.account a).held))) :=
    .after (notify_change _ _ _ _) (setAccount_change d a _ ⟨rfl, rfl, rfl, rfl, rfl, fun _ _ => rfl⟩)
  split
  · refine .after (notify_change _ _ _ _) (.after (setAccount_change _ a _ ?_) h1)
    exact .undated (by simp) (by simp) (by simp) (by simp) (by simp) rfl
  · split
    · refine .after (.same rfl) (.after (setAccount_change _ a _ ?_) h1)
      exact ⟨by simp, by simp, by simp, by simp, by simp, fun _ _ => rfl⟩
    · refine .after (.same rfl) (.after (setAccount_change _ a _ ?_) h1)
      exact .undated (by simp) (by simp) (by simp) (by simp) (by simp) rfl

theorem refuseQuota_change (a : Nat) : Change d (d.refuseQuota a) := by
  unfold Device.refuseQuota
  dsimp only
  split
  · exact .after (notify_change _ _ _ _) (setAccount_change d a _ (.mk' rfl rfl rfl rfl rfl rfl rfl))
  · exact .refl d

theorem refuseGroup_change (g : Nat) : Change d (d.refuseGroup g) := by
  unfold Device.refuseGroup
  dsimp only
  split
  · exact .after (notify_change _ _ _ _) (setGroup_change d g _ ⟨rfl, rfl⟩)
  · exact .refl d

theorem charge_change (a c : Nat) : Change d (d.charge a c) := by
  unfold Device.charge
  dsimp only
  have h : Change d ((d.setAccount a { d.account a with held := (d.account a).held + c }).setGroup (d.account a).group
      { d.group (d.account a).group with held := (d.group (d.account a).group).held + c }) :=
    .after (setGroup_change _ _ _ ⟨rfl, rfl⟩) (setAccount_change d a _ (.mk' rfl rfl rfl rfl rfl rfl rfl))
  split
  · exact h.trans (enterGrace_change _ a)
  · exact h

theorem admission_change (a c : Nat) : Change d (d.admission a c).1 := by
  unfold Device.admission
  repeat' split
  · exact .refl d
  · exact refuseQuota_change d a
  · exact refuseGroup_change d _
  · exact charge_change d a c

theorem recheckState_change (a : Nat) : Change d (d.recheckState a) := by
  unfold Device.recheckState
  dsimp only
  split
  · exact .after (.same rfl) (setAccount_change d a _ (.undated rfl rfl rfl rfl rfl rfl))
  · exact .refl d

theorem quotaChecks_change (a : Nat) : Change d (d.quotaChecks a) :=
  ((recheckState_change d a).trans (rearmAccount_change _ a)).trans (rearmGroup_change _ _)

theorem chargeToUsage_change (a c : Nat) : Change d (d.chargeToUsage a c) :=
  .one (.usage d.core a c _ _ rfl rfl)

theorem releaseCharge_change (a c : Nat) : Change d (d.releaseCharge a c) :=
  .after (setGroup_change _ _ _ ⟨rfl, rfl⟩) (setAccount_change d a _ (.mk' rfl rfl rfl rfl rfl rfl rfl))

theorem settleCharge_change (a c : Nat) (ok : Bool) : Change d (d.settleCharge a c ok) := by
  unfold Device.settleCharge
  split
  · exact .refl d
  · split
    · exact (chargeToUsage_change d a c).trans (quotaChecks_change _ a)
    · exact (releaseCharge_change d a c).trans (quotaChecks_change _ a)

theorem expire_change (a : Nat) : Change d (d.expire a) := by
  unfold Device.expire
  dsimp only
  refine Change.trans ?_ (rearmGroup_change _ _)
  refine Change.trans ?_ (rearmAccount_change _ _)
  refine Change.trans ?_ (notify_change _ _ _ _)
  refine Change.trans (.same rfl) (setAccount_change { d with clock.graceList := _ } a _ ?_)
  exact .undated rfl rfl rfl rfl rfl rfl

theorem expiryScan_change (n : Nat) : Change d (expiryScan n d) := by
  induction n generalizing d with
  | zero => exact .refl d
  | succ n ih =>
    unfold expiryScan
    split
    · exact .refl d
    · split
      · split
        · exact (expire_change d _).trans (ih _)
        · exact .refl d
      · exact .refl d

/-! ### Volumes -/

@[simp] theorem volume_setVolume (v : Nat) (x : Volume) : (d.setVolume v x).volume? v = some x := by
  simp [Device.volume?, Device.setVolume]

/-- A change of a volume that leaves the grain map, the epoch, the list's numbers and the cut. -/
theorem VolumeStep.plain {x y : Volume} (h1 : y.base = x.base) (h2 : y.capacity = x.capacity) (h3 : y.fill = x.fill)
    (h4 : y.grains = x.grains) (h5 : y.epoch = x.epoch)
    (h6 : y.snapshots.map Snapshot.number = x.snapshots.map Snapshot.number) (h7 : y.cut = x.cut) :
    VolumeStep x y where
  base := h1
  capacity := h2
  fill := h3
  grains := .inl h4
  epoch := .inl ⟨h5, by rw [h6]⟩
  cut c hc := ⟨.inl (by rw [← h7, hc]; rfl), h5, fun hr => .inl ⟨c, by rw [← h7, hc], hr⟩⟩

theorem VolumeStep.refl (x : Volume) : VolumeStep x x := .plain rfl rfl rfl rfl rfl rfl rfl

theorem setVolume_change {v : Nat} {x : Volume} (y : Volume) (hx : d.volume? v = some x) (h : VolumeStep x y) :
    Change d (d.setVolume v y) := .one (.volume d.core v x y hx h)

theorem onVolume_change (v : Nat) (f : Volume → Volume) (h : ∀ x, VolumeStep x (f x)) :
    Change d (d.onVolume v f) := by
  unfold Device.onVolume
  split
  · rename_i x hx
    exact setVolume_change d _ hx (h x)
  · exact .refl d

theorem reserveLowCheck_change (v : Nat) : Change d (d.reserveLowCheck v) := by
  unfold Device.reserveLowCheck
  split
  · exact .refl d
  · rename_i x hx
    split
    · exact .after (notify_change _ _ _ _) (setVolume_change d _ hx (.plain rfl rfl rfl rfl rfl rfl rfl))
    · exact .refl d

theorem reserveRearm_change (v : Nat) : Change d (d.reserveRearm v) := by
  refine onVolume_change d v _ fun x => ?_
  split
  · exact .plain rfl rfl rfl rfl rfl rfl rfl
  · exact .refl x

theorem lowerInFlight_change (v : Nat) : Change d (d.lowerInFlight v) :=
  onVolume_change d v _ fun _ => .plain rfl rfl rfl rfl rfl rfl rfl

theorem setW_step (x : Volume) (g e : Nat) : VolumeStep x (x.setW g e) where
  base := rfl
  capacity := rfl
  fill := rfl
  grains := .inr ⟨g, e, rfl⟩
  epoch := .inl ⟨rfl, .refl _⟩
  cut c hc := ⟨.inl (Option.isSome_of_eq_some (show x.cut = some c from hc)), rfl, fun hr => .inl ⟨c, hc, hr⟩⟩

theorem setCurrent_change (v g : Nat) : Change d (d.setCurrent v g) :=
  onVolume_change d v _ fun x => setW_step x g x.epoch

theorem stampWrite_change (w : WriteId) (j : Job) (c : Nat) : Change d (d.stampWrite w j c) := by
  unfold Device.stampWrite
  dsimp only
  exact .after (onVolume_change _ _ _ fun _ => .plain rfl rfl rfl rfl rfl rfl rfl) (.same (core_onJob _ _ _))

theorem returnSlot_change (v s : Nat) : Change d (d.returnSlot v s) := by
  unfold Device.returnSlot
  dsimp only
  refine .after (reserveRearm_change _ v) (.after (onVolume_change _ v _ fun _ => ?_) (.same rfl))
  exact .plain rfl rfl rfl rfl rfl rfl rfl

theorem takeSlot_change {v s : Nat} {d' : Device} (h : d.takeSlot v = some (d', s)) : Change d d' := by
  unfold Device.takeSlot at h
  split at h
  · rename_i x s' rest hx hf
    split at h
    · cases h
      refine .after (reserveLowCheck_change _ v)
        (.after (setVolume_change (x := x) { d with pres.free := rest } _ hx ?_) (.same rfl))
      exact .plain rfl rfl rfl rfl rfl rfl rfl
    · cases h
  · cases h

theorem leaveSlotWait_change (v g : Nat) : Change d (d.leaveSlotWait v g) := by
  unfold Device.leaveSlotWait
  dsimp only
  exact .after (.same (core_onEntry _ _ _ _)) (onVolume_change d v _ fun _ => .plain rfl rfl rfl rfl rfl rfl rfl)

theorem map_number_update (l : List Snapshot) (k : Nat) (f : Snapshot → Snapshot) (h : ∀ s, (f s).number = s.number) :
    (l.map fun s => if s.number = k then f s else s).map Snapshot.number = l.map Snapshot.number := by
  rw [List.map_map]
  refine List.map_congr_left fun s _ => ?_
  simp only [Function.comp]
  split
  · exact h s
  · rfl

theorem Volume.startRetirement_step (x : Volume) (k : Nat) (t : Option TxnRef) :
    VolumeStep x (x.startRetirement k t) := by
  unfold Volume.startRetirement
  dsimp only
  split <;> exact .plain rfl rfl rfl rfl rfl (map_number_update _ k _ fun _ => rfl) rfl

theorem startRetirement_change (v k : Nat) (t : Option TxnRef) : Change d (d.startRetirement v k t) :=
  onVolume_change d v _ fun x => x.startRetirement_step k t

theorem pin_change (v k : Nat) : Change d (d.pin v k) :=
  onVolume_change d v _ fun _ => .plain rfl rfl rfl rfl rfl (map_number_update _ k _ fun _ => rfl) rfl

theorem unpin_change (v k : Nat) : Change d (d.unpin v k) :=
  onVolume_change d v _ fun _ => .plain rfl rfl rfl rfl rfl (map_number_update _ k _ fun _ => rfl) rfl

/-! ### Pool -/

theorem Pool.firstFree_spec {p : Pool} {lo hi : Nat} {t : PoolTagId} (h : p.firstFree lo hi = some t) :
    lo ≤ t.val ∧ t.val ≤ hi ∧ p.tags[t] = .free := by
  have := List.find?_some h
  simpa [Bool.and_eq_true, and_assoc] using this

@[simp] theorem core_issue (t : PoolTagId) (r : PoolRequest) : (d.issue t r).core =
    { d.core with pool := { d.pool with tags := d.pool.tags.set t.val (.busy r.requester d.clock.now) t.isLt } } := by
  unfold Device.issue
  dsimp only
  rw [core_emit]
  split
  · rw [core_onTxn]; rfl
  · rw [core_onJob]; rfl
  · rfl

theorem grantOne_change {d' : Device} (h : d.grantOne = some d') : Change d d' := by
  unfold Device.grantOne at h
  split at h
  · rename_i r rest hq
    split at h
    · rename_i t ht
      cases h
      have hfree : d.pool.tags[t] = .free := by
        simp only [Pool.freeReserved, Pool.freeUnreserved] at ht
        rcases hr : d.pool.firstFree 60 63 with _ | t'
        · rw [hr] at ht; exact (Pool.firstFree_spec (by simpa using ht)).2.2
        · rw [hr] at ht
          obtain rfl : t' = t := by simpa using ht
          exact (Pool.firstFree_spec hr).2.2
      unfold Change
      rw [core_issue]
      refine .single (.grant d.core t r d.clock.now _ ⟨rfl, rfl, hfree, .inl ?_, ?_, .refl _, .refl _, id⟩)
      · rw [show d.core.pool.preserveQ = r :: rest from hq]; exact List.mem_cons_self
      · rw [show d.core.pool.preserveQ = r :: rest from hq]; exact List.sublist_cons_self _ _
    · cases h
  · rename_i hpq
    split at h
    · cases h
    · rename_i t ht
      obtain ⟨-, hle, hfree⟩ := Pool.firstFree_spec ht
      split at h
      · rename_i r rest hp hc
        cases h
        unfold Change
        rw [core_issue]
        refine .single (.grant d.core t r d.clock.now _
          ⟨rfl, rfl, hfree, .inr ⟨.inl ?_, hle⟩, .refl _, ?_, .refl _, fun _ => Nat.zero_le _⟩)
        · rw [show d.core.pool.pathQ = r :: rest from hp]; exact List.mem_cons_self
        · rw [show d.core.pool.pathQ = r :: rest from hp]; exact List.sublist_cons_self _ _
      · rename_i r rest c crest hp hc
        split at h
        · rename_i hs
          cases h
          unfold Change
          rw [core_issue]
          refine .single (.grant d.core t r d.clock.now _
            ⟨rfl, rfl, hfree, .inr ⟨.inl ?_, hle⟩, .refl _, ?_, .refl _, fun _ => Nat.succ_le_of_lt hs⟩)
          · rw [show d.core.pool.pathQ = r :: rest from hp]; exact List.mem_cons_self
          · rw [show d.core.pool.pathQ = r :: rest from hp]; exact List.sublist_cons_self _ _
        · cases h
          unfold Change
          rw [core_issue]
          refine .single (.grant d.core t c d.clock.now _
            ⟨rfl, rfl, hfree, .inr ⟨.inr ?_, hle⟩, .refl _, .refl _, ?_, fun _ => Nat.zero_le _⟩)
          · rw [show d.core.pool.copyQ = c :: crest from hc]; exact List.mem_cons_self
          · rw [show d.core.pool.copyQ = c :: crest from hc]; exact List.sublist_cons_self _ _
      · rename_i c crest hp hc
        cases h
        unfold Change
        rw [core_issue]
        refine .single (.grant d.core t c d.clock.now _
          ⟨rfl, rfl, hfree, .inr ⟨.inr ?_, hle⟩, .refl _, .refl _, ?_, fun _ => Nat.zero_le _⟩)
        · rw [show d.core.pool.copyQ = c :: crest from hc]; exact List.mem_cons_self
        · rw [show d.core.pool.copyQ = c :: crest from hc]; exact List.sublist_cons_self _ _
      · cases h

theorem grantLoop_change (n : Nat) : Change d (grantLoop n d) := by
  induction n generalizing d with
  | zero => exact .refl d
  | succ n ih =>
    unfold grantLoop
    split
    · rename_i d' h
      exact (grantOne_change d h).trans (ih d')
    · exact .refl d

theorem grantPool_change : Change d d.grantPool := grantLoop_change d _

/-- A request joins the pool request queue only while the pool link is UP (R14). -/
theorem joinPool_change (r : PoolRequest) (h : d.pool.link = .up) : Change d (d.joinPool r) := by
  unfold Device.joinPool
  dsimp only
  refine Change.trans ?_ (grantPool_change _)
  have mem {q : List PoolRequest} {P : PoolRequest → Prop} (hr : P r) :
      ∀ x ∈ q ++ [r], x ∈ q ∨ (d.core.pool.link = .up ∧ P x) := by
    intro x hx
    rcases List.mem_append.1 hx with hx | hx
    · exact .inl hx
    · obtain rfl := List.mem_singleton.1 hx
      exact .inr ⟨h, hr⟩
  split
  · rename_i q tag hr
    exact .one (.requests d.core _ ⟨rfl, rfl, .inl rfl, fun _ hx => .inl hx,
      mem (P := fun x => ∃ q tag, x.requester = .server q tag) ⟨_, _, hr⟩, fun _ hx => .inl hx⟩)
  · rename_i hr
    exact .one (.requests d.core _ ⟨rfl, rfl, .inl rfl,
      mem (P := fun x => ∃ v g, x.requester = .preserve v g) ⟨_, _, hr⟩, fun _ hx => .inl hx, fun _ hx => .inl hx⟩)
  · rename_i hr
    exact .one (.requests d.core _ ⟨rfl, rfl, .inl rfl, fun _ hx => .inl hx, fun _ hx => .inl hx,
      mem (P := fun x => ∃ k, x.requester = .slot k) ⟨_, hr⟩⟩)

theorem withdrawPath_change (p : PortId) (tag : Nat) : Change d (d.withdrawPath p tag) :=
  .one (.requests d.core _ ⟨rfl, rfl, .inl rfl, fun _ hx => .inl hx,
    fun _ hx => .inl (List.mem_of_mem_filter hx), fun _ hx => .inl hx⟩)

theorem setTag_change (t : PoolTagId) (x : PoolTag) (h : ∀ r m, x ≠ .busy r m) : Change d (d.setTag t x) :=
  .one (.tag d.core t x h)

/-! ### Ports -/

theorem setPort_change (p : PortId) (x : Port) (h1 : x.role = (d.port p).role) (h2 : x.reload = (d.port p).reload)
    (h3 : x.link = (d.port p).link) : Change d (d.setPort p x) := .one (.port d.core p x h1 h2 h3)

end Sys2Proof.Machine
end

