-- ==== Sys2Proof/Laws/TaskChange.lean ====
section
/-! SUPPORT. Every consequence, and the carrying out of all of them, is a Change. -/

namespace Sys2Proof.Machine

variable (d : Device)

/-! ### Write path -/

theorem endWrite_change (w : WriteId) (r : Status) : Change d (endWrite w r d).1 := by
  unfold endWrite
  split
  · exact .refl d
  · split
    · exact .refl d
    · dsimp only
      exact .after (.same (core_reportWrite _ _ _ _)) (.after (lowerInFlight_change _ _)
        (.after (settleCharge_change _ _ _ _) (.same (core_leaveWaits _ _ _))))

theorem admitWrite_change (w : WriteId) : Change d (admitWrite w d).1 := by
  unfold admitWrite
  split
  · exact .refl d
  · rename_i j hj
    have h := admission_change d j.account j.chargeOf
    dsimp only
    split
    · rename_i d' r he
      rw [he] at h
      exact .after (.same (core_reportWrite _ _ _ _)) h
    · rename_i d' he
      rw [he] at h
      split <;> exact .after (stampWrite_change _ _ _ _) h

theorem walkGrains_change (w : WriteId) (gs : List Nat) : Change d (walkGrains w gs d).1 := by
  unfold walkGrains
  split
  · exact .refl d
  · split
    · exact .refl d
    · split
      · exact .refl d
      · dsimp only
        split
        · split
          · exact .same (core_joinEntry _ _ _ _)
          · exact .after (setCurrent_change _ _ _) (.same (core_joinEntry _ _ _ _))
        · split
          · exact .same (core_createEntry _ _ _ _)
          · exact setCurrent_change _ _ _

/-- While the pool link is not DOWN a request that is made joins. -/
theorem request_change {d' : Device} (r : PoolRequest) (hd : ¬ d'.pool.link = .down) : Change d' (d'.joinPool r) :=
  joinPool_change d' r (by cases h : d'.pool.link <;> simp_all)

@[simp] theorem pool_onTxn (p : PortId) (tag : Nat) (f : Txn → Txn) : (d.onTxn p tag f).pool = d.pool :=
  congrArg Core.pool (core_onTxn d p tag f)

@[simp] theorem pool_onJob (w : WriteId) (f : Job → Job) : (d.onJob w f).pool = d.pool :=
  congrArg Core.pool (core_onJob d w f)

@[simp] theorem pool_onEntry (v g : Nat) (f : Pending → Pending) : (d.onEntry v g f).pool = d.pool :=
  congrArg Core.pool (core_onEntry d v g f)

theorem handOnWrite_change (w : WriteId) : Change d (handOnWrite w d).1 := by
  unfold handOnWrite
  split
  · exact .refl d
  · split
    · split
      · exact .refl d
      · dsimp only
        exact .after (request_change _ (by simpa using by assumption)) (.same (core_onJob _ _ _))
    · exact .refl d

theorem reevaluateGrain_change (w : WriteId) (v g : Nat) : Change d (reevaluateGrain w v g d).1 := by
  unfold reevaluateGrain
  split
  · exact .refl d
  · split
    · exact .refl d
    · dsimp only
      split
      · split <;> exact .same (by simp)
      · exact .after (setCurrent_change _ _ _) (.same (core_onJob _ _ _))

theorem enterWritePath_change (w : WriteId) (v : Nat) : Change d (enterWritePath w v d).1 := by
  unfold enterWritePath
  split
  · split
    · exact .same (core_joinHold (by assumption))
    · exact .same (core_reportWrite _ _ _ _)
  · exact .refl d

theorem poolOutcome_change (r : Requester) (st : Status) (data : List Byte) : Change d (poolOutcome r st data d).1 := by
  unfold poolOutcome
  repeat' split
  all_goals try exact .refl d
  all_goals try exact .same (core_endTxn _ _ _ _ _ _)
  dsimp only
  split
  · exact .same (core_onEntry _ _ _ _)
  · exact .after (request_change _ (by assumption)) (.same (core_onEntry _ _ _ _))

/-! ### Preservation -/

theorem startPreserveRead_change (v g base p s : Nat) : Change d (d.startPreserveRead v g base p s).1 := by
  unfold Device.startPreserveRead
  dsimp only
  split
  · exact .same (core_onEntry _ _ _ _)
  · exact .after (request_change _ (by assumption)) (.same (core_onEntry _ _ _ _))

theorem startPreservation_change (v g : Nat) : Change d (startPreservation v g d).1 := by
  unfold startPreservation
  split
  · split
    · split
      · rename_i d' s hs
        exact .after (startPreserveRead_change _ _ _ _ _ _) (takeSlot_change d hs)
      · dsimp only
        exact .after (onVolume_change _ _ _ fun _ => .plain rfl rfl rfl rfl rfl rfl rfl) (.same (core_onEntry _ _ _ _))
    · exact .refl d
  · exact .refl d

theorem storeDone_change (v g : Nat) : Change d (storeDone v g d).1 := by
  unfold storeDone
  split
  · split
    · dsimp only
      refine .after (.same (core_onEntry _ _ _ _)) (.after (onVolume_change _ _ _ fun x => ?_) ?_)
      · split
        · exact setW_step _ _ _
        · exact .refl x
      · split
        · exact .same (core_addPreserve _ _)
        · exact returnSlot_change _ _ _
    · exact .refl d
  · exact .refl d

theorem preservationFailed_change (v g : Nat) : Change d (preservationFailed v g d).1 := by
  unfold preservationFailed
  split
  · dsimp only
    split
    · exact .after (.same (core_onEntry _ _ _ _)) (returnSlot_change _ _ _)
    · exact .after (.same (core_onEntry _ _ _ _)) (returnSlot_change _ _ _)
    · exact .refl d
  · exact .refl d

theorem dropEntry_change (v g : Nat) : Change d (dropEntry v g d).1 := by
  unfold dropEntry
  split
  · split
    · exact .same (core_removeEntry _ _ _)
    · exact .refl d
  · exact .refl d

theorem giveUpWait_change (v g : Nat) : Change d (giveUpWait v g d).1 := by
  unfold giveUpWait
  repeat' split
  all_goals first | exact .refl d | exact leaveSlotWait_change d v g

theorem serveSlots_change (v : Nat) : Change d (serveSlots v d).1 := by
  unfold serveSlots
  repeat' split
  all_goals try exact .refl d
  dsimp only
  rename_i hs
  exact .after (startPreserveRead_change _ _ _ _ _ _) (.after (leaveSlotWait_change _ _ _) (takeSlot_change d hs))

theorem failWait_change (v g p : Nat) : Change d (failWait v g p d).1 := by
  unfold failWait
  repeat' split
  all_goals try exact .refl d
  exact .after (.same (core_onEntry _ _ _ _)) (leaveSlotWait_change _ _ _)

theorem lapseWait_change (v g : Nat) : Change d (lapseWait v g d).1 := by
  unfold lapseWait
  repeat' split
  all_goals first | exact .refl d | exact leaveSlotWait_change d v g

theorem askIfWaiting_change (v : Nat) : Change d (askIfWaiting v d).1 := by
  unfold askIfWaiting
  repeat' split
  all_goals exact .refl d

theorem serveReaders_change : Change d (serveReaders d).1 := by
  unfold serveReaders
  repeat' split
  all_goals exact .same rfl

/-! ### Snapshots -/

theorem askRetirement_change (v : Nat) : Change d (askRetirement v d).1 := by
  unfold askRetirement
  repeat' split
  all_goals first | exact .refl d | exact startRetirement_change d _ _ _

theorem sweepVisit_change (v : Nat) : Change d (sweepVisit v d).1 := by
  unfold sweepVisit
  split
  · exact .refl d
  · rename_i x hx
    split
    · exact .refl d
    · split
      · exact .refl d
      · dsimp only
        have h : Change d (d.setVolume v { x with sweepAt := some (‹PreserveEntry›.grain, ‹PreserveEntry›.first) }) :=
          setVolume_change d _ hx (.plain rfl rfl rfl rfl rfl rfl rfl)
        split
        · exact h
        · refine .after (returnSlot_change _ _ _) (.after (onVolume_change _ _ _ fun _ => ?_) (.after (.same rfl) h))
          exact .plain rfl rfl rfl rfl rfl rfl rfl

theorem filter_numbers_sublist (l : List Snapshot) (f : Snapshot → Bool) :
    ((l.filter f).map Snapshot.number).Sublist (l.map Snapshot.number) := (List.filter_sublist).map _

theorem endRetirement_change (v : Nat) : Change d (endRetirement v d).1 := by
  unfold endRetirement
  split
  · exact .refl d
  · rename_i x hx
    split
    · exact .refl d
    · split
      · exact .refl d
      · dsimp only
        refine .after (notify_change _ _ _ _) (setVolume_change d _ hx ?_)
        refine ⟨rfl, rfl, rfl, .inl rfl, .inl ⟨rfl, filter_numbers_sublist _ _⟩, fun c hc => ⟨.inl ?_, rfl, fun hr => ?_⟩⟩
        · exact Option.isSome_of_eq_some (show x.cut = some c from hc)
        · exact .inl ⟨c, hc, hr⟩

theorem roomFreed_change (v : Nat) : Change d (roomFreed v d).1 := by
  unfold roomFreed
  split
  · exact .refl d
  · rename_i x hx
    split
    · rename_i c hc
      split
      · rename_i hl
        refine setVolume_change d _ hx ⟨rfl, rfl, rfl, .inl rfl, .inl ⟨rfl, .refl _⟩, fun c' hc' => ⟨.inl ?_, rfl, ?_⟩⟩
        · exact Option.isSome_of_eq_some hc
        · exact fun _ => .inr hl
      · exact .refl d
    · exact .refl d

theorem Volume.startRetirement_cut (x : Volume) (k : Nat) (t : Option TxnRef) :
    (x.startRetirement k t).cut = x.cut := by
  unfold Volume.startRetirement
  dsimp only
  split <;> rfl

theorem Volume.startRetirement_fields (x : Volume) (k : Nat) (t : Option TxnRef) :
    (x.startRetirement k t).base = x.base ∧ (x.startRetirement k t).capacity = x.capacity
      ∧ (x.startRetirement k t).fill = x.fill ∧ (x.startRetirement k t).grains = x.grains
      ∧ (x.startRetirement k t).epoch = x.epoch
      ∧ (x.startRetirement k t).snapshots.map Snapshot.number = x.snapshots.map Snapshot.number := by
  unfold Volume.startRetirement
  dsimp only
  split <;> exact ⟨rfl, rfl, rfl, rfl, rfl, map_number_update _ k _ fun _ => rfl⟩

theorem Volume.retain_fields (n : Nat) (x : Volume) :
    (Volume.retain n x).base = x.base ∧ (Volume.retain n x).capacity = x.capacity
      ∧ (Volume.retain n x).fill = x.fill ∧ (Volume.retain n x).grains = x.grains
      ∧ (Volume.retain n x).epoch = x.epoch
      ∧ (Volume.retain n x).snapshots.map Snapshot.number = x.snapshots.map Snapshot.number
      ∧ (Volume.retain n x).cut = x.cut := by
  induction n generalizing x with
  | zero => exact ⟨rfl, rfl, rfl, rfl, rfl, rfl, rfl⟩
  | succ n ih =>
    unfold Volume.retain
    split
    · exact ⟨rfl, rfl, rfl, rfl, rfl, rfl, rfl⟩
    · rename_i s _ _
      split
      · obtain ⟨h1, h2, h3, h4, h5, h6, h7⟩ := ih (x.startRetirement s.number none)
        obtain ⟨k1, k2, k3, k4, k5, k6⟩ := x.startRetirement_fields s.number none
        have k7 := x.startRetirement_cut s.number none
        exact ⟨h1.trans k1, h2.trans k2, h3.trans k3, h4.trans k4, h5.trans k5, h6.trans k6, h7.trans k7⟩
      · exact ⟨rfl, rfl, rfl, rfl, rfl, rfl, rfl⟩

theorem Volume.retain_step (n : Nat) (x : Volume) : VolumeStep x (Volume.retain n x) := by
  obtain ⟨h1, h2, h3, h4, h5, h6, h7⟩ := x.retain_fields n
  exact .plain h1 h2 h3 h4 h5 h6 h7

theorem Volume.makeRoom_plain (x : Volume) :
    x.makeRoom.1.base = x.base ∧ x.makeRoom.1.capacity = x.capacity ∧ x.makeRoom.1.fill = x.fill
      ∧ x.makeRoom.1.grains = x.grains ∧ x.makeRoom.1.epoch = x.epoch
      ∧ x.makeRoom.1.snapshots.map Snapshot.number = x.snapshots.map Snapshot.number
      ∧ (x.makeRoom.2 = .have → x.makeRoom.1.snapshots.length < Config.snapshotRecords) := by
  unfold Volume.makeRoom
  repeat' split
  · rename_i h
    exact ⟨rfl, rfl, rfl, rfl, rfl, rfl, fun _ => h⟩
  · exact ⟨rfl, rfl, rfl, rfl, rfl, rfl, fun h => by cases h⟩
  · obtain ⟨h1, h2, h3, h4, h5, h6⟩ := x.startRetirement_fields ‹Snapshot›.number none
    exact ⟨h1, h2, h3, h4, h5, h6, fun h => by cases h⟩
  · exact ⟨rfl, rfl, rfl, rfl, rfl, rfl, fun h => by cases h⟩

theorem Volume.cutRefusal_none {x : Volume} (h : x.cutRefusal = none) : x.epoch ≠ Config.lastEpoch := by
  unfold Volume.cutRefusal at h
  split at h
  · cases h
  · split at h
    · cases h
    · assumption

theorem acceptCut_change {v : Nat} {x : Volume} (k : CutKind) (r : CutRequester) (n : Nat) (hx : d.volume? v = some x)
    (hr : x.cutRefusal = none) : Change d (d.acceptCut v k r n) := by
  unfold Device.acceptCut Device.onVolume
  rw [hx]
  obtain ⟨h1, h2, h3, h4, h5, h6, h7⟩ := x.makeRoom_plain
  refine setVolume_change d _ hx ⟨h1, h2, h3, .inl h4, .inl ⟨h5, ?_⟩, fun c hc => ⟨.inr (Volume.cutRefusal_none hr), h5, ?_⟩⟩
  · rw [show (_ : Volume).snapshots.map Snapshot.number = _ from h6]
  · intro hroom
    cases hc
    exact .inr (h7 hroom)

theorem askCut_change (v : Nat) (k : CutKind) (r : CutRequester) (n : Nat) (e : Effect)
    (h : d.askCut v k r n = .inr e) : Change d e.1 := by
  unfold Device.askCut at h
  split at h
  · cases h
  · rename_i x hx
    split at h
    · cases h
    · cases h
      exact acceptCut_change d k r n hx (by assumption)

theorem completeCut_change {v : Nat} {x : Volume} {c : CutRecord} (hx : d.volume? v = some x) (hc : x.cut = some c)
    (hr : c.room = .have) : Change d (d.completeCut v x c).1 := by
  unfold Device.completeCut
  dsimp only
  refine .after (setVolume_change (x := x) (d.releaseHeld v) _ hx ?_) (.same (core_releaseHeld _ _))
  exact ⟨rfl, rfl, rfl, .inl rfl, .inr ⟨rfl, by simp, rfl, c, hc, hr⟩, fun c' hc' => by cases hc'⟩

theorem passCutCompleted_change (n : Nat) : Change d (passCutCompleted n d).1 := by
  unfold passCutCompleted
  split
  · exact .same rfl
  · exact .refl d

theorem passCutAbandoned_change : Change d (passCutAbandoned d).1 := by
  unfold passCutAbandoned
  split <;> exact .refl d

theorem finishCut_change (v : Nat) (c : CutRecord) (n r : Nat) : Change d (finishCut v c n r d).1 := by
  unfold finishCut
  dsimp only
  have h : Change d (if c.kind = .scheduled then
      (d.notify .cutDone (.volume v) (.number n)).onVolume v fun x => Volume.retain x.snapshots.length x
      else d.notify .cutDone (.volume v) (.number n)) := by
    split
    · exact .after (onVolume_change _ _ _ fun x => Volume.retain_step _ x) (notify_change _ _ _ _)
    · exact notify_change _ _ _ _
  split
  · exact .after (.same (core_answer _ _ _ _ _)) h
  · exact h
  · exact .after (passCutCompleted_change _ _) h

theorem VolumeStep.noCut (x : Volume) : VolumeStep x { x with cut := none } :=
  ⟨rfl, rfl, rfl, .inl rfl, .inl ⟨rfl, .refl _⟩, fun c hc => by cases hc⟩

theorem abandonCut_change {v : Nat} {x : Volume} (c : CutRecord) (hx : d.volume? v = some x) :
    Change d (d.abandonCut v x c).1 := by
  unfold Device.abandonCut
  dsimp only
  exact .after (setVolume_change (x := x) ((d.reach _).releaseHeld v) _ hx (.noCut x)) (.same rfl)

theorem finishDrained_change (v : Nat) (c : CutRecord) : Change d (finishDrained v c d).1 := by
  unfold finishDrained
  dsimp only
  split
  · exact .after (.same (core_answer _ _ _ _ _)) (notify_change _ _ _ _)
  · exact notify_change _ _ _ _
  · exact .after (passCutAbandoned_change _) (notify_change _ _ _ _)

theorem tellPass_change (v : Nat) : Change d (tellPass v d).1 := by
  unfold tellPass
  repeat' split
  all_goals exact .refl d

theorem scheduledCut_change (v : Nat) : Change d (scheduledCut v d).1 := by
  unfold scheduledCut
  split
  · exact notify_change _ _ _ _
  · exact askCut_change d _ _ _ _ _ (by assumption)

theorem finishRemoval_change (v : Nat) (x : Volume) : Change d (d.finishRemoval v x) := by
  unfold Device.finishRemoval
  dsimp only
  exact .after (.same (core_answer _ _ _ _ _)) (.one (.remove d.core v))

theorem removalCheck_change (v : Nat) : Change d (removalCheck v d).1 := by
  unfold removalCheck
  repeat' split
  all_goals first | exact .refl d | exact finishRemoval_change d _ _

theorem volumeCheck_change (v : Nat) : Change d (volumeCheck v d).1 := by
  unfold volumeCheck
  split
  · exact .refl d
  · rename_i x hx
    split
    · rename_i c hc
      split
      · rename_i h
        exact completeCut_change d hx hc h.2
      · exact .refl d
    · exact removalCheck_change d v

/-! ### Copy engine -/

theorem requestRead_change (k : SlotId) (addr : Nat) : Change d (d.requestRead k addr).1 := by
  unfold Device.requestRead
  split
  · exact .refl d
  · exact request_change _ (by assumption)

theorem skipCopy_change (k : SlotId) (s : CopySlot) : Change d (d.skipCopy k s).1 := by
  unfold Device.skipCopy
  dsimp only
  split <;> exact .same rfl

theorem startRead_change (k : SlotId) : Change d (startRead k d).1 := by
  unfold startRead
  split
  · exact .refl d
  · dsimp only
    split
    · exact skipCopy_change _ _ _
    · exact .after (requestRead_change _ _ _) (.same rfl)
    · split
      · exact .after (requestRead_change _ _ _) (.same (by simp))
      · split
        · exact .after (requestRead_change _ _ _) (.same rfl)
        · exact .same rfl

theorem endRead_change (k : SlotId) (st : Status) (data : List Byte) : Change d (endRead k st data d).1 := by
  unfold endRead
  repeat' split
  all_goals exact .same (by simp)

theorem readOutcome_change (k : SlotId) (st : Status) (data : List Byte) : Change d (readOutcome k st data d).1 := by
  unfold readOutcome
  repeat' split
  all_goals exact .same (by simp)

theorem makeWrite_change (k : SlotId) : Change d (makeWrite k d).1 := by
  unfold makeWrite
  repeat' split
  all_goals try exact .refl d
  exact .after (enterWritePath_change _ _ _) (.same rfl)

theorem endRestore_change (x : Restore) (o : RestoreOutcome) (r : Option RestoreReason) :
    Change d (d.endRestore x o r) := by
  unfold Device.endRestore
  dsimp only
  exact .after (unpin_change _ _ _) (.same rfl)

theorem notifyExtent_change (x : Restore) (i : Nat) (o : ExtentOutcome) : Change d (d.notifyExtent x i o) := by
  unfold Device.notifyExtent
  repeat' split
  all_goals first | exact .refl d | exact notify_change _ _ _ _

theorem extentCheck_change (id : Nat) : Change d (extentCheck id d).1 := by
  unfold extentCheck
  split
  · exact .refl d
  · split
    · exact .refl d
    · split
      · dsimp only
        split
        · exact .after (notify_change _ _ _ _) (.after (endRestore_change _ _ _ _)
            (.after (.same (core_onRestore _ _ _)) (.after (notifyExtent_change _ _ _ _) (.same (core_onRestore _ _ _)))))
        · split
          · exact .after (.same (core_onRestore _ _ _)) (.after (notifyExtent_change _ _ _ _) (.same (core_onRestore _ _ _)))
          · exact .after (notify_change _ _ _ _) (.after (endRestore_change _ _ _ _)
              (.after (notifyExtent_change _ _ _ _) (.same (core_onRestore _ _ _))))
      · exact .refl d

theorem promoteRestore_change : Change d (promoteRestore d).1 := by
  unfold promoteRestore
  repeat' split
  all_goals exact .same rfl

theorem grantRestore_change (k : SlotId) (x : Restore) : Change d (d.grantRestore k x).1 := by
  unfold Device.grantRestore
  split
  · dsimp only
    split <;> exact .same rfl
  · exact .refl d

theorem grantPass_change (k : SlotId) (p : Pass) (pl : Place) : Change d (d.grantPass k p pl).1 := .same rfl

theorem grantSlot_change : Change d (grantSlot d).1 := by
  unfold grantSlot
  split
  · exact .refl d
  · dsimp only
    split
    · split
      · exact grantPass_change _ _ _ _
      · exact grantRestore_change _ _ _
    · exact grantRestore_change _ _ _
    · exact grantPass_change _ _ _ _
    · exact .refl d

/-! ### Duplication -/

theorem transmit_change : Change d (transmit d).1 := by
  unfold transmit
  repeat' split
  all_goals first | exact .same rfl | exact .same (core_takeStaged _ _)

theorem passCheck_change : Change d (passCheck d).1 := by
  unfold passCheck
  split
  · exact .refl d
  · extract_lets capacity
    split
    · exact .same (by simp)
    · split
      · exact .same rfl
      · exact .refl d

theorem passStart_change : Change d (passStart d).1 := by
  unfold passStart
  split <;> exact .same rfl

theorem passCut_change : Change d (passCut d).1 := by
  unfold passCut
  repeat' split
  all_goals try exact .refl d
  exact askCut_change d _ _ _ _ _ (by assumption)

theorem closePass_change (p : Pass) (o : PassOutcome) (r : Option PassReason) : Change d (d.closePass p o r) := by
  unfold Device.closePass
  extract_lets d1 d2 _ d3 d4
  have h1 : Change d d1 := by
    dsimp only [d1]
    split
    · exact unpin_change _ _ _
    · exact .refl d
  have h2 : Change d1 d2 := Change.foldl _ _ (fun d k => .same (core_releasePassSlot d k)) _
  clear_value d1 d2
  have h3 : Change d2 d3 := .same rfl
  have h4 : Change d3 d4 := onVolume_change _ _ _ fun _ => .plain rfl rfl rfl rfl rfl rfl rfl
  exact (h1.trans h2).trans ((h3.trans h4).trans (.same rfl))

theorem passEnd_change (o : PassOutcome) (r : Option PassReason) : Change d (passEnd o r d).1 := by
  unfold passEnd
  split
  · exact .refl d
  · dsimp only
    split
    · exact closePass_change _ _ _ _
    · exact .after (notify_change _ _ _ _) (closePass_change _ _ _ _)
    · exact closePass_change _ _ _ _

theorem retireOlder_change (v n : Nat) : Change d (retireOlder v n d).1 := by
  unfold retireOlder
  split
  · exact .refl d
  · exact Change.foldl _ _ (fun d k => startRetirement_change d v k none) d

theorem makeReady_change : Change d (makeReady d).1 := by
  unfold makeReady
  repeat' split
  all_goals exact .same (by simp)

theorem endSweep_change : Change d (endSweep d).1 := by
  unfold endSweep
  repeat' split
  all_goals exact .same (by simp)

theorem placeGrain_change (k : SlotId) : Change d (placeGrain k d).1 := by
  unfold placeGrain
  repeat' split
  all_goals exact .same rfl

theorem goBack_change (q : Nat) : Change d (goBack q d).1 := by
  unfold goBack
  dsimp only
  split <;> exact .same rfl

theorem overrun_change : Change d d.overrun := by
  unfold Device.overrun
  split
  · exact notify_change _ _ _ _
  · exact .refl d

theorem fireEntry_change (i : Fin 8) : Change d (fireEntry i d).1 := by
  unfold fireEntry
  split
  · split
    · exact .same rfl
    · exact .refl d
  · split
    · exact .after (overrun_change _) (.same rfl)
    · exact .refl d
  · exact .refl d

/-! ### Oversight -/

theorem discardWrite_change (p : PortId) (tag : Nat) (j : Job) : Change d (d.discardWrite p tag j) := by
  unfold Device.discardWrite
  dsimp only
  refine .after (.same (core_freeTag _ _ _)) (.after (lowerInFlight_change _ _) ?_)
  split
  · exact .same (core_leaveWaits _ _ _)
  · exact .after (releaseCharge_change _ _ _) (.same (core_leaveWaits _ _ _))

theorem discardTxn_change (p : PortId) (tag : Nat) (t : Txn) : Change d (d.discardTxn p tag t) := by
  unfold Device.discardTxn
  dsimp only
  split
  · exact .same rfl
  · exact .after (discardWrite_change _ _ _ _) (.same rfl)
  · split
    · exact .after (discardWrite_change _ _ _ _) (.after (withdrawPath_change _ _ _) (.same rfl))
    · exact .after (.same (core_freeTag _ _ _)) (.after (withdrawPath_change _ _ _) (.same rfl))
  · exact .same rfl
  · exact .same rfl

theorem discardPort_change (p : PortId) : Change d (d.discardPort p).1 := by
  unfold Device.discardPort
  exact .foldl _ _ (fun d (t : Nat × Txn) => discardTxn_change d p t.1 t.2) d

theorem fencePort_change (p : PortId) (r : FenceReason) : Change d (d.fencePort p r).1 := by
  unfold Device.fencePort
  dsimp only
  exact .after (discardPort_change _ _) (.after (notify_change _ _ _ _) (setPort_change _ _ _ rfl rfl rfl))

theorem portTick_change (p : PortId) : Change d (portTick p d).1 := by
  unfold portTick
  dsimp only
  split
  · split
    · exact .after (fencePort_change _ _ _) (setPort_change _ _ _ rfl rfl rfl)
    · exact setPort_change _ _ _ rfl rfl rfl
  · exact .refl d

/-! ### All consequences -/

theorem replyRestore_change (p : PortId) (tag id : Nat) : Change d (replyRestore p tag id d).1 := by
  unfold replyRestore
  split
  · exact .same (core_reply _ _ _ _ _ _)
  · exact .refl d

theorem replyCancel_change (p : PortId) (tag id : Nat) : Change d (replyCancel p tag id d).1 := by
  unfold replyCancel
  split
  · exact .same (core_reply _ _ _ _ _ _)
  · exact .refl d

theorem perform_change (t : Task) : Change d (perform t d).1 := by
  cases t with
  | writeEnd w r => exact endWrite_change d w r
  | recheck a => exact quotaChecks_change d a
  | volumeCheck v => exact volumeCheck_change d v
  | removalCheck v => exact removalCheck_change d v
  | giveUp v g => exact giveUpWait_change d v g
  | admission w => exact admitWrite_change d w
  | walk w gs => exact walkGrains_change d w gs
  | handOn w => exact handOnWrite_change d w
  | startPreservation v g => exact startPreservation_change d v g
  | storeDone v g => exact storeDone_change d v g
  | preservationFailed v g => exact preservationFailed_change d v g
  | dropEntry v g => exact dropEntry_change d v g
  | reevaluate w v g => exact reevaluateGrain_change d w v g
  | serveReaders => exact serveReaders_change d
  | serveSlots v => exact serveSlots_change d v
  | askRetirement v => exact askRetirement_change d v
  | failWait v g p => exact failWait_change d v g p
  | lapse v g => exact lapseWait_change d v g
  | askIfWaiting v => exact askIfWaiting_change d v
  | roomFreed v => exact roomFreed_change d v
  | answerRetire txn n => exact .same (core_answer _ _ _ _ _)
  | poolEnd r st data => exact poolOutcome_change d r st data
  | notePoolDown n => exact notify_change d _ _ _
  | startRead k => exact startRead_change d k
  | readEnd k st data => exact endRead_change d k st data
  | readOutcome k st data => exact readOutcome_change d k st data
  | makeWrite k => exact makeWrite_change d k
  | extentCheck id => exact extentCheck_change d id
  | promote => exact promoteRestore_change d
  | grant => exact grantSlot_change d
  | cutDone v c n m => exact finishCut_change d v c n m
  | cutDrained v c => exact finishDrained_change d v c
  | tellPass v => exact tellPass_change d v
  | passCut => exact passCut_change d
  | passEnd o r => exact passEnd_change d o r
  | passStart => exact passStart_change d
  | retireOlder v n => exact retireOlder_change d v n
  | passCheck => exact passCheck_change d
  | transmit => exact transmit_change d
  | fire i => exact fireEntry_change d i
  | scheduledCut v => exact scheduledCut_change d v
  | portTick p => exact portTick_change d p
  | replyRestore p tag id => exact replyRestore_change d p tag id
  | replyCancel p tag id => exact replyCancel_change d p tag id

theorem carryOut_change (n : Nat) (ts : List Task) : Change d (carryOut n ts d) := by
  induction n generalizing d ts with
  | zero => exact .refl d
  | succ n ih =>
    cases ts with
    | nil => exact .refl d
    | cons t ts => exact (perform_change d t).trans (ih _ _)

/-- Carrying out the consequences of an effect changes the part only by single changes. -/
theorem settle_change (e : Effect) : Change e.1 (settle e) := carryOut_change _ _ _

end Sys2Proof.Machine
end

