-- ==== Sys2Proof/Laws/ExecChange.lean ====
section
/-! SUPPORT. The meaning of every command that is not one of a few (Laws/Special.lean) is a Change. -/

namespace Sys2Proof.Machine

/-! ### Events -/

/-- What an event answers: the part is left alone while RESET# is low (R179), and the queue always. -/
theorem event_eq {f : Device → Device} {s t : State} (h : s.event f = .next t) :
    t.pending = s.pending ∧ (s.dev.resetLow = true → t = s) ∧ (s.dev.resetLow = false → t.dev = f s.dev) := by
  unfold State.event at h
  cases h
  cases s.dev.resetLow <;> simp

theorem event_change {f : Device → Device} {s t : State} (h : s.event f = .next t) (hf : Change s.dev (f s.dev)) :
    Change s.dev t.dev := by
  obtain ⟨-, hl, hh⟩ := event_eq h
  cases hr : s.dev.resetLow with
  | true => rw [hl hr]
  | false => rw [hh hr]; exact hf

/-- What holds of what is left when the checks stop a command, and of what its body leaves, holds of the taking. -/
theorem take_ind {α β : Type} (P : β → Prop) (d : Device) (p : PortId) (tag : Nat) (n : CommandName)
    (parse : List Byte → Option α) (done : Device → β) (body : Device → α → β)
    (hdone : ∀ d', d'.core = d.core → P (done d')) (hbody : ∀ d' args, d'.core = d.core → P (body d' args)) :
    P (d.take p tag n parse done body) := by
  unfold Device.take
  split
  · exact hdone d rfl
  · split
    · exact hdone d rfl
    · split
      · dsimp only
        split
        · exact hdone _ (core_reply _ _ _ _ _ _)
        · split
          · exact hdone _ (core_reply _ _ _ _ _ _)
          · exact hbody _ _ (core_setTxn _ _ _ _)
      · exact hdone d rfl

theorem Change.of_same {a b c : Device} (ha : b.core = a.core) (h : Change b c) : Change a c := (Change.same ha).trans h

theorem takeNow_change (d : Device) (p : PortId) (tag : Nat) (n : CommandName) (body : Device → List Arg → Device)
    (h : ∀ d args, Change d (body d args)) : Change d (d.takeNow p tag n body) :=
  take_ind (fun x => Change d x) d p tag n _ _ _ (fun _ hd => .same hd) fun d' args hd => .of_same hd (h d' args)

theorem takeThen_change (d : Device) (p : PortId) (tag : Nat) (n : CommandName) (body : Device → List Arg → Effect)
    (h : ∀ d args, Change d (body d args).1) : Change d (d.takeThen p tag n body) :=
  (take_ind (fun (x : Effect) => Change d x.1) d p tag n _ _ _ (fun _ hd => .same hd)
    fun d' args hd => .of_same hd (h d' args)).trans (settle_change _)

@[simp] theorem core_deny (d : Device) (p : PortId) (tag : Nat) (st : MgmtStatus) : (d.deny p tag st).core = d.core :=
  core_reply _ _ _ _ _ _

@[simp] theorem core_denyEffect (d : Device) (p : PortId) (tag : Nat) (st : MgmtStatus) :
    (d.denyEffect p tag st).1.core = d.core := core_reply _ _ _ _ _ _

variable (d : Device)

/-! ### Frames and pool -/

theorem onUpPort_change (p : PortId) (f : Device) (h : Change d f) : Change d (d.onUpPort p f) := by
  unfold Device.onUpPort
  split
  · exact h
  · exact .refl d

theorem dataRefusal_none {p : PortId} {h : Header} {bad : Bool} (hr : d.dataRefusal p h bad = none) :
    d.pool.link = .up := by
  unfold Device.dataRefusal at hr
  split at hr
  · cases hr
  · split at hr
    · cases hr
    · rename_i h
      cases hl : d.pool.link <;> simp_all

theorem acceptRead_change (p : PortId) (h : Header) (hl : d.pool.link = .up) : Change d (d.acceptRead p h) :=
  .after (joinPool_change _ _ hl) (.same rfl)

theorem acceptWrite_change (p : PortId) (h : Header) (payload : List Byte) : Change d (d.acceptWrite p h payload).1 :=
  .after (enterWritePath_change _ _ _) (.same rfl)

theorem donePool_change (t : PoolTagId) (st : PoolStatus) (data : List Byte) : Change d (d.donePool t st data).1 := by
  unfold Device.donePool
  split
  · exact .after (grantPool_change _) (setTag_change _ _ _ (by simp))
  · exact .refl d

theorem timeoutPool_change (t : PoolTagId) : Change d (d.timeoutPool t).1 := by
  unfold Device.timeoutPool
  split
  · dsimp only
    exact .after (setTag_change _ _ _ (by simp)) (.same rfl)
  · exact .refl d

@[simp] theorem core_completeReset : d.completeReset.core = d.core := by
  unfold Device.completeReset
  split
  · split
    · exact core_reply _ _ _ _ _ _
    · rfl
  · rfl

theorem endQuarantine_change (t : PoolTagId) : Change d (d.endQuarantine t) := by
  unfold Device.endQuarantine
  split
  · refine .after (grantPool_change _) ?_
    refine .after (.same (core_completeReset _)) ?_
    have h := setTag_change (d.reach ‹Nat›) t .free (by simp)
    exact .trans (.same rfl) (h.trans (.same rfl))
  · exact .refl d

/-! ### Clock, oversight and the part's own work -/

theorem graceExpiry_change (a : Nat) : Change d (d.graceExpiry a) := by
  unfold Device.graceExpiry
  split
  · exact expiryScan_change d 1
  · exact .refl d

theorem livenessExpiry_change (p : PortId) : Change d (d.livenessExpiry p).1 := by
  unfold Device.livenessExpiry
  dsimp only
  split
  · exact fencePort_change _ _ _
  · exact .refl d

theorem endFill_change (v : Nat) : Change d (d.endFill v) := by
  unfold Device.endFill
  split
  · rename_i x hx
    split
    · exact .after (.same (core_answer _ _ _ _ _)) (setVolume_change d _ hx (.plain rfl rfl rfl rfl rfl rfl rfl))
    · exact .refl d
  · exact .refl d

theorem drainTimeout_change (v : Nat) : Change d (d.drainTimeout v).1 := by
  unfold Device.drainTimeout
  split
  · split
    · exact abandonCut_change _ _ (by assumption)
    · exact .refl d
  · exact .refl d

theorem retryDue_change (k : SlotId) : Change d (d.retryDue k).1 := by
  unfold Device.retryDue
  repeat' split
  all_goals exact .same rfl

/-! ### Duplication -/

theorem endTransmission_change : Change d d.endTransmission.1 := by
  unfold Device.endTransmission
  split <;> exact .same rfl

theorem idleClose_change : Change d d.idleClose.1 := by
  unfold Device.idleClose
  repeat' split
  all_goals exact .same rfl

theorem ackExpiry_change (q : Nat) : Change d (d.ackExpiry q).1 := by
  unfold Device.ackExpiry
  repeat' split
  · exact .after (goBack_change _ _) (.same rfl)
  · exact .refl d
  · exact .refl d

theorem drainEnd_change : Change d d.drainEnd.1 := by
  unfold Device.drainEnd
  repeat' split
  · exact passCheck_change d
  · exact .refl d
  · exact .refl d

theorem passEndExpiry_change : Change d d.passEndExpiry.1 := by
  unfold Device.passEndExpiry
  repeat' split
  all_goals (try dsimp only)
  all_goals (try split)
  all_goals exact .same rfl

theorem losePeer_change (l : OffsiteLink) (w : Name) : Change d (d.losePeer l w) :=
  .after (notify_change _ _ _ _) (.same (core_setOffsite _ _))

theorem peerStatus_change (r : Bool) : Change d (d.peerStatus r).1 := by
  unfold Device.peerStatus
  split
  all_goals first | exact .same rfl | exact losePeer_change _ _ _

theorem takeAck_change (q : Nat) : Change d (d.takeAck q).1 := by
  unfold Device.takeAck
  repeat' split
  all_goals exact .same rfl

theorem takeRefuse_change (q : Nat) (r : RefuseReason) : Change d (d.takeRefuse q r).1 := by
  unfold Device.takeRefuse
  split
  · split
    · exact .refl d
    · exact .refl d
    · exact goBack_change _ _
    · exact goBack_change _ _
  · exact .refl d

theorem confirmPass_change (p : Pass) (n : Nat) : Change d (d.confirmPass p n) := by
  unfold Device.confirmPass
  extract_lets once d1 _ d2
  have h1 : Change d d1 := onVolume_change _ _ _ fun _ => .plain rfl rfl rfl rfl rfl rfl rfl
  have h2 : Change d1 d2 := by
    dsimp only [d2]
    split
    · exact .same rfl
    · exact .refl d1
  exact .after (notify_change _ _ _ _) (h1.trans h2)

theorem takePassAck_change (t n : Nat) : Change d (d.takePassAck t n).1 := by
  unfold Device.takePassAck
  split
  · split
    · exact confirmPass_change _ _ _
    · exact .refl d
  · exact .refl d

theorem takeAttention_change (c : Nat) : Change d (d.takeAttention c) := by
  unfold Device.takeAttention
  split
  · exact .refl d
  · exact notify_change _ _ _ _

theorem loseOffsite_change : Change d d.loseOffsite := by
  unfold Device.loseOffsite
  split
  · exact losePeer_change _ _ _
  · exact .same rfl

theorem silence_change : Change d d.silence := by
  unfold Device.silence
  split
  · exact .after (losePeer_change _ _ _) (.same rfl)
  · exact .refl d

/-! ### Management commands -/

theorem takeUnknown_change (p : PortId) (tag : Nat) : Change d (d.takeUnknown p tag) := by
  unfold Device.takeUnknown
  repeat' split
  · exact .refl d
  · exact .refl d
  · exact .same (core_deny _ _ _ _)
  · exact .refl d

theorem keepalive_change (p : PortId) (tag : Nat) : Change d (d.keepalive p tag) := by
  unfold Device.keepalive
  exact .after (.same (core_reply _ _ _ _ _ _)) (setPort_change _ _ _ rfl rfl rfl)

theorem fenceCommand_change (p : PortId) (tag : Nat) (args : List Arg) : Change d (d.fenceCommand p tag args).1 := by
  unfold Device.fenceCommand
  repeat' split
  all_goals try exact .same (core_denyEffect _ _ _ _)
  · exact .same (core_reply _ _ _ _ _ _)
  · rename_i d' more h
    have h' := fencePort_change d ‹PortId› .command
    rw [h] at h'
    exact .after (.same (core_reply _ _ _ _ _ _)) h'

theorem unfenceCommand_change (p : PortId) (tag : Nat) (args : List Arg) : Change d (d.unfenceCommand p tag args) := by
  unfold Device.unfenceCommand
  split
  · split
    · exact .same (core_deny _ _ _ _)
    · split
      · exact .same (core_deny _ _ _ _)
      · dsimp only
        refine .after (.same (core_reply _ _ _ _ _ _)) (setPort_change _ _ _ ?_ ?_ ?_)
        all_goals unfold Port.cleared; split <;> rfl
  · exact .same (core_deny _ _ _ _)

theorem scheduleSet_change (p : PortId) (tag : Nat) (args : List Arg) : Change d (d.scheduleSet p tag args) := by
  unfold Device.scheduleSet
  split
  · split
    · exact .after (.same (core_reply _ _ _ _ _ _)) (.same rfl)
    · exact .same (core_deny _ _ _ _)
  · exact .same (core_deny _ _ _ _)

theorem accountRead_change (p : PortId) (tag : Nat) (args : List Arg) : Change d (d.accountRead p tag args) := by
  unfold Device.accountRead
  repeat' split
  all_goals first | exact .same (core_deny _ _ _ _) | exact .same (core_reply _ _ _ _ _ _)

theorem groupRead_change (p : PortId) (tag : Nat) (args : List Arg) : Change d (d.groupRead p tag args) := by
  unfold Device.groupRead
  repeat' split
  all_goals first | exact .same (core_deny _ _ _ _) | exact .same (core_reply _ _ _ _ _ _)

theorem volumeRead_change (p : PortId) (tag : Nat) (args : List Arg) : Change d (d.volumeRead p tag args) := by
  unfold Device.volumeRead
  repeat' split
  all_goals first | exact .same (core_deny _ _ _ _) | exact .same (core_reply _ _ _ _ _ _)

theorem volumeRemove_change (p : PortId) (tag : Nat) (args : List Arg) : Change d (d.volumeRemove p tag args).1 := by
  unfold Device.volumeRemove
  repeat' split
  · exact .same (core_denyEffect _ _ _ _)
  · exact onVolume_change _ _ _ fun _ => .plain rfl rfl rfl rfl rfl rfl rfl
  · exact .same (core_denyEffect _ _ _ _)

theorem setReserve_change (v l r : Nat) : Change d (d.setReserve v l r) :=
  .after (reserveRearm_change _ _) (.after (reserveLowCheck_change _ _)
    (onVolume_change _ _ _ fun _ => .plain rfl rfl rfl rfl rfl rfl rfl))

theorem reserveSet_change (p : PortId) (tag : Nat) (args : List Arg) : Change d (d.reserveSet p tag args).1 := by
  unfold Device.reserveSet
  repeat' split
  · exact .same (core_denyEffect _ _ _ _)
  · exact .after (.same (core_reply _ _ _ _ _ _)) (setReserve_change _ _ _ _)
  · exact .same (core_denyEffect _ _ _ _)

theorem cutCommand_change (p : PortId) (tag : Nat) (args : List Arg) : Change d (d.cutCommand p tag args).1 := by
  unfold Device.cutCommand
  repeat' split
  all_goals try exact .same (core_denyEffect _ _ _ _)
  exact askCut_change d _ _ _ _ _ (by assumption)

theorem retireCommand_change (p : PortId) (tag : Nat) (args : List Arg) : Change d (d.retireCommand p tag args) := by
  unfold Device.retireCommand
  repeat' split
  · exact .same (core_deny _ _ _ _)
  · exact startRetirement_change _ _ _ _
  · exact .same (core_deny _ _ _ _)

theorem snapshotList_change (p : PortId) (tag : Nat) (args : List Arg) : Change d (d.snapshotList p tag args) := by
  unfold Device.snapshotList
  repeat' split
  all_goals first | exact .same (core_deny _ _ _ _) | exact .same (core_reply _ _ _ _ _ _)

theorem evictRestore_core : d.evictRestore.core = d.core := by
  unfold Device.evictRestore
  repeat' split
  all_goals rfl

theorem acceptRestore_change (p : PortId) (tag : Nat) (a : RestoreArgs) : Change d (d.acceptRestore p tag a).1 := by
  unfold Device.acceptRestore
  dsimp only
  exact .after (pin_change _ _ _) (.after (.same rfl) (.same (evictRestore_core d)))

theorem restoreCommand_change (p : PortId) (tag : Nat) (a : RestoreArgs) : Change d (d.restoreCommand p tag a).1 := by
  unfold Device.restoreCommand
  split
  · exact .same (core_reply _ _ _ _ _ _)
  · exact acceptRestore_change _ _ _ _

theorem restoreStatus_change (p : PortId) (tag : Nat) (args : List Arg) : Change d (d.restoreStatus p tag args) := by
  unfold Device.restoreStatus
  repeat' split
  all_goals first | exact .same (core_deny _ _ _ _) | exact .same (core_reply _ _ _ _ _ _)

theorem cancelQueued_change (x : Restore) : Change d (d.cancelQueued x) :=
  .after (notify_change _ _ _ _) (.after (endRestore_change _ _ _ _) (.same rfl))

theorem dropRetry_core (id : Nat) (k : SlotId) : (d.dropRetry id k).core = d.core := by
  unfold Device.dropRetry
  repeat' split
  all_goals rfl

theorem cancelRunning_change (x : Restore) : Change d (d.cancelRunning x) := by
  unfold Device.cancelRunning
  exact .after (Change.foldl _ _ (fun d k => .same (dropRetry_core d _ k)) _) (.same rfl)

theorem restoreCancel_change (p : PortId) (tag : Nat) (args : List Arg) : Change d (d.restoreCancel p tag args).1 := by
  unfold Device.restoreCancel
  split
  · split
    · exact .same (core_denyEffect _ _ _ _)
    · split
      · exact .same (core_denyEffect _ _ _ _)
      · dsimp only
        exact cancelQueued_change _ _
      · split
        · exact .refl d
        · dsimp only
          exact cancelRunning_change _ _
  · exact .same (core_denyEffect _ _ _ _)

theorem enrolVolume_change (v : Nat) (e : Enrolment) (t : Nat) : Change d (d.enrolVolume v e t) := by
  unfold Device.enrolVolume
  have h : Change d (d.onVolume v fun x => x.enrolled e t) := onVolume_change _ _ _ fun x => by
    unfold Volume.enrolled
    repeat' split
    all_goals exact .plain rfl rfl rfl rfl rfl rfl rfl
  dsimp only
  split
  · exact .after (.same rfl) h
  · exact h

theorem enrol_change (p : PortId) (tag : Nat) (args : List Arg) : Change d (d.enrol p tag args) := by
  unfold Device.enrol
  repeat' split
  all_goals try exact .same (core_deny _ _ _ _)
  exact .after (.same (core_reply _ _ _ _ _ _)) (enrolVolume_change _ _ _ _)

theorem duplicateNow_change (p : PortId) (tag : Nat) (args : List Arg) : Change d (d.duplicateNow p tag args).1 := by
  unfold Device.duplicateNow
  repeat' split
  all_goals try exact .same (core_denyEffect _ _ _ _)
  refine .after (.same (core_reply _ _ _ _ _ _)) (.same ?_)
  unfold Device.demand
  split <;> rfl

theorem pacingSet_change (p : PortId) (tag : Nat) (args : List Arg) : Change d (d.pacingSet p tag args).1 := by
  unfold Device.pacingSet
  split
  · exact .after (.same (core_reply _ _ _ _ _ _)) (.same rfl)
  · exact .same (core_denyEffect _ _ _ _)

theorem stagingSet_change (p : PortId) (tag : Nat) (args : List Arg) : Change d (d.stagingSet p tag args) := by
  unfold Device.stagingSet
  repeat' split
  all_goals try exact .same (core_deny _ _ _ _)
  dsimp only
  split
  · exact .same (core_deny _ _ _ _)
  · exact .after (.same (core_reply _ _ _ _ _ _)) (.same rfl)

theorem passStop_change (p : PortId) (tag : Nat) : Change d (d.passStop p tag).1 := by
  unfold Device.passStop
  repeat' split
  · exact .same (core_denyEffect _ _ _ _)
  · exact .same (core_reply _ _ _ _ _ _)
  · exact .same (core_reply _ _ _ _ _ _)

theorem signalPeer_change (p : PortId) (tag : Nat) (args : List Arg) : Change d (d.signalPeer p tag args).1 := by
  unfold Device.signalPeer
  split
  · split
    · exact .same (core_denyEffect _ _ _ _)
    · split
      · exact .same (core_denyEffect _ _ _ _)
      · exact .after (.same (core_reply _ _ _ _ _ _)) (.same rfl)
  · exact .same (core_denyEffect _ _ _ _)

/-! ### PATH RESET -/

theorem resetCut_change (e : Nat × CutRecord) : Change d (d.resetCut e) := by
  unfold Device.resetCut
  dsimp only
  split
  · exact .after (.same (core_answer _ _ _ _ _)) (onVolume_change _ _ _ fun x => .noCut x)
  · exact onVolume_change _ _ _ fun x => .noCut x

theorem abortJob_change (j : Job) : Change d (d.abortJob j) := by
  unfold Device.abortJob
  split
  · exact .after (lowerInFlight_change _ _) (settleCharge_change _ _ _ _)
  · exact .refl d

theorem abortTxn_change (e : Nat × Txn) : Change d (d.abortTxn e) :=
  .after (.same (core_endTxn _ _ _ _ _ _)) (abortJob_change _ _)

theorem abortSlot_change (k : SlotId) : Change d (d.abortSlot k) := by
  unfold Device.abortSlot
  repeat' split
  · exact .after (.same (core_setSlot _ _ _)) (abortJob_change _ _)
  · exact .same rfl
  · exact .refl d

theorem quarantineBusy_change : Change d d.quarantineBusy :=
  .one (.quarantine d.core _ fun x r m => by cases x <;> simp)

theorem withdrawAll_change : Change d d.withdrawAll :=
  .one (.requests d.core { d.pool with preserveQ := [], pathQ := [], copyQ := [] }
    ⟨rfl, rfl, .inl rfl, by simp, by simp, by simp⟩)

theorem resetPending_change : Change d d.resetPending := by
  unfold Device.resetPending
  dsimp only
  refine .after (?_ : Change _ _) (Change.foldl _ d.unstoredSlots (fun d e => returnSlot_change d e.1 e.2) d)
  exact .one (.volumes _ (fun x => { x with slotWait := [] }) fun _ => .plain rfl rfl rfl rfl rfl rfl rfl)

theorem resetRestore_change (x : Restore) : Change d (d.resetRestore x) :=
  .after (endRestore_change _ _ _ _) (.same rfl)

theorem handOverAll_change (ls : List (List Notice)) : Change d (d.handOverAll ls) := by
  unfold Device.handOverAll
  extract_lets n d1
  have h : Change d d1 := Change.foldl _ _ (fun d x => queueNotice_change d x) _
  exact h.trans (.same rfl)

theorem endWork_change : Change d d.endWork := by
  unfold Device.endWork
  have hf : ∀ f ∈ d.resetEnds, ∀ d, Change d (f d) := by
    intro f hf d'
    rcases List.mem_append.1 hf with h | h <;> obtain ⟨e, -, rfl⟩ := List.mem_map.1 h
    · exact resetCut_change d' e
    · exact abortTxn_change d' e
  have run : ∀ (l : List (Device → Device)) (d : Device), (∀ f ∈ l, ∀ d, Change d (f d)) →
      Change d (l.foldl (fun d f => f d) d) := by
    intro l
    induction l with
    | nil => exact fun d _ => .refl d
    | cons f l ih => exact fun d h => (h f (by simp) d).trans (ih _ fun g hg => h g (by simp [hg]))
  refine .after (run _ _ fun f h => hf f ((openOrder_perm _ _ _).mem_iff.1 h)) (.same rfl)

theorem clearWork_change : Change d d.clearWork := by
  unfold Device.clearWork
  extract_lets d2 d3 _ _ d4 d5 d6 _ d7
  have h1 : Change d d2 := endWork_change d
  have h3 : Change d2 d3 := Change.foldl _ _ (fun d e => abortSlot_change d e) _
  clear_value d2 d3
  have h4 : Change d3 d4 := by
    refine Change.after (b := d3.quarantineBusy.withdrawAll) ?_ (.after (withdrawAll_change _) (quarantineBusy_change _))
    exact .one (.requests d3.quarantineBusy.withdrawAll.core { d3.quarantineBusy.withdrawAll.pool with streak := 0 }
      ⟨rfl, rfl, .inr rfl, fun _ h => .inl h, fun _ h => .inl h, fun _ h => .inl h⟩)
  clear_value d4
  have h5 : Change d4 d5 := resetPending_change _
  clear_value d5
  have h6 : Change d5 d6 := Change.foldl _ _ (fun d x => resetRestore_change d x) _
  clear_value d6
  have h7 : Change d6 d7 := .same rfl
  have h : Change d d7 := ((((h1.trans h3).trans h4).trans h5).trans h6).trans h7
  split
  · exact h.trans (closePass_change _ _ _ _)
  · exact h

theorem pathResetCommand_change (p : PortId) (tag : Nat) : Change d (d.pathResetCommand p tag).1 := by
  unfold Device.pathResetCommand
  split
  · exact .same (core_denyEffect _ _ _ _)
  · unfold Device.resetPath
    dsimp only
    exact .after (.same (core_completeReset _))
      (.after (.same rfl) (.after (handOverAll_change _ _) (clearWork_change _)))

/-! ### The commands -/

/-- A command whose meaning is a Change: not one that moves the calendar by the clock, loads limits, usage, roles or
links, releases usage, takes notices, sets up the area or a volume, loses the pool, or resets. -/
def ordinary : Instr → Bool
  | .release .. | .serverLinkUp _ | .serverLinkDown _ | .poolLinkDown | .poolLinkUp | .secondTick | .portSet .. | .timeSet ..
  | .accountLoad .. | .groupLoad .. | .preserveArea .. | .volumeDefine .. | .noticeRead .. | .resetAssert
  | .resetRelease _ => false
  | _ => true

/-- The meaning of an ordinary command changes the part only by single changes. -/
theorem exec_change {i : Instr} {s t : State} (hi : ordinary i = true) (h : exec i s = .next t) :
    Change s.dev t.dev := by
  cases i with
  | read p hd =>
    simp only [exec, execRead] at h
    refine event_change h (onUpPort_change _ _ _ ?_)
    split
    · exact .same rfl
    · exact acceptRead_change _ _ _ (dataRefusal_none _ (by assumption))
  | write p hd payload =>
    simp only [exec, execWrite] at h
    refine event_change h (onUpPort_change _ _ _ ?_)
    split
    · exact .same rfl
    · exact .after (settle_change _) (acceptWrite_change _ _ _ _)
  | mgmtFrame p hd name area =>
    simp only [exec, execMgmtFrame] at h
    refine event_change h (onUpPort_change _ _ _ ?_)
    split <;> exact .same rfl
  | runtFrame p bs =>
    simp only [exec, execRuntFrame] at h
    refine event_change h ?_
    exact .refl _
  | unknownCommand p tag =>
    simp only [exec, execUnknownCommand] at h
    refine event_change h ?_
    exact takeUnknown_change _ _ _
  | poolDone t st data =>
    simp only [exec, execPoolDone] at h
    refine event_change h ?_
    exact .after (settle_change _) (donePool_change _ _ _ _)
  | poolTimeout t =>
    simp only [exec, execPoolTimeout] at h
    refine event_change h ?_
    exact .after (settle_change _) (timeoutPool_change _ _)
  | quarantineEnd t =>
    simp only [exec, execQuarantineEnd] at h
    refine event_change h ?_
    exact endQuarantine_change _ _
  | graceExpiry a =>
    simp only [exec, execGraceExpiry] at h
    refine event_change h ?_
    exact graceExpiry_change _ _
  | quarterSecondTick =>
    simp only [exec, execQuarterSecondTick] at h
    refine event_change h ?_
    exact .after (settle_change _) (.same rfl)
  | livenessExpiry p =>
    simp only [exec, execLivenessExpiry] at h
    refine event_change h ?_
    exact .after (settle_change _) (livenessExpiry_change _ _)
  | mapFillEnd v =>
    simp only [exec, execMapFillEnd] at h
    refine event_change h ?_
    exact endFill_change _ _
  | removalEnd v =>
    simp only [exec, execRemovalEnd] at h
    refine event_change h ?_
    split
    · exact settle_change (_, _)
    · exact .refl _
  | cutCompletion v =>
    simp only [exec, execCutCompletion] at h
    refine event_change h ?_
    split
    · exact settle_change (_, _)
    · exact .refl _
  | drainTimeout v =>
    simp only [exec, execDrainTimeout] at h
    refine event_change h ?_
    exact .after (settle_change _) (drainTimeout_change _ _)
  | sweepVisit v =>
    simp only [exec, execSweepVisit] at h
    refine event_change h ?_
    exact .after (settle_change _) (sweepVisit_change _ _)
  | retirementEnd v =>
    simp only [exec, execRetirementEnd] at h
    refine event_change h ?_
    exact .after (settle_change _) (endRetirement_change _ _)
  | retryDue k =>
    simp only [exec, execRetryDue] at h
    refine event_change h ?_
    exact .after (settle_change _) (retryDue_change _ _)
  | passStart =>
    simp only [exec, execPassStart] at h
    refine event_change h ?_
    exact .after (settle_change _) (passStart_change _)
  | grainMakeReady =>
    simp only [exec, execGrainMakeReady] at h
    refine event_change h ?_
    exact .after (settle_change _) (makeReady_change _)
  | placementEnd k =>
    simp only [exec, execPlacementEnd] at h
    refine event_change h ?_
    exact .after (settle_change _) (placeGrain_change _ _)
  | transmissionEnd =>
    simp only [exec, execTransmissionEnd] at h
    refine event_change h ?_
    exact .after (settle_change _) (endTransmission_change _)
  | batchIdleClose =>
    simp only [exec, execBatchIdleClose] at h
    refine event_change h ?_
    exact .after (settle_change _) (idleClose_change _)
  | ackTimeout q =>
    simp only [exec, execAckTimeout] at h
    refine event_change h ?_
    exact .after (settle_change _) (ackExpiry_change _ _)
  | sweepEnd =>
    simp only [exec, execSweepEnd] at h
    refine event_change h ?_
    exact .after (settle_change _) (endSweep_change _)
  | drainEnd =>
    simp only [exec, execDrainEnd] at h
    refine event_change h ?_
    exact .after (settle_change _) (drainEnd_change _)
  | passEndTimeout =>
    simp only [exec, execPassEndTimeout] at h
    refine event_change h ?_
    exact .after (settle_change _) (passEndExpiry_change _)
  | peerStatus r =>
    simp only [exec, execPeerStatus] at h
    refine event_change h ?_
    exact .after (settle_change _) (peerStatus_change _ _)
  | ack q =>
    simp only [exec, execAck] at h
    refine event_change h ?_
    exact .after (settle_change _) (takeAck_change _ _)
  | refuse q r =>
    simp only [exec, execRefuse] at h
    refine event_change h ?_
    exact .after (settle_change _) (takeRefuse_change _ _ _)
  | passAck a n =>
    simp only [exec, execPassAck] at h
    refine event_change h ?_
    exact .after (settle_change _) (takePassAck_change _ _ _)
  | attentionFromPeer c =>
    simp only [exec, execAttentionFromPeer] at h
    refine event_change h ?_
    exact takeAttention_change _ _
  | unreadablePeerFrame bs =>
    simp only [exec, execUnreadablePeerFrame] at h
    refine event_change h ?_
    exact .refl _
  | offsiteLinkUp =>
    simp only [exec, execOffsiteLinkUp] at h
    refine event_change h ?_
    split
    · exact .same rfl
    · exact .refl _
  | offsiteLinkDown =>
    simp only [exec, execOffsiteLinkDown] at h
    refine event_change h ?_
    exact loseOffsite_change _
  | silenceTimeout =>
    simp only [exec, execSilenceTimeout] at h
    refine event_change h ?_
    exact silence_change _
  | identify p tag =>
    simp only [exec, execIdentify] at h
    refine event_change h ?_
    exact takeNow_change _ _ _ _ _ fun d _ => .same (core_reply _ _ _ _ _ _)
  | keepalive p tag =>
    simp only [exec, execKeepalive] at h
    refine event_change h ?_
    exact takeNow_change _ _ _ _ _ fun d _ => keepalive_change d _ _
  | portRead p tag =>
    simp only [exec, execPortRead] at h
    refine event_change h ?_
    exact takeNow_change _ _ _ _ _ fun d _ => .same (core_reply _ _ _ _ _ _)
  | fence p tag =>
    simp only [exec, execFence] at h
    refine event_change h ?_
    exact takeThen_change _ _ _ _ _ fun d a => fenceCommand_change d _ _ a
  | unfence p tag =>
    simp only [exec, execUnfence] at h
    refine event_change h ?_
    exact takeNow_change _ _ _ _ _ fun d a => unfenceCommand_change d _ _ a
  | pathReset p tag =>
    simp only [exec, execPathReset] at h
    refine event_change h ?_
    exact takeThen_change _ _ _ _ _ fun d _ => pathResetCommand_change d _ _
  | timeRead p tag =>
    simp only [exec, execTimeRead] at h
    refine event_change h ?_
    exact takeNow_change _ _ _ _ _ fun d _ => .same (core_reply _ _ _ _ _ _)
  | scheduleSet p tag =>
    simp only [exec, execScheduleSet] at h
    refine event_change h ?_
    exact takeNow_change _ _ _ _ _ fun d a => scheduleSet_change d _ _ a
  | scheduleRead p tag =>
    simp only [exec, execScheduleRead] at h
    refine event_change h ?_
    exact takeNow_change _ _ _ _ _ fun d _ => .same (core_reply _ _ _ _ _ _)
  | accountRead p tag =>
    simp only [exec, execAccountRead] at h
    refine event_change h ?_
    exact takeNow_change _ _ _ _ _ fun d a => accountRead_change d _ _ a
  | groupRead p tag =>
    simp only [exec, execGroupRead] at h
    refine event_change h ?_
    exact takeNow_change _ _ _ _ _ fun d a => groupRead_change d _ _ a
  | volumeRead p tag =>
    simp only [exec, execVolumeRead] at h
    refine event_change h ?_
    exact takeNow_change _ _ _ _ _ fun d a => volumeRead_change d _ _ a
  | volumeRemove p tag =>
    simp only [exec, execVolumeRemove] at h
    refine event_change h ?_
    exact takeThen_change _ _ _ _ _ fun d a => volumeRemove_change d _ _ a
  | reserveSet p tag =>
    simp only [exec, execReserveSet] at h
    refine event_change h ?_
    exact takeThen_change _ _ _ _ _ fun d a => reserveSet_change d _ _ a
  | cut p tag =>
    simp only [exec, execCut] at h
    refine event_change h ?_
    exact takeThen_change _ _ _ _ _ fun d a => cutCommand_change d _ _ a
  | retire p tag =>
    simp only [exec, execRetire] at h
    refine event_change h ?_
    exact takeNow_change _ _ _ _ _ fun d a => retireCommand_change d _ _ a
  | snapshotList p tag =>
    simp only [exec, execSnapshotList] at h
    refine event_change h ?_
    exact takeNow_change _ _ _ _ _ fun d a => snapshotList_change d _ _ a
  | restore p tag =>
    simp only [exec, execRestore] at h
    refine event_change h (.after (settle_change _) ?_)
    exact take_ind (fun (x : Effect) => Change _ x.1) _ p tag _ _ _ _ (fun _ hd => .same hd)
      fun d' a hd => .of_same hd (restoreCommand_change d' _ _ a)
  | restoreStatus p tag =>
    simp only [exec, execRestoreStatus] at h
    refine event_change h ?_
    exact takeNow_change _ _ _ _ _ fun d a => restoreStatus_change d _ _ a
  | restoreCancel p tag =>
    simp only [exec, execRestoreCancel] at h
    refine event_change h ?_
    exact takeThen_change _ _ _ _ _ fun d a => restoreCancel_change d _ _ a
  | enrol p tag =>
    simp only [exec, execEnrol] at h
    refine event_change h ?_
    exact takeNow_change _ _ _ _ _ fun d a => enrol_change d _ _ a
  | duplicateNow p tag =>
    simp only [exec, execDuplicateNow] at h
    refine event_change h ?_
    exact takeThen_change _ _ _ _ _ fun d a => duplicateNow_change d _ _ a
  | pacingSet p tag =>
    simp only [exec, execPacingSet] at h
    refine event_change h ?_
    exact takeThen_change _ _ _ _ _ fun d a => pacingSet_change d _ _ a
  | stagingSet p tag =>
    simp only [exec, execStagingSet] at h
    refine event_change h ?_
    exact takeNow_change _ _ _ _ _ fun d a => stagingSet_change d _ _ a
  | passStatus p tag =>
    simp only [exec, execPassStatus] at h
    refine event_change h ?_
    exact takeNow_change _ _ _ _ _ fun d _ => .same (core_reply _ _ _ _ _ _)
  | passStop p tag =>
    simp only [exec, execPassStop] at h
    refine event_change h ?_
    exact takeThen_change _ _ _ _ _ fun d _ => passStop_change d _ _
  | signalPeer p tag =>
    simp only [exec, execSignalPeer] at h
    refine event_change h ?_
    exact takeThen_change _ _ _ _ _ fun d a => signalPeer_change d _ _ a
  | malformedFrame p k tag =>
    simp only [exec, execMalformedFrame] at h
    refine event_change h ?_
    exact onUpPort_change _ _ _ (.same rfl)
  | release => cases hi
  | serverLinkUp => cases hi
  | serverLinkDown => cases hi
  | poolLinkDown => cases hi
  | poolLinkUp => cases hi
  | secondTick => cases hi
  | portSet => cases hi
  | timeSet => cases hi
  | accountLoad => cases hi
  | groupLoad => cases hi
  | preserveArea => cases hi
  | volumeDefine => cases hi
  | noticeRead => cases hi
  | resetAssert => cases hi
  | resetRelease => cases hi

end Sys2Proof.Machine
end

