-- ==== Sys2Proof/Laws/State.lean ====
section
/-! SUPPORT. One lemma for each field that a record update leaves, and what the shared operations of the management
unit and the port interface come to, said once. -/

namespace Sys2Proof.Machine

variable (d : Device)

/-! ### Device.setAccount -/

@[simp] theorem setAccount_resetLow (a : Nat) (x : Account) : (d.setAccount a x).resetLow = d.resetLow := rfl
@[simp] theorem setAccount_ports (a : Nat) (x : Account) : (d.setAccount a x).ports = d.ports := rfl
@[simp] theorem setAccount_txns (a : Nat) (x : Account) : (d.setAccount a x).txns = d.txns := rfl
@[simp] theorem setAccount_pool (a : Nat) (x : Account) : (d.setAccount a x).pool = d.pool := rfl
@[simp] theorem setAccount_groups (a : Nat) (x : Account) : (d.setAccount a x).groups = d.groups := rfl
@[simp] theorem setAccount_clock (a : Nat) (x : Account) : (d.setAccount a x).clock = d.clock := rfl
@[simp] theorem setAccount_area (a : Nat) (x : Account) : (d.setAccount a x).area = d.area := rfl
@[simp] theorem setAccount_volumes (a : Nat) (x : Account) : (d.setAccount a x).volumes = d.volumes := rfl
@[simp] theorem setAccount_pres (a : Nat) (x : Account) : (d.setAccount a x).pres = d.pres := rfl
@[simp] theorem setAccount_cutHold (a : Nat) (x : Account) : (d.setAccount a x).cutHold = d.cutHold := rfl
@[simp] theorem setAccount_copy (a : Nat) (x : Account) : (d.setAccount a x).copy = d.copy := rfl
@[simp] theorem setAccount_dup (a : Nat) (x : Account) : (d.setAccount a x).dup = d.dup := rfl
@[simp] theorem setAccount_mgmt (a : Nat) (x : Account) : (d.setAccount a x).mgmt = d.mgmt := rfl
@[simp] theorem setAccount_out (a : Nat) (x : Account) : (d.setAccount a x).out = d.out := rfl
@[simp] theorem setAccount_freeIndex (a : Nat) (x : Account) : (d.setAccount a x).freeIndex = d.freeIndex := rfl

/-! ### Device.setGroup -/

@[simp] theorem setGroup_resetLow (g : Nat) (x : Group) : (d.setGroup g x).resetLow = d.resetLow := rfl
@[simp] theorem setGroup_ports (g : Nat) (x : Group) : (d.setGroup g x).ports = d.ports := rfl
@[simp] theorem setGroup_txns (g : Nat) (x : Group) : (d.setGroup g x).txns = d.txns := rfl
@[simp] theorem setGroup_pool (g : Nat) (x : Group) : (d.setGroup g x).pool = d.pool := rfl
@[simp] theorem setGroup_accounts (g : Nat) (x : Group) : (d.setGroup g x).accounts = d.accounts := rfl
@[simp] theorem setGroup_clock (g : Nat) (x : Group) : (d.setGroup g x).clock = d.clock := rfl
@[simp] theorem setGroup_area (g : Nat) (x : Group) : (d.setGroup g x).area = d.area := rfl
@[simp] theorem setGroup_volumes (g : Nat) (x : Group) : (d.setGroup g x).volumes = d.volumes := rfl
@[simp] theorem setGroup_pres (g : Nat) (x : Group) : (d.setGroup g x).pres = d.pres := rfl
@[simp] theorem setGroup_cutHold (g : Nat) (x : Group) : (d.setGroup g x).cutHold = d.cutHold := rfl
@[simp] theorem setGroup_copy (g : Nat) (x : Group) : (d.setGroup g x).copy = d.copy := rfl
@[simp] theorem setGroup_dup (g : Nat) (x : Group) : (d.setGroup g x).dup = d.dup := rfl
@[simp] theorem setGroup_mgmt (g : Nat) (x : Group) : (d.setGroup g x).mgmt = d.mgmt := rfl
@[simp] theorem setGroup_out (g : Nat) (x : Group) : (d.setGroup g x).out = d.out := rfl
@[simp] theorem setGroup_freeIndex (g : Nat) (x : Group) : (d.setGroup g x).freeIndex = d.freeIndex := rfl

/-! ### Device.setVolume -/

@[simp] theorem setVolume_resetLow (v : Nat) (x : Volume) : (d.setVolume v x).resetLow = d.resetLow := rfl
@[simp] theorem setVolume_ports (v : Nat) (x : Volume) : (d.setVolume v x).ports = d.ports := rfl
@[simp] theorem setVolume_txns (v : Nat) (x : Volume) : (d.setVolume v x).txns = d.txns := rfl
@[simp] theorem setVolume_pool (v : Nat) (x : Volume) : (d.setVolume v x).pool = d.pool := rfl
@[simp] theorem setVolume_accounts (v : Nat) (x : Volume) : (d.setVolume v x).accounts = d.accounts := rfl
@[simp] theorem setVolume_groups (v : Nat) (x : Volume) : (d.setVolume v x).groups = d.groups := rfl
@[simp] theorem setVolume_clock (v : Nat) (x : Volume) : (d.setVolume v x).clock = d.clock := rfl
@[simp] theorem setVolume_area (v : Nat) (x : Volume) : (d.setVolume v x).area = d.area := rfl
@[simp] theorem setVolume_pres (v : Nat) (x : Volume) : (d.setVolume v x).pres = d.pres := rfl
@[simp] theorem setVolume_cutHold (v : Nat) (x : Volume) : (d.setVolume v x).cutHold = d.cutHold := rfl
@[simp] theorem setVolume_copy (v : Nat) (x : Volume) : (d.setVolume v x).copy = d.copy := rfl
@[simp] theorem setVolume_dup (v : Nat) (x : Volume) : (d.setVolume v x).dup = d.dup := rfl
@[simp] theorem setVolume_mgmt (v : Nat) (x : Volume) : (d.setVolume v x).mgmt = d.mgmt := rfl
@[simp] theorem setVolume_out (v : Nat) (x : Volume) : (d.setVolume v x).out = d.out := rfl
@[simp] theorem setVolume_freeIndex (v : Nat) (x : Volume) : (d.setVolume v x).freeIndex = d.freeIndex := rfl

/-! ### Device.setTxn -/

@[simp] theorem setTxn_resetLow (p : PortId) (tag : Nat) (t : Txn) : (d.setTxn p tag t).resetLow = d.resetLow := rfl
@[simp] theorem setTxn_ports (p : PortId) (tag : Nat) (t : Txn) : (d.setTxn p tag t).ports = d.ports := rfl
@[simp] theorem setTxn_pool (p : PortId) (tag : Nat) (t : Txn) : (d.setTxn p tag t).pool = d.pool := rfl
@[simp] theorem setTxn_accounts (p : PortId) (tag : Nat) (t : Txn) : (d.setTxn p tag t).accounts = d.accounts := rfl
@[simp] theorem setTxn_groups (p : PortId) (tag : Nat) (t : Txn) : (d.setTxn p tag t).groups = d.groups := rfl
@[simp] theorem setTxn_clock (p : PortId) (tag : Nat) (t : Txn) : (d.setTxn p tag t).clock = d.clock := rfl
@[simp] theorem setTxn_area (p : PortId) (tag : Nat) (t : Txn) : (d.setTxn p tag t).area = d.area := rfl
@[simp] theorem setTxn_volumes (p : PortId) (tag : Nat) (t : Txn) : (d.setTxn p tag t).volumes = d.volumes := rfl
@[simp] theorem setTxn_pres (p : PortId) (tag : Nat) (t : Txn) : (d.setTxn p tag t).pres = d.pres := rfl
@[simp] theorem setTxn_cutHold (p : PortId) (tag : Nat) (t : Txn) : (d.setTxn p tag t).cutHold = d.cutHold := rfl
@[simp] theorem setTxn_copy (p : PortId) (tag : Nat) (t : Txn) : (d.setTxn p tag t).copy = d.copy := rfl
@[simp] theorem setTxn_dup (p : PortId) (tag : Nat) (t : Txn) : (d.setTxn p tag t).dup = d.dup := rfl
@[simp] theorem setTxn_mgmt (p : PortId) (tag : Nat) (t : Txn) : (d.setTxn p tag t).mgmt = d.mgmt := rfl
@[simp] theorem setTxn_out (p : PortId) (tag : Nat) (t : Txn) : (d.setTxn p tag t).out = d.out := rfl
@[simp] theorem setTxn_freeIndex (p : PortId) (tag : Nat) (t : Txn) : (d.setTxn p tag t).freeIndex = d.freeIndex := rfl

/-! ### Device.freeTag -/

@[simp] theorem freeTag_resetLow (p : PortId) (tag : Nat) : (d.freeTag p tag).resetLow = d.resetLow := rfl
@[simp] theorem freeTag_ports (p : PortId) (tag : Nat) : (d.freeTag p tag).ports = d.ports := rfl
@[simp] theorem freeTag_pool (p : PortId) (tag : Nat) : (d.freeTag p tag).pool = d.pool := rfl
@[simp] theorem freeTag_accounts (p : PortId) (tag : Nat) : (d.freeTag p tag).accounts = d.accounts := rfl
@[simp] theorem freeTag_groups (p : PortId) (tag : Nat) : (d.freeTag p tag).groups = d.groups := rfl
@[simp] theorem freeTag_clock (p : PortId) (tag : Nat) : (d.freeTag p tag).clock = d.clock := rfl
@[simp] theorem freeTag_area (p : PortId) (tag : Nat) : (d.freeTag p tag).area = d.area := rfl
@[simp] theorem freeTag_volumes (p : PortId) (tag : Nat) : (d.freeTag p tag).volumes = d.volumes := rfl
@[simp] theorem freeTag_pres (p : PortId) (tag : Nat) : (d.freeTag p tag).pres = d.pres := rfl
@[simp] theorem freeTag_cutHold (p : PortId) (tag : Nat) : (d.freeTag p tag).cutHold = d.cutHold := rfl
@[simp] theorem freeTag_copy (p : PortId) (tag : Nat) : (d.freeTag p tag).copy = d.copy := rfl
@[simp] theorem freeTag_dup (p : PortId) (tag : Nat) : (d.freeTag p tag).dup = d.dup := rfl
@[simp] theorem freeTag_mgmt (p : PortId) (tag : Nat) : (d.freeTag p tag).mgmt = d.mgmt := rfl
@[simp] theorem freeTag_out (p : PortId) (tag : Nat) : (d.freeTag p tag).out = d.out := rfl
@[simp] theorem freeTag_freeIndex (p : PortId) (tag : Nat) : (d.freeTag p tag).freeIndex = d.freeIndex := rfl

/-! ### Device.taken -/

@[simp] theorem taken_resetLow (p : PortId) (tag : Nat) (t : Txn) : (d.taken p tag t).resetLow = d.resetLow := rfl
@[simp] theorem taken_ports (p : PortId) (tag : Nat) (t : Txn) : (d.taken p tag t).ports = d.ports := rfl
@[simp] theorem taken_pool (p : PortId) (tag : Nat) (t : Txn) : (d.taken p tag t).pool = d.pool := rfl
@[simp] theorem taken_accounts (p : PortId) (tag : Nat) (t : Txn) : (d.taken p tag t).accounts = d.accounts := rfl
@[simp] theorem taken_groups (p : PortId) (tag : Nat) (t : Txn) : (d.taken p tag t).groups = d.groups := rfl
@[simp] theorem taken_clock (p : PortId) (tag : Nat) (t : Txn) : (d.taken p tag t).clock = d.clock := rfl
@[simp] theorem taken_area (p : PortId) (tag : Nat) (t : Txn) : (d.taken p tag t).area = d.area := rfl
@[simp] theorem taken_volumes (p : PortId) (tag : Nat) (t : Txn) : (d.taken p tag t).volumes = d.volumes := rfl
@[simp] theorem taken_pres (p : PortId) (tag : Nat) (t : Txn) : (d.taken p tag t).pres = d.pres := rfl
@[simp] theorem taken_cutHold (p : PortId) (tag : Nat) (t : Txn) : (d.taken p tag t).cutHold = d.cutHold := rfl
@[simp] theorem taken_copy (p : PortId) (tag : Nat) (t : Txn) : (d.taken p tag t).copy = d.copy := rfl
@[simp] theorem taken_dup (p : PortId) (tag : Nat) (t : Txn) : (d.taken p tag t).dup = d.dup := rfl
@[simp] theorem taken_mgmt (p : PortId) (tag : Nat) (t : Txn) : (d.taken p tag t).mgmt = d.mgmt := rfl
@[simp] theorem taken_out (p : PortId) (tag : Nat) (t : Txn) : (d.taken p tag t).out = d.out := rfl
@[simp] theorem taken_freeIndex (p : PortId) (tag : Nat) (t : Txn) : (d.taken p tag t).freeIndex = d.freeIndex := rfl

/-! ### Device.setPort -/

@[simp] theorem setPort_resetLow (p : PortId) (x : Port) : (d.setPort p x).resetLow = d.resetLow := rfl
@[simp] theorem setPort_txns (p : PortId) (x : Port) : (d.setPort p x).txns = d.txns := rfl
@[simp] theorem setPort_pool (p : PortId) (x : Port) : (d.setPort p x).pool = d.pool := rfl
@[simp] theorem setPort_accounts (p : PortId) (x : Port) : (d.setPort p x).accounts = d.accounts := rfl
@[simp] theorem setPort_groups (p : PortId) (x : Port) : (d.setPort p x).groups = d.groups := rfl
@[simp] theorem setPort_clock (p : PortId) (x : Port) : (d.setPort p x).clock = d.clock := rfl
@[simp] theorem setPort_area (p : PortId) (x : Port) : (d.setPort p x).area = d.area := rfl
@[simp] theorem setPort_volumes (p : PortId) (x : Port) : (d.setPort p x).volumes = d.volumes := rfl
@[simp] theorem setPort_pres (p : PortId) (x : Port) : (d.setPort p x).pres = d.pres := rfl
@[simp] theorem setPort_cutHold (p : PortId) (x : Port) : (d.setPort p x).cutHold = d.cutHold := rfl
@[simp] theorem setPort_copy (p : PortId) (x : Port) : (d.setPort p x).copy = d.copy := rfl
@[simp] theorem setPort_dup (p : PortId) (x : Port) : (d.setPort p x).dup = d.dup := rfl
@[simp] theorem setPort_mgmt (p : PortId) (x : Port) : (d.setPort p x).mgmt = d.mgmt := rfl
@[simp] theorem setPort_out (p : PortId) (x : Port) : (d.setPort p x).out = d.out := rfl
@[simp] theorem setPort_freeIndex (p : PortId) (x : Port) : (d.setPort p x).freeIndex = d.freeIndex := rfl

/-! ### Device.setEntry -/

@[simp] theorem setEntry_resetLow (x : Pending) : (d.setEntry x).resetLow = d.resetLow := rfl
@[simp] theorem setEntry_ports (x : Pending) : (d.setEntry x).ports = d.ports := rfl
@[simp] theorem setEntry_txns (x : Pending) : (d.setEntry x).txns = d.txns := rfl
@[simp] theorem setEntry_pool (x : Pending) : (d.setEntry x).pool = d.pool := rfl
@[simp] theorem setEntry_accounts (x : Pending) : (d.setEntry x).accounts = d.accounts := rfl
@[simp] theorem setEntry_groups (x : Pending) : (d.setEntry x).groups = d.groups := rfl
@[simp] theorem setEntry_clock (x : Pending) : (d.setEntry x).clock = d.clock := rfl
@[simp] theorem setEntry_area (x : Pending) : (d.setEntry x).area = d.area := rfl
@[simp] theorem setEntry_volumes (x : Pending) : (d.setEntry x).volumes = d.volumes := rfl
@[simp] theorem setEntry_cutHold (x : Pending) : (d.setEntry x).cutHold = d.cutHold := rfl
@[simp] theorem setEntry_copy (x : Pending) : (d.setEntry x).copy = d.copy := rfl
@[simp] theorem setEntry_dup (x : Pending) : (d.setEntry x).dup = d.dup := rfl
@[simp] theorem setEntry_mgmt (x : Pending) : (d.setEntry x).mgmt = d.mgmt := rfl
@[simp] theorem setEntry_out (x : Pending) : (d.setEntry x).out = d.out := rfl
@[simp] theorem setEntry_freeIndex (x : Pending) : (d.setEntry x).freeIndex = d.freeIndex := rfl

/-! ### Device.removeEntry -/

@[simp] theorem removeEntry_resetLow (v g : Nat) : (d.removeEntry v g).resetLow = d.resetLow := rfl
@[simp] theorem removeEntry_ports (v g : Nat) : (d.removeEntry v g).ports = d.ports := rfl
@[simp] theorem removeEntry_txns (v g : Nat) : (d.removeEntry v g).txns = d.txns := rfl
@[simp] theorem removeEntry_pool (v g : Nat) : (d.removeEntry v g).pool = d.pool := rfl
@[simp] theorem removeEntry_accounts (v g : Nat) : (d.removeEntry v g).accounts = d.accounts := rfl
@[simp] theorem removeEntry_groups (v g : Nat) : (d.removeEntry v g).groups = d.groups := rfl
@[simp] theorem removeEntry_clock (v g : Nat) : (d.removeEntry v g).clock = d.clock := rfl
@[simp] theorem removeEntry_area (v g : Nat) : (d.removeEntry v g).area = d.area := rfl
@[simp] theorem removeEntry_volumes (v g : Nat) : (d.removeEntry v g).volumes = d.volumes := rfl
@[simp] theorem removeEntry_cutHold (v g : Nat) : (d.removeEntry v g).cutHold = d.cutHold := rfl
@[simp] theorem removeEntry_copy (v g : Nat) : (d.removeEntry v g).copy = d.copy := rfl
@[simp] theorem removeEntry_dup (v g : Nat) : (d.removeEntry v g).dup = d.dup := rfl
@[simp] theorem removeEntry_mgmt (v g : Nat) : (d.removeEntry v g).mgmt = d.mgmt := rfl
@[simp] theorem removeEntry_out (v g : Nat) : (d.removeEntry v g).out = d.out := rfl
@[simp] theorem removeEntry_freeIndex (v g : Nat) : (d.removeEntry v g).freeIndex = d.freeIndex := rfl

/-! ### Device.setSlot -/

@[simp] theorem setSlot_resetLow (k : SlotId) (x : Option CopySlot) : (d.setSlot k x).resetLow = d.resetLow := rfl
@[simp] theorem setSlot_ports (k : SlotId) (x : Option CopySlot) : (d.setSlot k x).ports = d.ports := rfl
@[simp] theorem setSlot_txns (k : SlotId) (x : Option CopySlot) : (d.setSlot k x).txns = d.txns := rfl
@[simp] theorem setSlot_pool (k : SlotId) (x : Option CopySlot) : (d.setSlot k x).pool = d.pool := rfl
@[simp] theorem setSlot_accounts (k : SlotId) (x : Option CopySlot) : (d.setSlot k x).accounts = d.accounts := rfl
@[simp] theorem setSlot_groups (k : SlotId) (x : Option CopySlot) : (d.setSlot k x).groups = d.groups := rfl
@[simp] theorem setSlot_clock (k : SlotId) (x : Option CopySlot) : (d.setSlot k x).clock = d.clock := rfl
@[simp] theorem setSlot_area (k : SlotId) (x : Option CopySlot) : (d.setSlot k x).area = d.area := rfl
@[simp] theorem setSlot_volumes (k : SlotId) (x : Option CopySlot) : (d.setSlot k x).volumes = d.volumes := rfl
@[simp] theorem setSlot_pres (k : SlotId) (x : Option CopySlot) : (d.setSlot k x).pres = d.pres := rfl
@[simp] theorem setSlot_cutHold (k : SlotId) (x : Option CopySlot) : (d.setSlot k x).cutHold = d.cutHold := rfl
@[simp] theorem setSlot_dup (k : SlotId) (x : Option CopySlot) : (d.setSlot k x).dup = d.dup := rfl
@[simp] theorem setSlot_mgmt (k : SlotId) (x : Option CopySlot) : (d.setSlot k x).mgmt = d.mgmt := rfl
@[simp] theorem setSlot_out (k : SlotId) (x : Option CopySlot) : (d.setSlot k x).out = d.out := rfl
@[simp] theorem setSlot_freeIndex (k : SlotId) (x : Option CopySlot) : (d.setSlot k x).freeIndex = d.freeIndex := rfl

/-! ### Device.onRestore -/

@[simp] theorem onRestore_resetLow (id : Nat) (f : Restore → Restore) : (d.onRestore id f).resetLow = d.resetLow := rfl
@[simp] theorem onRestore_ports (id : Nat) (f : Restore → Restore) : (d.onRestore id f).ports = d.ports := rfl
@[simp] theorem onRestore_txns (id : Nat) (f : Restore → Restore) : (d.onRestore id f).txns = d.txns := rfl
@[simp] theorem onRestore_pool (id : Nat) (f : Restore → Restore) : (d.onRestore id f).pool = d.pool := rfl
@[simp] theorem onRestore_accounts (id : Nat) (f : Restore → Restore) : (d.onRestore id f).accounts = d.accounts := rfl
@[simp] theorem onRestore_groups (id : Nat) (f : Restore → Restore) : (d.onRestore id f).groups = d.groups := rfl
@[simp] theorem onRestore_clock (id : Nat) (f : Restore → Restore) : (d.onRestore id f).clock = d.clock := rfl
@[simp] theorem onRestore_area (id : Nat) (f : Restore → Restore) : (d.onRestore id f).area = d.area := rfl
@[simp] theorem onRestore_volumes (id : Nat) (f : Restore → Restore) : (d.onRestore id f).volumes = d.volumes := rfl
@[simp] theorem onRestore_pres (id : Nat) (f : Restore → Restore) : (d.onRestore id f).pres = d.pres := rfl
@[simp] theorem onRestore_cutHold (id : Nat) (f : Restore → Restore) : (d.onRestore id f).cutHold = d.cutHold := rfl
@[simp] theorem onRestore_dup (id : Nat) (f : Restore → Restore) : (d.onRestore id f).dup = d.dup := rfl
@[simp] theorem onRestore_mgmt (id : Nat) (f : Restore → Restore) : (d.onRestore id f).mgmt = d.mgmt := rfl
@[simp] theorem onRestore_out (id : Nat) (f : Restore → Restore) : (d.onRestore id f).out = d.out := rfl
@[simp] theorem onRestore_freeIndex (id : Nat) (f : Restore → Restore) :
    (d.onRestore id f).freeIndex = d.freeIndex := rfl

/-! ### Device.setTag -/

@[simp] theorem setTag_resetLow (t : PoolTagId) (x : PoolTag) : (d.setTag t x).resetLow = d.resetLow := rfl
@[simp] theorem setTag_ports (t : PoolTagId) (x : PoolTag) : (d.setTag t x).ports = d.ports := rfl
@[simp] theorem setTag_txns (t : PoolTagId) (x : PoolTag) : (d.setTag t x).txns = d.txns := rfl
@[simp] theorem setTag_accounts (t : PoolTagId) (x : PoolTag) : (d.setTag t x).accounts = d.accounts := rfl
@[simp] theorem setTag_groups (t : PoolTagId) (x : PoolTag) : (d.setTag t x).groups = d.groups := rfl
@[simp] theorem setTag_clock (t : PoolTagId) (x : PoolTag) : (d.setTag t x).clock = d.clock := rfl
@[simp] theorem setTag_area (t : PoolTagId) (x : PoolTag) : (d.setTag t x).area = d.area := rfl
@[simp] theorem setTag_volumes (t : PoolTagId) (x : PoolTag) : (d.setTag t x).volumes = d.volumes := rfl
@[simp] theorem setTag_pres (t : PoolTagId) (x : PoolTag) : (d.setTag t x).pres = d.pres := rfl
@[simp] theorem setTag_cutHold (t : PoolTagId) (x : PoolTag) : (d.setTag t x).cutHold = d.cutHold := rfl
@[simp] theorem setTag_copy (t : PoolTagId) (x : PoolTag) : (d.setTag t x).copy = d.copy := rfl
@[simp] theorem setTag_dup (t : PoolTagId) (x : PoolTag) : (d.setTag t x).dup = d.dup := rfl
@[simp] theorem setTag_mgmt (t : PoolTagId) (x : PoolTag) : (d.setTag t x).mgmt = d.mgmt := rfl
@[simp] theorem setTag_out (t : PoolTagId) (x : PoolTag) : (d.setTag t x).out = d.out := rfl
@[simp] theorem setTag_freeIndex (t : PoolTagId) (x : PoolTag) : (d.setTag t x).freeIndex = d.freeIndex := rfl

/-! ### Device.onPass -/

@[simp] theorem onPass_resetLow (f : Pass → Pass) : (d.onPass f).resetLow = d.resetLow := rfl
@[simp] theorem onPass_ports (f : Pass → Pass) : (d.onPass f).ports = d.ports := rfl
@[simp] theorem onPass_txns (f : Pass → Pass) : (d.onPass f).txns = d.txns := rfl
@[simp] theorem onPass_pool (f : Pass → Pass) : (d.onPass f).pool = d.pool := rfl
@[simp] theorem onPass_accounts (f : Pass → Pass) : (d.onPass f).accounts = d.accounts := rfl
@[simp] theorem onPass_groups (f : Pass → Pass) : (d.onPass f).groups = d.groups := rfl
@[simp] theorem onPass_clock (f : Pass → Pass) : (d.onPass f).clock = d.clock := rfl
@[simp] theorem onPass_area (f : Pass → Pass) : (d.onPass f).area = d.area := rfl
@[simp] theorem onPass_volumes (f : Pass → Pass) : (d.onPass f).volumes = d.volumes := rfl
@[simp] theorem onPass_pres (f : Pass → Pass) : (d.onPass f).pres = d.pres := rfl
@[simp] theorem onPass_cutHold (f : Pass → Pass) : (d.onPass f).cutHold = d.cutHold := rfl
@[simp] theorem onPass_copy (f : Pass → Pass) : (d.onPass f).copy = d.copy := rfl
@[simp] theorem onPass_mgmt (f : Pass → Pass) : (d.onPass f).mgmt = d.mgmt := rfl
@[simp] theorem onPass_out (f : Pass → Pass) : (d.onPass f).out = d.out := rfl
@[simp] theorem onPass_freeIndex (f : Pass → Pass) : (d.onPass f).freeIndex = d.freeIndex := rfl

/-! ### Device.emit -/

@[simp] theorem emit_resetLow (o : Output) : (d.emit o).resetLow = d.resetLow := rfl
@[simp] theorem emit_ports (o : Output) : (d.emit o).ports = d.ports := rfl
@[simp] theorem emit_txns (o : Output) : (d.emit o).txns = d.txns := rfl
@[simp] theorem emit_pool (o : Output) : (d.emit o).pool = d.pool := rfl
@[simp] theorem emit_accounts (o : Output) : (d.emit o).accounts = d.accounts := rfl
@[simp] theorem emit_groups (o : Output) : (d.emit o).groups = d.groups := rfl
@[simp] theorem emit_clock (o : Output) : (d.emit o).clock = d.clock := rfl
@[simp] theorem emit_area (o : Output) : (d.emit o).area = d.area := rfl
@[simp] theorem emit_volumes (o : Output) : (d.emit o).volumes = d.volumes := rfl
@[simp] theorem emit_pres (o : Output) : (d.emit o).pres = d.pres := rfl
@[simp] theorem emit_cutHold (o : Output) : (d.emit o).cutHold = d.cutHold := rfl
@[simp] theorem emit_copy (o : Output) : (d.emit o).copy = d.copy := rfl
@[simp] theorem emit_dup (o : Output) : (d.emit o).dup = d.dup := rfl
@[simp] theorem emit_mgmt (o : Output) : (d.emit o).mgmt = d.mgmt := rfl
@[simp] theorem emit_freeIndex (o : Output) : (d.emit o).freeIndex = d.freeIndex := rfl

/-! ### Device.answered -/

@[simp] theorem answered_resetLow (p : PortId) (tag : Nat) (t : Txn) (st : MgmtStatus) (m : Option MgmtReason) (r : List Item) :
    (d.answered p tag t st m r).resetLow = d.resetLow := rfl
@[simp] theorem answered_ports (p : PortId) (tag : Nat) (t : Txn) (st : MgmtStatus) (m : Option MgmtReason) (r : List Item) :
    (d.answered p tag t st m r).ports = d.ports := rfl
@[simp] theorem answered_pool (p : PortId) (tag : Nat) (t : Txn) (st : MgmtStatus) (m : Option MgmtReason) (r : List Item) :
    (d.answered p tag t st m r).pool = d.pool := rfl
@[simp] theorem answered_accounts (p : PortId) (tag : Nat) (t : Txn) (st : MgmtStatus) (m : Option MgmtReason) (r : List Item) :
    (d.answered p tag t st m r).accounts = d.accounts := rfl
@[simp] theorem answered_groups (p : PortId) (tag : Nat) (t : Txn) (st : MgmtStatus) (m : Option MgmtReason) (r : List Item) :
    (d.answered p tag t st m r).groups = d.groups := rfl
@[simp] theorem answered_clock (p : PortId) (tag : Nat) (t : Txn) (st : MgmtStatus) (m : Option MgmtReason) (r : List Item) :
    (d.answered p tag t st m r).clock = d.clock := rfl
@[simp] theorem answered_area (p : PortId) (tag : Nat) (t : Txn) (st : MgmtStatus) (m : Option MgmtReason) (r : List Item) :
    (d.answered p tag t st m r).area = d.area := rfl
@[simp] theorem answered_volumes (p : PortId) (tag : Nat) (t : Txn) (st : MgmtStatus) (m : Option MgmtReason) (r : List Item) :
    (d.answered p tag t st m r).volumes = d.volumes := rfl
@[simp] theorem answered_pres (p : PortId) (tag : Nat) (t : Txn) (st : MgmtStatus) (m : Option MgmtReason) (r : List Item) :
    (d.answered p tag t st m r).pres = d.pres := rfl
@[simp] theorem answered_cutHold (p : PortId) (tag : Nat) (t : Txn) (st : MgmtStatus) (m : Option MgmtReason) (r : List Item) :
    (d.answered p tag t st m r).cutHold = d.cutHold := rfl
@[simp] theorem answered_copy (p : PortId) (tag : Nat) (t : Txn) (st : MgmtStatus) (m : Option MgmtReason) (r : List Item) :
    (d.answered p tag t st m r).copy = d.copy := rfl
@[simp] theorem answered_dup (p : PortId) (tag : Nat) (t : Txn) (st : MgmtStatus) (m : Option MgmtReason) (r : List Item) :
    (d.answered p tag t st m r).dup = d.dup := rfl
@[simp] theorem answered_mgmt (p : PortId) (tag : Nat) (t : Txn) (st : MgmtStatus) (m : Option MgmtReason) (r : List Item) :
    (d.answered p tag t st m r).mgmt = d.mgmt := rfl
@[simp] theorem answered_freeIndex (p : PortId) (tag : Nat) (t : Txn) (st : MgmtStatus) (m : Option MgmtReason) (r : List Item) :
    (d.answered p tag t st m r).freeIndex = d.freeIndex := rfl

/-! ### Device.ended -/

@[simp] theorem ended_resetLow (p : PortId) (tag : Nat) (t : Txn) (st : Status) (n : Nat) (b : List Byte) :
    (d.ended p tag t st n b).resetLow = d.resetLow := rfl
@[simp] theorem ended_ports (p : PortId) (tag : Nat) (t : Txn) (st : Status) (n : Nat) (b : List Byte) :
    (d.ended p tag t st n b).ports = d.ports := rfl
@[simp] theorem ended_pool (p : PortId) (tag : Nat) (t : Txn) (st : Status) (n : Nat) (b : List Byte) :
    (d.ended p tag t st n b).pool = d.pool := rfl
@[simp] theorem ended_accounts (p : PortId) (tag : Nat) (t : Txn) (st : Status) (n : Nat) (b : List Byte) :
    (d.ended p tag t st n b).accounts = d.accounts := rfl
@[simp] theorem ended_groups (p : PortId) (tag : Nat) (t : Txn) (st : Status) (n : Nat) (b : List Byte) :
    (d.ended p tag t st n b).groups = d.groups := rfl
@[simp] theorem ended_clock (p : PortId) (tag : Nat) (t : Txn) (st : Status) (n : Nat) (b : List Byte) :
    (d.ended p tag t st n b).clock = d.clock := rfl
@[simp] theorem ended_area (p : PortId) (tag : Nat) (t : Txn) (st : Status) (n : Nat) (b : List Byte) :
    (d.ended p tag t st n b).area = d.area := rfl
@[simp] theorem ended_volumes (p : PortId) (tag : Nat) (t : Txn) (st : Status) (n : Nat) (b : List Byte) :
    (d.ended p tag t st n b).volumes = d.volumes := rfl
@[simp] theorem ended_pres (p : PortId) (tag : Nat) (t : Txn) (st : Status) (n : Nat) (b : List Byte) :
    (d.ended p tag t st n b).pres = d.pres := rfl
@[simp] theorem ended_cutHold (p : PortId) (tag : Nat) (t : Txn) (st : Status) (n : Nat) (b : List Byte) :
    (d.ended p tag t st n b).cutHold = d.cutHold := rfl
@[simp] theorem ended_copy (p : PortId) (tag : Nat) (t : Txn) (st : Status) (n : Nat) (b : List Byte) :
    (d.ended p tag t st n b).copy = d.copy := rfl
@[simp] theorem ended_dup (p : PortId) (tag : Nat) (t : Txn) (st : Status) (n : Nat) (b : List Byte) :
    (d.ended p tag t st n b).dup = d.dup := rfl
@[simp] theorem ended_mgmt (p : PortId) (tag : Nat) (t : Txn) (st : Status) (n : Nat) (b : List Byte) :
    (d.ended p tag t st n b).mgmt = d.mgmt := rfl
@[simp] theorem ended_freeIndex (p : PortId) (tag : Nat) (t : Txn) (st : Status) (n : Nat) (b : List Byte) :
    (d.ended p tag t st n b).freeIndex = d.freeIndex := rfl

/-! ### Events -/

/-- An event while RESET# is high. -/
theorem event_high {s : State} (f : Device → Device) (h : s.dev.resetLow = false) :
    s.event f = .next { s with dev := f s.dev } := by
  simp [State.event, h]

/-- No command takes place while RESET# is low (R179). -/
theorem event_low {s : State} (f : Device → Device) (h : s.dev.resetLow = true) : s.event f = .next s := by
  simp [State.event, h]

/-- Every command but the two of the RESET# line is an event (R179). -/
theorem exec_event (i : Instr) (s : State) (h1 : i ≠ .resetAssert) (h2 : ∀ l, i ≠ .resetRelease l) :
    ∃ f : Device → Device, exec i s = s.event f := by
  cases i with
  | resetAssert => exact absurd rfl h1
  | resetRelease l => exact absurd rfl (h2 l)
  | _ =>
    simp only [exec, execRead, execWrite, execRelease, execMgmtFrame, execRuntFrame, execUnknownCommand, execServerLinkUp,
      execServerLinkDown, execPoolDone, execPoolTimeout, execQuarantineEnd, execPoolLinkDown, execPoolLinkUp,
      execSecondTick, execGraceExpiry, execQuarterSecondTick, execLivenessExpiry, execMapFillEnd, execRemovalEnd,
      execCutCompletion, execDrainTimeout, execSweepVisit, execRetirementEnd, execRetryDue, execPassStart,
      execGrainMakeReady, execPlacementEnd, execTransmissionEnd, execBatchIdleClose, execAckTimeout, execSweepEnd,
      execDrainEnd, execPassEndTimeout, execPeerStatus, execAck, execRefuse, execPassAck, execAttentionFromPeer,
      execUnreadablePeerFrame, execOffsiteLinkUp, execOffsiteLinkDown, execSilenceTimeout, execIdentify,
      execKeepalive, execPortSet, execPortRead, execFence, execUnfence, execPathReset, execTimeSet, execTimeRead,
      execScheduleSet, execScheduleRead, execAccountLoad, execAccountRead, execGroupLoad, execGroupRead,
      execPreserveArea, execVolumeDefine, execVolumeRead, execVolumeRemove, execReserveSet, execCut, execRetire,
      execSnapshotList, execRestore, execRestoreStatus, execRestoreCancel, execEnrol, execDuplicateNow,
      execPacingSet, execStagingSet, execPassStatus, execPassStop, execSignalPeer, execNoticeRead,
      execMalformedFrame]
    exact ⟨_, rfl⟩

/-! ### Ends of transactions -/

theorem notify_eq (k : NoticeKind) (x : Subject) (v : NoticeValue) : d.notify k x v = d.noted k x v := by
  unfold Device.notify Device.queueNotice Device.noted Management.joined
  by_cases h : d.mgmt.notices.length < 64
  · rw [if_pos h, if_pos h]; rfl
  · rw [if_neg h, if_neg h]

theorem endTxn_eq {p : PortId} {tag : Nat} {t : Txn} (h : d.txn? p tag = some t) (st : Status) (n : Nat)
    (data : List Byte) : d.endTxn p tag st n data = d.ended p tag t st n data := by
  unfold Device.endTxn Device.ended
  rw [h]
  dsimp only
  by_cases hm : t.owed = true ∧ (d.port p).link = .up
  · have : d.mayAnswer p t = true := by simp [Device.mayAnswer, hm]
    rw [if_pos this, if_pos hm]
    rfl
  · have : ¬ d.mayAnswer p t = true := by simpa [Device.mayAnswer] using hm
    rw [if_neg this, if_neg hm, List.append_nil]
    rfl

theorem reply_eq {p : PortId} {tag : Nat} {t : Txn} (h : d.txn? p tag = some t) (st : MgmtStatus)
    (m : Option MgmtReason) (r : List Item) : d.reply p tag st m r = d.answered p tag t st m r := by
  unfold Device.reply Device.answered Device.answerFrames
  rw [h]
  dsimp only
  by_cases hm : t.owed = true ∧ (d.port p).link = .up
  · have : d.mayAnswer p t = true := by simp [Device.mayAnswer, hm]
    rw [if_pos this, if_pos hm]
    rfl
  · have : ¬ d.mayAnswer p t = true := by simpa [Device.mayAnswer] using hm
    rw [if_neg this, if_neg hm, List.append_nil]
    rfl

/-- On an UP port a transaction whose answer is owed ends with its completion (R6). -/
theorem endTxn_up {p : PortId} {tag : Nat} {t : Txn} (h : d.txn? p tag = some t) (ho : t.owed = true)
    (hl : (d.port p).link = .up) (st : Status) (n : Nat) (data : List Byte) :
    d.endTxn p tag st n data = { d with
      txns := d.txns.erase (txnKey p tag)
      out := d.out ++
        [.completion p { kind := t.kind.code, tag := tag, status := st, count := n, data := data }] } := by
  rw [endTxn_eq d h, Device.ended, if_pos ⟨ho, hl⟩]

@[simp] theorem txn_taken (p : PortId) (tag : Nat) (t : Txn) :
    (d.taken p tag t).txn? p tag = some { t with command := none } := by
  simp [Device.txn?, Device.taken]

@[simp] theorem port_taken (p q : PortId) (tag : Nat) (t : Txn) : (d.taken p tag t).port q = d.port q := rfl

/-- A taken transaction is answered as the one it was. -/
@[simp] theorem answered_taken (p : PortId) (tag : Nat) (t : Txn) (st : MgmtStatus) (m : Option MgmtReason)
    (r : List Item) :
    (d.taken p tag t).answered p tag { t with command := none } st m r = d.answered p tag t st m r := by
  simp only [Device.answered, Device.taken, Table.erase_insert]
  rfl

/-- The response of a command just taken (R174). -/
theorem reply_taken (p : PortId) (tag : Nat) (t : Txn) (st : MgmtStatus) (m : Option MgmtReason) (r : List Item) :
    (d.taken p tag t).reply p tag st m r = d.answered p tag t st m r := by
  rw [reply_eq _ (txn_taken d p tag t), answered_taken]

/-- A response after a change that leaves the transactions, the port's link and the log of sent frames. -/
theorem reply_changed {d' : Device} {p : PortId} {tag : Nat} {t : Txn} (st : MgmtStatus) (m : Option MgmtReason)
    (r : List Item) (ht : d'.txn? p tag = some { t with command := none }) :
    d'.reply p tag st m r =
      { d' with
        txns := d'.txns.erase (txnKey p tag)
        out := d'.out ++ d'.answerFrames p t { tag := tag, status := st, reason := m, result := r } } := by
  rw [reply_eq _ ht]
  rfl

/-! ### The taking of a command -/

/-- An issued command is taken: what is left is its body, on the part with its command gone (R173). -/
theorem takeNow_issued {s : State} {p : PortId} {tag : Nat} {n : CommandName} {t : Txn} {args : List Arg}
    (h : s.Issued p tag n t args) (body : Device → List Arg → Device) :
    s.dev.takeNow p tag n body = body (s.dev.taken p tag t) args := by
  obtain ⟨-, ht, ⟨c, hc, hn, ha⟩, hr⟩ := h
  unfold Device.takeNow Device.take
  simp only [ht, hc, hn, ha, if_true]
  have : ¬ ((((s.dev.setTxn p tag { t with command := none }).port p).role = .data) ∧ n.forData = false) := by
    rintro ⟨h1, h2⟩
    have h1 : (s.dev.port p).role = .data := h1
    rcases hr with h | h
    · rw [h] at h1; cases h1
    · rw [h] at h2; cases h2
  rw [if_neg this]
  rfl

theorem takeThen_issued {s : State} {p : PortId} {tag : Nat} {n : CommandName} {t : Txn} {args : List Arg}
    (h : s.Issued p tag n t args) (body : Device → List Arg → Effect) :
    s.dev.takeThen p tag n body = settle (body (s.dev.taken p tag t) args) := by
  obtain ⟨-, ht, ⟨c, hc, hn, ha⟩, hr⟩ := h
  unfold Device.takeThen Device.take
  simp only [ht, hc, hn, ha, if_true]
  have : ¬ ((((s.dev.setTxn p tag { t with command := none }).port p).role = .data) ∧ n.forData = false) := by
    rintro ⟨h1, h2⟩
    have h1 : (s.dev.port p).role = .data := h1
    rcases hr with h | h
    · rw [h] at h1; cases h1
    · rw [h] at h2; cases h2
  rw [if_neg this]
  rfl

/-! ### Consequences -/

@[simp] theorem carryOut_nil (n : Nat) : carryOut n [] d = d := by
  cases n <;> rfl

@[simp] theorem settle_nil : settle (d, []) = d := carryOut_nil d _

/-- The first consequence is carried out, and then its own before the rest. -/
theorem carryOut_cons (n : Nat) (t : Task) (ts : List Task) :
    carryOut (n + 1) (t :: ts) d = carryOut n ((perform t d).2 ++ ts) (perform t d).1 := rfl

/-- Consequences of which none has any of its own are carried out one after another. -/
theorem carryOut_plain {n : Nat} {t : Task} {ts : List Task} (h : (perform t d).2 = []) :
    carryOut (n + 1) (t :: ts) d = carryOut n ts (perform t d).1 := by
  rw [carryOut_cons, h]
  rfl

/-- A consequence that leads to no other. -/
theorem settle_one {t : Task} (h : (perform t d).2 = []) : settle (d, [t]) = (perform t d).1 := by
  have : settle (d, [t]) = carryOut (4294967295 + 1) [t] d := rfl
  rw [this, carryOut_plain d h, carryOut_nil]

end Sys2Proof.Machine
end

