-- ==== Sys2Proof/Laws/Pool.lean ====
section
/-! SUPPORT. What the pool arbiter does: which tag it picks, when it makes no grant, and the one grant that follows the
joining of a request (R11, R12, R13). -/

namespace Sys2Proof.Machine

variable (d : Device)

/-- No tag is picked exactly when none of the range is FREE (R12). -/
theorem firstFree_none {p : Pool} {lo hi : Nat} :
    p.firstFree lo hi = none ↔ ∀ t : PoolTagId, lo ≤ t.val → t.val ≤ hi → p.tags[t] ≠ .free := by
  simp only [Pool.firstFree, List.find?_eq_none, List.mem_finRange, true_implies]
  constructor
  · intro h t h1 h2 h3
    have := h t
    simp_all
  · intro h t
    have := h t
    simp only [Bool.and_eq_true, decide_eq_true_eq, not_and]
    exact fun h1 h2 => this h1.1 h1.2 h2

/-- The tag picked is FREE and in the range (R12). -/
theorem firstFree_mem {p : Pool} {lo hi : Nat} {t : PoolTagId} (h : p.firstFree lo hi = some t) :
    lo ≤ t.val ∧ t.val ≤ hi ∧ p.tags[t] = .free := by
  have := List.find?_some h
  simpa [and_assoc] using this

/-- The lowest FREE tag of the range is picked (R12). -/
theorem firstFree_some {p : Pool} {lo hi : Nat} {t : PoolTagId} (h1 : lo ≤ t.val) (h2 : t.val ≤ hi)
    (hf : p.tags[t] = .free) (hl : ∀ u : PoolTagId, lo ≤ u.val → u.val < t.val → p.tags[u] ≠ .free) :
    p.firstFree lo hi = some t := by
  cases hp : p.firstFree lo hi with
  | none => exact absurd hf (firstFree_none.1 hp t h1 h2)
  | some u =>
    have hu := firstFree_mem hp
    by_contra hne
    have hne : u ≠ t := fun e => hne (by rw [e])
    have hge : t.val < u.val := by
      rcases Nat.lt_trichotomy u.val t.val with h | h | h
      · exact absurd hu.2.2 (hl u hu.1 h)
      · exact absurd (Fin.ext h) hne
      · exact h
    unfold Pool.firstFree at hp
    rw [List.find?_eq_some_iff_append] at hp
    obtain ⟨_, as, bs, hsplit, hbefore⟩ := hp
    have hmem : t ∈ as := by
      have hs : (as ++ u :: bs).Pairwise (· < ·) := by
        rw [← hsplit]; exact List.pairwise_lt_finRange 64
      have ht : t ∈ as ++ u :: bs := by rw [← hsplit]; exact List.mem_finRange t
      rcases List.mem_append.1 ht with h | h
      · exact h
      · have := List.pairwise_cons.1 (List.pairwise_append.1 hs).2.1
        rcases List.mem_cons.1 h with h | h
        · exact absurd h.symm hne
        · exact absurd (Fin.lt_def.1 (this.1 t h)) (by omega)
    have := hbefore t hmem
    simp [h1, h2, hf] at this

/-- No request waits: no grant. -/
theorem grantOne_idle (h1 : d.pool.preserveQ = []) (h2 : d.pool.pathQ = []) (h3 : d.pool.copyQ = []) :
    d.grantOne = none := by
  unfold Device.grantOne
  rw [h1, h2, h3]
  dsimp only
  split <;> rfl

/-- No request of class PRESERVE waits and no unreserved tag is FREE: no grant. -/
theorem grantOne_full (h : d.pool.preserveQ = [] ∨ ∀ t : PoolTagId, d.pool.tags[t] ≠ .free)
    (hf : ∀ t : PoolTagId, t.val ≤ 59 → d.pool.tags[t] ≠ .free) : d.grantOne = none := by
  have hu : d.pool.freeUnreserved = none := firstFree_none.2 fun t _ ht => hf t ht
  unfold Device.grantOne
  rcases h with h | h
  · rw [h, hu]
  · have hr : d.pool.freeReserved = none := firstFree_none.2 fun t _ _ => h t
    rw [hr, hu]
    split
    · rfl
    · rfl

theorem grantLoop_none {n : Nat} (h : d.grantOne = none) : grantLoop n d = d := by
  cases n with
  | zero => rfl
  | succ n => simp only [grantLoop, h]

theorem grantPool_none (h : d.grantOne = none) : d.grantPool = d := grantLoop_none d h

@[simp] theorem issue_preserveQ (t : PoolTagId) (r : PoolRequest) :
    (d.issue t r).pool.preserveQ = d.pool.preserveQ := by
  unfold Device.issue Device.onJob Device.onTxn
  cases r.requester <;> dsimp only <;> (repeat' split) <;> rfl

@[simp] theorem issue_pathQ (t : PoolTagId) (r : PoolRequest) : (d.issue t r).pool.pathQ = d.pool.pathQ := by
  unfold Device.issue Device.onJob Device.onTxn
  cases r.requester <;> dsimp only <;> (repeat' split) <;> rfl

@[simp] theorem issue_copyQ (t : PoolTagId) (r : PoolRequest) : (d.issue t r).pool.copyQ = d.pool.copyQ := by
  unfold Device.issue Device.onJob Device.onTxn
  cases r.requester <;> dsimp only <;> (repeat' split) <;> rfl

/-- The only waiting request, of class PATH, is issued under the lowest FREE unreserved tag (R12). -/
theorem grantOne_path {k : PoolTagId} {r : PoolRequest} (h1 : d.pool.preserveQ = []) (h2 : d.pool.pathQ = [r])
    (h3 : d.pool.copyQ = []) (hk : d.pool.freeUnreserved = some k) :
    d.grantOne = some ({ d with pool.pathQ := [], pool.streak := 0 }.issue k r) := by
  unfold Device.grantOne
  rw [h1, h2, h3, hk]

/-- With that request alone waiting, that is the one grant made. -/
theorem grantPool_path {k : PoolTagId} {r : PoolRequest} (h1 : d.pool.preserveQ = []) (h2 : d.pool.pathQ = [r])
    (h3 : d.pool.copyQ = []) (hk : d.pool.freeUnreserved = some k) :
    d.grantPool = { d with pool.pathQ := [], pool.streak := 0 }.issue k r := by
  have hw : d.pool.waiting = 1 := by simp [Pool.waiting, h1, h2, h3]
  unfold Device.grantPool
  rw [hw]
  unfold grantLoop
  rw [grantOne_path d h1 h2 h3 hk]
  rfl

/-- With no request waiting, a server's request is issued at once under the lowest FREE unreserved tag (R11, R12,
R13). -/
theorem joinPool_issue {k : PoolTagId} (p : PortId) (tag : Nat) (op : PoolOp) (h1 : d.pool.preserveQ = [])
    (h2 : d.pool.pathQ = []) (h3 : d.pool.copyQ = []) (hk : d.pool.freeUnreserved = some k) :
    d.joinPool { requester := .server p tag, op := op } =
      { d with pool.streak := 0 }.issue k { requester := .server p tag, op := op } := by
  have h2' : ({ d with pool.streak := 0 } : Device) = { d with pool.pathQ := [], pool.streak := 0 } := by
    rw [← h2]
  rw [h2']
  unfold Device.joinPool
  exact grantPool_path _ h1 (by rw [h2]; rfl) h3 hk

/-- With no tag for it, a server's request waits at the tail of class PATH (R11). -/
theorem joinPool_wait (p : PortId) (tag : Nat) (op : PoolOp)
    (h : d.pool.preserveQ = [] ∨ ∀ t : PoolTagId, d.pool.tags[t] ≠ .free)
    (hf : ∀ t : PoolTagId, t.val ≤ 59 → d.pool.tags[t] ≠ .free) :
    d.joinPool { requester := .server p tag, op := op } =
      { d with pool.pathQ := d.pool.pathQ ++ [{ requester := .server p tag, op := op }] } := by
  unfold Device.joinPool
  exact grantPool_none _ (grantOne_full _ h hf)

end Sys2Proof.Machine
end

