-- ==== Sys2Proof/Laws/Quota.lean ====
section
/-! SUPPORT. What the admission unit's shared operations do to every account, every group and the grace lists (R28 to
R35). -/

namespace Sys2Proof.Machine

variable (d : Device)

theorem account_setAccount_other {a b : Nat} (x : Account) (h : b ≠ a) : (d.setAccount a x).account b = d.account b :=
  Table.get_put_other _ _ _ h

theorem group_setGroup_other {g k : Nat} (x : Group) (h : k ≠ g) : (d.setGroup g x).group k = d.group k :=
  Table.get_put_other _ _ _ h


/-- R30: the account after the state re-check. -/
def Account.rechecked (x : Account) : Account :=
  if x.state ≠ .under ∧ x.usage + x.held ≤ x.soft then { x with state := .under, deadline := none } else x

/-- R30, R34, R35: everything the checks after a write end or a RELEASE do. -/
theorem quotaChecks_spec (a : Nat) :
    let x := d.account a
    let e := d.quotaChecks a
    e = { d with accounts := e.accounts, groups := e.groups, clock := e.clock }
      ∧ (∀ b, b ≠ a → e.account b = d.account b)
      ∧ (∀ k, k ≠ x.group → e.group k = d.group k)
      ∧ e.account a = x.rechecked.rearm
      ∧ e.group x.group = (d.group x.group).rearm
      ∧ e.clock = if x.state ≠ .under ∧ x.usage + x.held ≤ x.soft then
          { d.clock with graceList := d.clock.graceList.filter (· ≠ a), undated := d.clock.undated.filter (· ≠ a) }
        else d.clock := by
  intro x e
  have hg : ∀ y : Account, y.rearm.group = y.group := by intro y; unfold Account.rearm; split <;> rfl
  by_cases hb : x.state ≠ .under ∧ x.usage + x.held ≤ x.soft
  · have he : e = ((((d.setAccount a { x with state := .under, deadline := none }).leaveGrace a).setAccount a
        ({ x with state := .under, deadline := none } : Account).rearm).setGroup x.group (d.group x.group).rearm) := by
      simp only [e, Device.quotaChecks, Device.recheckState]
      rw [if_pos hb]
      simp [Device.rearmAccount, Device.rearmGroup, Device.leaveGrace, Device.account, Device.setAccount, Device.setGroup,
        Device.group, hg, x]
    rw [if_pos hb, Account.rechecked, if_pos hb, he]
    refine ⟨rfl, ?_, ?_, ?_, ?_, rfl⟩
    · intro b hb
      rw [account_setGroup, account_setAccount_other _ _ hb]
      exact account_setAccount_other d _ hb
    · intro k hk
      exact group_setGroup_other _ _ hk
    · rw [account_setGroup, account_setAccount]
    · rw [group_setGroup]
  · have he : e = ((d.setAccount a x.rearm).setGroup x.group (d.group x.group).rearm) := by
      simp only [e, Device.quotaChecks, Device.recheckState]
      rw [if_neg hb]
      simp [Device.rearmAccount, Device.rearmGroup, Device.account, Device.setAccount, Device.setGroup, Device.group, hg, x]
    rw [if_neg hb, Account.rechecked, if_neg hb, he]
    refine ⟨rfl, ?_, ?_, ?_, ?_, rfl⟩
    · intro b hb
      rw [account_setGroup, account_setAccount_other _ _ hb]
    · intro k hk
      exact group_setGroup_other _ _ hk
    · rw [account_setGroup, account_setAccount]
    · rw [group_setGroup]

/-- R35: the armed flag of a group after its check. -/
theorem group_rearm_fullArmed (g : Group) :
    g.rearm.fullArmed = (g.fullArmed || decide (g.limit = 0 ∨ g.usage + g.held ≤ g.limit - g.limit / 16)) := by
  unfold Group.rearm
  cases hf : g.fullArmed
  · by_cases h : g.limit = 0 ∨ g.usage + g.held ≤ g.limit - g.limit / 16
    · rw [if_pos ⟨rfl, h⟩, decide_eq_true h]; rfl
    · rw [if_neg fun k => h k.2, decide_eq_false h, hf]; rfl
  · rw [if_neg fun k => by simp at k, hf]; rfl

/-- R34: the armed flag of an account after its check. -/
theorem account_rearm_hardArmed (x : Account) :
    x.rearm.hardArmed = (x.hardArmed
      || decide (x.limit < Config.accountMax ∧ x.usage + x.held ≤ x.limit - x.limit / 16)) := by
  unfold Account.rearm
  cases hf : x.hardArmed
  · by_cases h : x.limit < Config.accountMax ∧ x.usage + x.held ≤ x.limit - x.limit / 16
    · rw [if_pos ⟨rfl, h⟩, decide_eq_true h]; rfl
    · rw [if_neg fun k => h k.2, decide_eq_false h, hf]; rfl
  · rw [if_neg fun k => by simp at k, hf]; rfl

/-! ### The end of an admitted write -/

theorem Account.rechecked_rearm (a : Account) (c u : Nat) :
    ({ a with held := a.held - c, usage := u } : Account).rechecked.rearm = a.settled c u := by
  have h : ∀ b : Account, b.rearm = { b with
      hardArmed := b.hardArmed || decide (b.limit < 4294967295 ∧ b.usage + b.held ≤ b.limit - b.limit / 16) } := by
    intro b
    rw [← account_rearm_hardArmed]
    unfold Account.rearm
    split <;> rfl
  rw [h]
  rfl

theorem Group.rearm_settled (g : Group) (c rise : Nat) :
    ({ g with held := g.held - c, usage := g.usage + rise } : Group).rearm = g.settled c rise := by
  have h : ∀ b : Group, b.rearm = { b with
      fullArmed := b.fullArmed || decide (b.limit = 0 ∨ b.usage + b.held ≤ b.limit - b.limit / 16) } := by
    intro b
    rw [← group_rearm_fullArmed]
    unfold Group.rearm
    split <;> rfl
  rw [h]
  rfl

/-- R30, R34, R35: the checks after the end of an admitted write leave account and group settled. -/
theorem quotaChecks_settled {d e : Device} {n c u : Nat}
    (ha : e.account n = { d.account n with held := (d.account n).held - c, usage := u })
    (hg : e.group (d.account n).group = { d.group (d.account n).group with
      held := (d.group (d.account n).group).held - c
      usage := (d.group (d.account n).group).usage + (u - (d.account n).usage) })
    (hao : ∀ b, b ≠ n → e.account b = d.account b) (hgo : ∀ k, k ≠ (d.account n).group → e.group k = d.group k)
    (hc : e.clock = d.clock) : d.Settled (e.quotaChecks n) n c u := by
  have h := quotaChecks_spec e n
  simp only [ha] at h
  obtain ⟨-, h1, h2, h3, h4, h5⟩ := h
  refine ⟨?_, ?_, fun b hb => (h1 b hb).trans (hao b hb), fun k hk => (h2 k hk).trans (hgo k hk), ?_⟩
  · rw [h3, Account.rechecked_rearm]
  · rw [h4, hg, Group.rearm_settled]
  · rw [h5, hc]

theorem chargeToUsage_account (n c : Nat) : (d.chargeToUsage n c).account n =
    { d.account n with
      held := (d.account n).held - c, usage := min ((d.account n).usage + c) Config.accountMax } := by
  unfold Device.chargeToUsage
  rw [account_setGroup, account_setAccount]

theorem releaseCharge_account (n c : Nat) : (d.releaseCharge n c).account n =
    { d.account n with held := (d.account n).held - c } := by
  unfold Device.releaseCharge
  rw [account_setGroup, account_setAccount]

/-- R28 to R30, R34, R35: everything the end of an admitted write of a charge above 0 does to accounts and groups. -/
theorem settleCharge_spec {n c : Nat} (hc : 0 < c) (ok : Bool) :
    let e := d.settleCharge n c ok
    e = { d with accounts := e.accounts, groups := e.groups, clock := e.clock }
      ∧ d.Settled e n c (if ok then min ((d.account n).usage + c) Config.accountMax else (d.account n).usage) := by
  intro e
  have he : e = (if ok then d.chargeToUsage n c else d.releaseCharge n c).quotaChecks n := by
    simp only [e, Device.settleCharge]
    rw [if_neg (by omega)]
  constructor
  · rw [he]
    have h := (quotaChecks_spec (if ok then d.chargeToUsage n c else d.releaseCharge n c) n).1
    rw [h]
    cases ok <;> rfl
  · rw [he]
    cases ok with
    | true =>
      refine quotaChecks_settled (chargeToUsage_account d n c) ?_ ?_ ?_ rfl
      · show (d.chargeToUsage n c).group _ = _
        unfold Device.chargeToUsage
        rw [group_setGroup]
        rfl
      · intro b hb
        exact account_setAccount_other d _ hb
      · intro k hk
        exact group_setGroup_other _ _ hk
    | false =>
      refine quotaChecks_settled (releaseCharge_account d n c) ?_ ?_ ?_ rfl
      · show (d.releaseCharge n c).group _ = _
        unfold Device.releaseCharge
        rw [group_setGroup]
        simp
      · intro b hb
        exact account_setAccount_other d _ hb
      · intro k hk
        exact group_setGroup_other _ _ hk

theorem mem_insertBefore {α : Type} (f : α → α → Bool) (x y : α) (l : List α) :
    y ∈ insertBefore f x l ↔ y = x ∨ y ∈ l := by
  induction l with
  | nil => simp [insertBefore]
  | cons z l ih =>
    simp only [insertBefore]
    split
    · simp
    · simp [ih]; tauto

/-- R52: the members of the grace list after an account has joined. -/
theorem mem_joinGrace (a b : Nat) : b ∈ (d.joinGrace a).clock.graceList ↔ b = a ∨ b ∈ d.clock.graceList := by
  simp only [Device.joinGrace, mem_insertBefore, List.mem_filter]
  by_cases h : b = a <;> simp [h]

/-- R53: the members of the undated set after an account has joined. -/
theorem mem_joinUndated (a b : Nat) : b ∈ (d.joinUndated a).clock.undated ↔ b = a ∨ b ∈ d.clock.undated := by
  simp only [Device.joinUndated, mem_insertBefore, List.mem_filter]
  by_cases h : b = a <;> simp [h]

/-- The notices of an account that enters grace (R27). -/
def Device.graceNoted (d : Device) (a : Nat) (x : Account) : Device :=
  let e := d.noted .quotaSoft (.account a) (.number (x.usage + x.held))
  if x.grace = 0 then e.noted .quotaExpired (.account a) (.number x.soft) else e

/-- R27: everything the entry to grace of an account does. -/
theorem enterGrace_spec (a : Nat) :
    let x := d.account a
    let e := d.enterGrace a
    e = { d.graceNoted a x with
        accounts := e.accounts, clock.graceList := e.clock.graceList, clock.undated := e.clock.undated }
      ∧ (∀ b, b ≠ a → e.account b = d.account b)
      ∧ e.account a = { x with
          state := if x.grace = 0 then .expired else .soft
          deadline := if x.grace = 0 then none
            else if d.clock.valid then some (d.clock.time.addHours x.grace) else none }
      ∧ (∀ b, b ≠ a → (b ∈ e.clock.graceList ↔ b ∈ d.clock.graceList) ∧ (b ∈ e.clock.undated ↔ b ∈ d.clock.undated))
      ∧ (x.grace ≠ 0 → if d.clock.valid then a ∈ e.clock.graceList else a ∈ e.clock.undated) := by
  intro x e
  have hn : ∀ (f : Device) (y : Account) k s v, (f.setAccount a y).noted k s v = (f.noted k s v).setAccount a y := by
    intro f y k s v; rfl
  have hc : ∀ (f : Device) k s v, (f.noted k s v).clock = f.clock := by
    intro f k s v; rfl
  have ha : ∀ (f : Device) k s v b, (f.noted k s v).account b = f.account b := by
    intro f k s v b; rfl
  by_cases hg : x.grace = 0
  · have he : e = (((d.noted .quotaSoft (.account a) (.number (x.usage + x.held))).noted .quotaExpired (.account a)
        (.number x.soft)).setAccount a { x with state := .soft }).setAccount a
          { x with state := .expired, deadline := none } := by
      simp only [e, Device.enterGrace]
      rw [if_pos hg]
      simp only [notify_eq, hn]
      rfl
    rw [he]
    refine ⟨?_, ?_, ?_, ?_, fun h => absurd hg h⟩
    · unfold Device.graceNoted
      dsimp only
      rw [if_pos hg]
      simp only [setAccount_clock]
      rfl
    · intro b hb
      rw [account_setAccount_other _ _ hb, account_setAccount_other _ _ hb, ha, ha]
    · rw [account_setAccount]; simp [hg]
    · intro b hb; simp [hc]
  · by_cases hv : d.clock.valid = true
    · have he : e = ((((d.noted .quotaSoft (.account a) (.number (x.usage + x.held))).setAccount a
          { x with state := .soft }).setAccount a
          { x with state := .soft, deadline := some (d.clock.time.addHours x.grace) }).joinGrace a) := by
        simp only [e, Device.enterGrace]
        rw [if_neg hg]
        simp only [notify_eq, hn, setAccount_clock, hc]
        rw [if_pos hv]
      have hj : ∀ f : Device, (f.joinGrace a).account = f.account := fun _ => rfl
      rw [he]
      refine ⟨?_, ?_, ?_, ?_, ?_⟩
      · unfold Device.graceNoted
        dsimp only
        rw [if_neg hg]
        rfl
      · intro b hb
        rw [hj, account_setAccount_other _ _ hb, account_setAccount_other _ _ hb, ha]
      · rw [hj, account_setAccount]; simp [hg, hv]
      · intro b hb
        rw [mem_joinGrace]
        simp only [setAccount_clock, hc, hb, false_or, true_and]
        show b ∈ ((d.noted .quotaSoft (.account a) (.number (x.usage + x.held)))).clock.undated ↔ _
        rw [hc]
      · intro _; rw [if_pos hv, mem_joinGrace]; exact .inl rfl
    · have he : e = ((((d.noted .quotaSoft (.account a) (.number (x.usage + x.held))).setAccount a
          { x with state := .soft }).setAccount a { x with state := .soft, deadline := none }).joinUndated a) := by
        simp only [e, Device.enterGrace]
        rw [if_neg hg]
        simp only [notify_eq, hn, setAccount_clock, hc]
        rw [if_neg hv]
      have hj : ∀ f : Device, (f.joinUndated a).account = f.account := fun _ => rfl
      rw [he]
      refine ⟨?_, ?_, ?_, ?_, ?_⟩
      · unfold Device.graceNoted
        dsimp only
        rw [if_neg hg]
        rfl
      · intro b hb
        rw [hj, account_setAccount_other _ _ hb, account_setAccount_other _ _ hb, ha]
      · rw [hj, account_setAccount]; simp [hg, hv]
      · intro b hb
        rw [mem_joinUndated]
        simp only [setAccount_clock, hc, hb, false_or, and_true]
        show b ∈ ((d.noted .quotaSoft (.account a) (.number (x.usage + x.held)))).clock.graceList ↔ _
        rw [hc]
      · intro _; rw [if_neg hv, mem_joinUndated]; exact .inl rfl

end Sys2Proof.Machine
end

