-- ==== Sys2Proof/Laws/Settle.lean ====
section
/-! SUPPORT. How the consequences of one event are carried out one after another, said once (`Runs`), and when a
consequence finds nothing to do. -/

namespace Sys2Proof.Machine

variable {d d' d'' : Device}

/-! ### Carrying out -/

/-- The consequences ts take the part from d to d' in at most b steps, whatever waits behind them. -/
def Runs (b : Nat) (ts : List Task) (d d' : Device) : Prop :=
  ∃ k, k ≤ b ∧ ∀ n rest, carryOut (n + k) (ts ++ rest) d = carryOut n rest d'

theorem Runs.nil (d : Device) : Runs 0 [] d d := ⟨0, le_rfl, fun _ _ => rfl⟩

/-- One consequence with what it gives rise to. -/
theorem Runs.task {b : Nat} {t : Task} {more : List Task} (h : perform t d = (d', more)) (h' : Runs b more d' d'') :
    Runs (b + 1) [t] d d'' := by
  obtain ⟨k, hk, h'⟩ := h'
  refine ⟨k + 1, by omega, fun n rest => ?_⟩
  rw [← Nat.add_assoc, List.singleton_append, ← h']
  show (match perform t d with
    | (d', more) => carryOut (n + k) (more ++ rest) d') = _
  rw [h]

/-- One consequence that gives rise to none. -/
theorem Runs.one {t : Task} (h : perform t d = (d', [])) : Runs 1 [t] d d' := Runs.task h (.nil d')

theorem Runs.append {b c : Nat} {ts us : List Task} (h : Runs b ts d d') (h' : Runs c us d' d'') :
    Runs (b + c) (ts ++ us) d d'' := by
  obtain ⟨k, hk, h⟩ := h
  obtain ⟨l, hl, h'⟩ := h'
  refine ⟨l + k, by omega, fun n rest => ?_⟩
  rw [List.append_assoc, ← Nat.add_assoc, h, h']

theorem Runs.cons {b c : Nat} {t : Task} {us : List Task} (h : Runs b [t] d d') (h' : Runs c us d' d'') :
    Runs (b + c) (t :: us) d d'' := h.append h'

theorem Runs.mono {b c : Nat} {ts : List Task} (h : Runs b ts d d') (hb : b ≤ c) : Runs c ts d d' :=
  h.imp fun _ g => ⟨g.1.trans hb, g.2⟩

/-- Consequences that all find nothing to do. -/
theorem Runs.quiet {ts : List Task} (h : ∀ t ∈ ts, perform t d = (d, [])) : Runs ts.length ts d d := by
  induction ts with
  | nil => exact .nil d
  | cons t ts ih =>
    rw [List.length_cons, Nat.add_comm]
    exact (Runs.one (h t (List.mem_cons_self ..))).cons (ih fun u hu => h u (List.mem_cons_of_mem _ hu))

/-- An event whose consequences run out within the bound. -/
theorem Runs.settle {b : Nat} {ts : List Task} (h : Runs b ts d d') (hb : b ≤ 4294967296) :
    Machine.settle (d, ts) = d' := by
  obtain ⟨k, hk, h⟩ := h
  have := h (4294967296 - k) []
  rw [Nat.sub_add_cancel (hk.trans hb), List.append_nil] at this
  refine Eq.trans this ?_
  cases 4294967296 - k <;> rfl

/-! ### Consequences that find nothing to do -/

/-- A volume neither CUTTING nor REMOVING is left alone (R72, R103). -/
theorem volumeCheck_quiet {v : Nat} {x : Volume} (hv : d.volume? v = some x) (hc : x.cut = none)
    (hs : x.state ≠ .removing) : perform (.volumeCheck v) d = (d, []) := by
  show volumeCheck v d = _
  unfold volumeCheck removalCheck
  rw [hv]
  dsimp only
  rw [hc]
  dsimp only
  rw [if_neg (by simp [Device.removalDone, hs])]

theorem removalCheck_quiet {v : Nat} {x : Volume} (hv : d.volume? v = some x) (hs : x.state ≠ .removing) :
    perform (.removalCheck v) d = (d, []) := by
  show removalCheck v d = _
  unfold removalCheck
  rw [hv]
  dsimp only
  rw [if_neg (by simp [Device.removalDone, hs])]

/-- No copy read waits for a place (R93). -/
theorem serveReaders_quiet (h : d.pres.readerWait = []) : perform .serveReaders d = (d, []) := by
  show serveReaders d = _
  unfold serveReaders
  rw [h]

/-- No entry of the volume waits for a slot (R87). -/
theorem serveSlots_quiet {v : Nat} {x : Volume} (hv : d.volume? v = some x) (h : x.slotWait = []) :
    perform (.serveSlots v) d = (d, []) := by
  show serveSlots v d = _
  unfold serveSlots
  rw [hv]
  dsimp only
  rw [h]

/-- The volume is at its reserve limit, or no slot is free (R80). -/
theorem takeSlot_none {v : Nat} {x : Volume} (hv : d.volume? v = some x)
    (h : d.pres.free = [] ∨ x.reserve ≤ x.slotsHeld) : d.takeSlot v = none := by
  unfold Device.takeSlot
  rw [hv]
  cases hf : d.pres.free with
  | nil => rfl
  | cons s rest =>
    rcases h with h | h
    · rw [hf] at h; cases h
    · dsimp only
      rw [if_neg (by omega)]

/-- With no slot to take the slot-wait queue stands (R87). -/
theorem serveSlots_none {v : Nat} {x : Volume} (hv : d.volume? v = some x)
    (h : d.pres.free = [] ∨ x.reserve ≤ x.slotsHeld) : perform (.serveSlots v) d = (d, []) := by
  show serveSlots v d = _
  unfold serveSlots
  rw [hv]
  dsimp only
  rw [takeSlot_none hv h]
  dsimp only
  (repeat' split) <;> rfl

/-- Only a SLOT_WAIT entry gives up a wait (R85). -/
theorem giveUp_quiet {v g : Nat} (h : ∀ e, d.entry? v g = some e → (∀ b p, e.phase ≠ .slotWait b p) ∨ e.waiters ≠ []) :
    perform (.giveUp v g) d = (d, []) := by
  show giveUpWait v g d = _
  unfold giveUpWait
  cases he : d.entry? v g with
  | none => rfl
  | some e =>
    dsimp only
    split
    · rename_i b p hp
      rcases h e he with h | h
      · exact absurd hp (h b p)
      · rw [if_neg h]
    · rfl

/-- An entry that is not READING, or has readers, is not removed (R84). -/
theorem dropEntry_quiet {v g : Nat} (h : ∀ e, d.entry? v g = some e → e.phase ≠ .reading ∨ e.readers ≠ 0) :
    perform (.dropEntry v g) d = (d, []) := by
  show dropEntry v g d = _
  unfold dropEntry
  cases he : d.entry? v g with
  | none => rfl
  | some e =>
    dsimp only
    rw [if_neg fun k => (h e he).elim (fun h => h k.1) (fun h => h k.2)]

/-- With no entry for the grain there is no preservation to start. -/
theorem startPreservation_quiet {v g : Nat} (h : d.entry? v g = none) :
    perform (.startPreservation v g) d = (d, []) := by
  show startPreservation v g d = _
  unfold startPreservation
  rw [h]
  cases d.volume? v <;> rfl

/-- An entry with no reader leaves the table, and what follows is its waiters' (R84). -/
theorem dropEntry_perform {v g : Nat} {e : Pending} (he : d.entry? v g = some e) (hp : e.phase = .reading)
    (hr : e.readers = 0) : perform (.dropEntry v g) d = (d.removeEntry v g,
      e.waiters.map (Task.reevaluate · v g) ++ [.startPreservation v g] ++ e.waiters.map Task.handOn
        ++ [.serveReaders, .removalCheck v]) := by
  show dropEntry v g d = _
  unfold dropEntry
  rw [he]
  exact if_pos ⟨hp, hr⟩

/-- An entry with no reader and no waiter leaves the table (R84); here no copy read waits for its place, and its volume
is not REMOVING. -/
theorem dropEntry_runs {v g : Nat} {e : Pending} {x : Volume} (he : d.entry? v g = some e) (hp : e.phase = .reading)
    (hr : e.readers = 0) (hw : e.waiters = []) (hrw : d.pres.readerWait = []) (hv : d.volume? v = some x)
    (hs : x.state ≠ .removing) : Runs 4 [.dropEntry v g] d (d.removeEntry v g) := by
  have h0 := dropEntry_perform he hp hr
  rw [hw] at h0
  have h1 : perform (.startPreservation v g) (d.removeEntry v g) = (d.removeEntry v g, []) :=
    startPreservation_quiet (Table.find_erase_same _ _)
  have h2 : perform .serveReaders (d.removeEntry v g) = (d.removeEntry v g, []) := serveReaders_quiet hrw
  have h3 : perform (.removalCheck v) (d.removeEntry v g) = (d.removeEntry v g, []) :=
    removalCheck_quiet (x := x) hv hs
  exact Runs.task h0 ((Runs.one h1).cons ((Runs.one h2).cons (Runs.one h3)))

/-- No copy slot is FREE: no grant (R117). -/
theorem grant_full (h : ∀ k, d.slot? k ≠ none) : perform .grant d = (d, []) := by
  show grantSlot d = _
  have hf : d.freeSlot = none := by
    unfold Device.freeSlot
    rw [List.find?_eq_none]
    intro k _
    simp [h k]
  unfold grantSlot
  rw [hf]

/-- No restore is eligible. -/
theorem chosenRestore_none (h : ∀ r ∈ d.copy.restores, r.eligible = false) : d.chosenRestore = none := by
  have : d.copy.restores.filter Restore.eligible = [] := by
    rw [List.filter_eq_nil_iff]
    intro r hr
    simp [h r hr]
  simp [Device.chosenRestore, this]

/-- No stream is eligible: no grant (R116, R117). -/
theorem grant_none (hr : ∀ r ∈ d.copy.restores, r.eligible = false) (hp : d.passEligible = false) :
    perform .grant d = (d, []) := by
  show grantSlot d = _
  unfold grantSlot
  rw [chosenRestore_none hr]
  split
  · rfl
  · simp [hp]

/-- Only a RUNNING restore is eligible (R116). -/
theorem Restore.not_eligible {r : Restore} (h : r.state ≠ .running) : r.eligible = false := by
  simp [Restore.eligible, h]

/-- No pass runs: the pass is not eligible (R116). -/
theorem passEligible_none (h : d.dup.pass = none) : d.passEligible = false := by
  simp [Device.passEligible, h]

/-- A pass runs, or no entry may start (R138). -/
theorem passStart_quiet (h : d.dup.pass ≠ none ∨ d.startable = none) : perform .passStart d = (d, []) := by
  show passStart d = _
  unfold passStart
  rcases h with h | h
  · obtain ⟨q, hq⟩ := Option.ne_none_iff_exists'.1 h
    rw [hq]
  · rw [h]
    split
    · rename_i e _ he; cases he
    · rfl

theorem startable_none (h : d.dup.queue = [] ∨ (d.clock.window = .closed ∧ ∀ e ∈ d.dup.queue, e.origin ≠ .demand)) :
    d.startable = none := by
  unfold Device.startable
  rcases h with h | ⟨hw, h⟩
  · rw [h]; split <;> rfl
  · rw [if_neg (by rw [hw]; decide), List.find?_eq_none]
    simpa using h

/-- No pass waits for a cut of the volume (R99). -/
theorem tellPass_quiet {v : Nat} (h : ∀ q, d.dup.pass = some q → q.volume ≠ v ∨ q.state ≠ .cutting) :
    perform (.tellPass v) d = (d, []) := by
  show tellPass v d = _
  unfold tellPass
  cases hp : d.dup.pass with
  | none => rfl
  | some q =>
    dsimp only
    rw [if_neg fun k => (h q hp).elim (fun h => h k.1) (fun h => h k.2.1)]

/-- The transmitter can take no frame (R145). -/
theorem transmit_held (h : d.TransmitterHeld) : perform .transmit d = (d, []) := by
  show transmit d = _
  unfold transmit
  rw [if_pos]
  rcases h with h | h
  · left
    cases hl : d.dup.link with
    | ready m => exact absurd hl (h m)
    | _ => rfl
  · right
    exact Option.isSome_iff_ne_none.2 h

/-! ### What a joining request leaves alone -/

/-- The pool arbiter changes transactions, the pool, copy slots and the log of sent frames, nothing else (R12, R13). -/
theorem issue_frame (d : Device) (t : PoolTagId) (r : PoolRequest) :
    d.issue t r = { d with
      txns := (d.issue t r).txns, pool := (d.issue t r).pool
      copy := { d.copy with slots := (d.issue t r).copy.slots }, out := (d.issue t r).out } := by
  unfold Device.issue
  cases r.requester with
  | server p tag => unfold Device.onTxn; dsimp only; split <;> rfl
  | preserve v g => rfl
  | slot k => unfold Device.onJob; dsimp only; (repeat' split) <;> rfl

/-- The fields the pool arbiter leaves alone. -/
def Device.rest (d : Device) : Device := { d with
  txns := [], pool := Pool.initial, copy := { d.copy with slots := Vector.replicate 16 none }, out := [] }

theorem rest_issue (d : Device) (t : PoolTagId) (r : PoolRequest) : (d.issue t r).rest = d.rest := by
  rw [issue_frame]; rfl

theorem rest_grantOne (h : d.grantOne = some d') : d'.rest = d.rest := by
  unfold Device.grantOne at h
  have key : ∀ (e : Device) t r, e.rest = d.rest → some (e.issue t r) = some d' → d'.rest = d.rest := by
    intro e t r he hh
    cases hh
    rw [rest_issue, he]
  (repeat' split at h) <;> first | exact key _ _ _ (by rfl) h | (exact absurd h (by simp))

theorem rest_grantLoop (n : Nat) : ∀ d : Device, (grantLoop n d).rest = d.rest := by
  induction n with
  | zero => intro d; rfl
  | succ n ih =>
    intro d
    unfold grantLoop
    cases hg : d.grantOne with
    | none => rfl
    | some d' => exact (ih d').trans (rest_grantOne hg)

theorem rest_joinPool (d : Device) (r : PoolRequest) : (d.joinPool r).rest = d.rest := by
  unfold Device.joinPool Device.grantPool
  rw [rest_grantLoop]
  cases r.requester <;> rfl

section
variable (d : Device) (r : PoolRequest)

@[simp] theorem joinPool_resetLow : (d.joinPool r).resetLow = d.resetLow :=
  show (d.joinPool r).rest.resetLow = d.rest.resetLow by rw [rest_joinPool]
@[simp] theorem joinPool_ports : (d.joinPool r).ports = d.ports :=
  show (d.joinPool r).rest.ports = d.rest.ports by rw [rest_joinPool]
@[simp] theorem joinPool_accounts : (d.joinPool r).accounts = d.accounts :=
  show (d.joinPool r).rest.accounts = d.rest.accounts by rw [rest_joinPool]
@[simp] theorem joinPool_groups : (d.joinPool r).groups = d.groups :=
  show (d.joinPool r).rest.groups = d.rest.groups by rw [rest_joinPool]
@[simp] theorem joinPool_clock : (d.joinPool r).clock = d.clock :=
  show (d.joinPool r).rest.clock = d.rest.clock by rw [rest_joinPool]
@[simp] theorem joinPool_area : (d.joinPool r).area = d.area :=
  show (d.joinPool r).rest.area = d.rest.area by rw [rest_joinPool]
@[simp] theorem joinPool_volumes : (d.joinPool r).volumes = d.volumes :=
  show (d.joinPool r).rest.volumes = d.rest.volumes by rw [rest_joinPool]
@[simp] theorem joinPool_pres : (d.joinPool r).pres = d.pres :=
  show (d.joinPool r).rest.pres = d.rest.pres by rw [rest_joinPool]
@[simp] theorem joinPool_cutHold : (d.joinPool r).cutHold = d.cutHold :=
  show (d.joinPool r).rest.cutHold = d.rest.cutHold by rw [rest_joinPool]
@[simp] theorem joinPool_restores : (d.joinPool r).copy.restores = d.copy.restores :=
  show (d.joinPool r).rest.copy.restores = d.rest.copy.restores by rw [rest_joinPool]
@[simp] theorem joinPool_dup : (d.joinPool r).dup = d.dup :=
  show (d.joinPool r).rest.dup = d.rest.dup by rw [rest_joinPool]
@[simp] theorem joinPool_mgmt : (d.joinPool r).mgmt = d.mgmt :=
  show (d.joinPool r).rest.mgmt = d.rest.mgmt by rw [rest_joinPool]
@[simp] theorem joinPool_freeIndex : (d.joinPool r).freeIndex = d.freeIndex :=
  show (d.joinPool r).rest.freeIndex = d.rest.freeIndex by rw [rest_joinPool]

end

end Sys2Proof.Machine
end

