-- ==== Sys2Proof/Laws/Special.lean ====
section
/-! SUPPORT. The few commands that change what no consequence changes: the calendar, limits, usage by RELEASE and
ACCOUNT LOAD, roles and links, the area, new volumes, notices taken. Wide is what every command but a reset can do. -/

namespace Sys2Proof.Machine

/-- What only a few commands do: move the calendar, change a port's role and reload or its link, define a volume. -/
inductive Special where
  | calendar
  | role
  | link (p : PortId)
  | define

/-- A single change, or one of the special ones; those of Special only where a allows them. -/
inductive Extra (allow : Special → Prop) : Core → Core → Prop where
  | prim (c c' : Core) : Prim c c' → Extra allow c c'
  | calendar (c : Core) (time : CalTime) (valid : Bool) : allow .calendar → (c.time.valid = true → time.valid = true) →
      Extra allow c { c with time := time, valid := valid }
  | release (c : Core) (a n : Nat) (x : Account) (y : Group) : n ≤ (c.account a).usage →
      x = { c.account a with usage := (c.account a).usage - n, underflow := x.underflow } →
      y = { c.group (c.account a).group with usage := (c.group (c.account a).group).usage - n } →
      Extra allow c { c with
        accounts := c.accounts.put Account.initial a x, groups := c.groups.put Group.initial (c.account a).group y }
  | dates (c : Core) (a : Nat) (x : Account) : x = { c.account a with deadline := x.deadline } →
      Extra allow c { c with accounts := c.accounts.put Account.initial a x }
  | limits (c : Core) (a : Nat) (x : Account) :
      x = { c.account a with soft := x.soft, hard := x.hard, grace := x.grace } → (0 < x.hard → x.soft ≤ x.hard) →
      x.grace ≤ 2160 → Extra allow c { c with accounts := c.accounts.put Account.initial a x }
  | move (c : Core) (a g : Nat) (x : Account) (old new : Group) : g ≤ 1023 → g ≠ (c.account a).group →
      x = { c.account a with group := g } →
      old = { c.group (c.account a).group with
                usage := (c.group (c.account a).group).usage - (c.account a).usage, held := old.held } →
      new = { c.group g with usage := (c.group g).usage + (c.account a).usage, held := new.held } →
      Extra allow c { c with
        accounts := c.accounts.put Account.initial a x
        groups := (c.groups.put Group.initial (c.account a).group old).put Group.initial g new }
  | usage (c : Core) (a u : Nat) (x : Account) (y : Group) : u ≤ Config.accountMax →
      x = { c.account a with usage := u, underflow := x.underflow } →
      y = { c.group (c.account a).group with
              usage := (c.group (c.account a).group).usage + u - (c.account a).usage } →
      Extra allow c { c with
        accounts := c.accounts.put Account.initial a x, groups := c.groups.put Group.initial (c.account a).group y }
  | limit (c : Core) (g l : Nat) : (g = 0 → l = 0) → l ≤ Config.groupMax →
      Extra allow c { c with groups := c.groups.put Group.initial g { c.group g with limit := l } }
  | take (c : Core) (n : Nat) :
      Extra allow c { c with notices := c.notices.drop n, overflow := false, attnLow := 0 < (c.notices.drop n).length }
  | losePool (c : Core) (f : PoolTag → PoolTag) : (∀ x r m, f x ≠ .busy r m) →
      Extra allow c { c with pool := { c.pool with
        tags := c.pool.tags.map f, preserveQ := [], pathQ := [], copyQ := [], link := .down } }
  | poolUp (c : Core) : Extra allow c { c with pool := { c.pool with link := .up } }
  | port (c : Core) (p : PortId) (x : Port) :
      (x.role = c.ports[p].role ∧ x.reload = c.ports[p].reload) ∨ allow .role →
      x.link = c.ports[p].link ∨ allow (.link p) → Extra allow c { c with ports := c.ports.set p.val x p.isLt }
  | area (c : Core) (a : Area) : c.volumes = [] → Extra allow c { c with area := some a }
  | define (c : Core) (v : Nat) (x : Volume) : allow .define → c.volumes.find v = none → x.grains = [] → x.snapshots = [] →
      x.epoch = 2 → x.cut = none → Extra allow c { c with volumes := c.volumes.insert v x }

/-- What a part can become by any command but a reset. -/
abbrev Wide (allow : Special → Prop) (d d' : Device) : Prop := Relation.ReflTransGen (Extra allow) d.core d'.core

variable {allow : Special → Prop}

theorem Change.wide {d d' : Device} (h : Change d d') : Wide allow d d' := by
  unfold Change at h
  unfold Wide
  generalize d'.core = c at h ⊢
  induction h with
  | refl => exact .refl
  | tail _ hp ih => exact ih.tail (.prim _ _ hp)

theorem Wide.one {a b : Device} (h : Extra allow a.core b.core) : Wide allow a b := Relation.ReflTransGen.single h

theorem Wide.then {a b c : Device} (h : Wide allow a b) (h' : Change b c) : Wide allow a c := Relation.ReflTransGen.trans h h'.wide

theorem Wide.trans {a b c : Device} (h : Wide allow a b) (h' : Wide allow b c) : Wide allow a c := Relation.ReflTransGen.trans h h'

theorem Wide.of_same {a b c : Device} (ha : b.core = a.core) (h : Wide allow b c) : Wide allow a c := by
  unfold Wide at *
  rw [← ha]
  exact h

theorem Wide.foldl {α : Type} (f : Device → α → Device) (l : List α) (h : ∀ d x, Wide allow d (f d x)) (d : Device) :
    Wide allow d (l.foldl f d) := by
  induction l generalizing d with
  | nil => exact .refl
  | cons x l ih => exact (h d x).trans (ih _)

theorem event_wide {f : Device → Device} {s t : State} (h : s.event f = .next t) (hf : Wide allow s.dev (f s.dev)) :
    Wide allow s.dev t.dev := by
  obtain ⟨-, hl, hh⟩ := event_eq h
  cases hr : s.dev.resetLow with
  | true => rw [hl hr]
  | false => rw [hh hr]; exact hf

/-- The taking of a command whose body answers for the arguments its area carries. -/
theorem takeNow_wide (d : Device) (p : PortId) (tag : Nat) (n : CommandName) (body : Device → List Arg → Device)
    (h : ∀ d args, (∃ area, readArgs n.shape area = some args) → Wide allow d (body d args)) : Wide allow d (d.takeNow p tag n body) := by
  unfold Device.takeNow Device.take
  split
  · exact .refl
  · split
    · exact .refl
    · split
      · dsimp only
        split
        · exact (Change.same (core_reply (Device.setTxn d p tag _) _ _ _ _ _)).wide
        · rename_i args ha
          split
          · exact (Change.same (core_reply (Device.setTxn d p tag _) _ _ _ _ _)).wide
          · exact .of_same (core_setTxn _ _ _ _) (h _ args ⟨_, ha⟩)
      · exact .refl

/-! ### Numbers in bytes -/

theorem leNat_lt (bs : List Byte) : leNat bs < 256 ^ bs.length := by
  induction bs with
  | nil => simp [leNat]
  | cons b bs ih =>
    have := b.isLt
    simp only [leNat, List.length_cons, pow_succ]
    omega

/-- The arguments an area gives have their shapes, and each number fits its width. -/
theorem readArgs_cons {sh : ArgShape} {ss : List ArgShape} {area : List Byte} {args : List Arg}
    (h : readArgs (sh :: ss) area = some args) :
    ∃ a rest, args = a :: rest ∧ readArgs ss (area.drop sh.width) = some rest
      ∧ ∀ n, a = .num n → ∃ w, sh = .num w ∧ n < 256 ^ w := by
  unfold readArgs at h
  split at h
  · cases h
  · dsimp only at h
    rcases hr : readArgs ss (area.drop sh.width) with _ | rest
    · rw [hr] at h; cases h
    · rw [hr] at h
      cases h
      refine ⟨_, rest, rfl, rfl, ?_⟩
      intro n hn
      cases sh with
      | num w =>
        cases hn
        refine ⟨w, rfl, lt_of_lt_of_le (leNat_lt _) (Nat.pow_le_pow_right (by decide) ?_)⟩
        simp
      | text => cases hn

/-! ### Calendar -/

theorem CalTime.nextSecond_valid {t : CalTime} (h : t.valid = true) (hl : t ≠ .last) : t.nextSecond.valid = true := by
  obtain ⟨y, mo, dd, hh, mi, se⟩ := t
  simp only [CalTime.valid, Bool.and_eq_true, decide_eq_true_eq] at h
  have hm : ∀ y m, 28 ≤ monthLength y m := by
    intro y m
    unfold monthLength
    repeat' split
    all_goals omega
  have := hm y mo
  unfold CalTime.nextSecond
  dsimp only
  split
  · simp only [CalTime.valid, Bool.and_eq_true, decide_eq_true_eq]; omega
  · split
    · simp only [CalTime.valid, Bool.and_eq_true, decide_eq_true_eq]; omega
    · split
      · simp only [CalTime.valid, Bool.and_eq_true, decide_eq_true_eq]; omega
      · unfold CalTime.nextDay
        dsimp only
        split
        · simp only [CalTime.valid, Bool.and_eq_true, decide_eq_true_eq]; omega
        · split
          · have := hm y (mo + 1)
            simp only [CalTime.valid, Bool.and_eq_true, decide_eq_true_eq]; omega
          · have := hm (y + 1) 1
            simp only [CalTime.valid, Bool.and_eq_true, decide_eq_true_eq]
            have hd : monthLength y mo = 31 ∨ ¬ mo = 12 := by
              by_cases hmo : mo = 12
              · left; subst hmo; rfl
              · exact .inr hmo
            have : ¬ (y = 2199) := by
              intro hy
              apply hl
              simp only [CalTime.last, CalTime.mk.injEq]
              omega
            omega

theorem undate_change (d : Device) (a : Nat) : Change d (d.undate a) :=
  .after (.same rfl) (setAccount_change d a _ (.undated rfl rfl rfl rfl rfl rfl))

theorem wrapClock_wide (d : Device) (ha : allow .calendar) : Wide allow d d.wrapClock := by
  have hc (e : Device) (he : e.core = { d.core with time := .origin, valid := false }) : Wide allow d e :=
    .one (he ▸ Extra.calendar d.core .origin false ha fun _ => by decide)
  unfold Device.wrapClock
  dsimp only
  split
  · have h0 : Wide allow d { d with clock := { d.clock with time := .origin, valid := false, graceList := [] } } := hc _ rfl
    have h1 := h0.then (Change.foldl Device.undate d.clock.graceList (fun d a => undate_change d a) _)
    exact h1.then (notify_change _ _ _ _)
  · exact hc _ rfl

theorem secondTick_wide (d : Device) (ha : allow .calendar) : Wide allow d d.secondTick.1 := by
  unfold Device.secondTick
  dsimp only
  split
  · exact .of_same (show d.reachSecond.core = d.core from rfl) (wrapClock_wide _ ha)
  · rename_i hl
    have h : Wide allow d { d.reachSecond with clock := { d.reachSecond.clock with time := d.reachSecond.clock.time.nextSecond } } :=
      .one (Extra.calendar d.core _ d.clock.valid ha fun hv => CalTime.nextSecond_valid hv hl)
    split
    · exact h.then (expiryScan_change _ _)
    · exact h

theorem dateAccount_wide (d : Device) (a : Nat) : Wide allow d (d.dateAccount a) :=
  (Wide.one (Extra.dates d.core a _ rfl)).then (b := d.setAccount a _) (.same rfl)

theorem loadTime_wide (d : Device) (hal : allow .calendar) (t : CalTime) (ht : t.valid = true) : Wide allow d (d.loadTime t) := by
  have hc (e : Device) (he : e.core = { d.core with time := t, valid := true }) : Wide allow d e :=
    .one (he ▸ Extra.calendar d.core t true hal fun _ => ht)
  unfold Device.loadTime
  dsimp only
  split
  · exact hc _ rfl
  · exact (hc _ rfl).trans (.foldl _ _ (fun d a => dateAccount_wide d a) _)

theorem timeSet_wide (d : Device) (ha : allow .calendar) (p : PortId) (tag : Nat) (args : List Arg) : Wide allow d (d.timeSet p tag args) := by
  unfold Device.timeSet
  split
  · dsimp only
    split
    · exact (loadTime_wide _ ha _ (by assumption)).then (.same (core_reply _ _ _ _ _ _))
    · exact (Change.same (core_deny _ _ _ _)).wide
  · exact (Change.same (core_deny _ _ _ _)).wide

/-! ### Accounts and groups -/

theorem releaseGrains_wide (d : Device) (a r : Nat) : Wide allow d (d.releaseGrains a r) := by
  unfold Device.releaseGrains
  dsimp only
  refine Wide.then (Wide.one ?_) (quotaChecks_change _ a)
  exact Extra.release d.core a (d.removedCount a r) _ _ (Nat.min_le_right _ _) rfl rfl

theorem acceptRelease_wide (d : Device) (p : PortId) (h : Header) : Wide allow d (d.acceptRelease p h) := by
  unfold Device.acceptRelease
  exact (Wide.of_same (core_setTxn d _ _ _) (releaseGrains_wide (d.openTxn p h .release [] .admitting none) _ _)).then
    (.same (core_endTxn _ _ _ _ _ _))

theorem moveGroup_wide (d : Device) (a g : Nat) (hg : g ≤ 1023) : Wide allow d (d.moveGroup a g) := by
  unfold Device.moveGroup
  dsimp only
  split
  · exact .refl
  · rename_i hne
    refine .one (Extra.move d.core a g _ _ _ hg (Ne.symm hne) rfl rfl ?_)
    have : (d.setGroup (d.account a).group { d.group (d.account a).group with
        usage := (d.group (d.account a).group).usage - (d.account a).usage
        held := (d.group (d.account a).group).held - (d.account a).held }).group g = d.group g :=
      Table.get_put_other _ _ _ (Ne.symm hne)
    rw [this]
    rfl

theorem loadUsage_wide (d : Device) (a u : Nat) (hu : u ≤ Config.accountMax) : Wide allow d (d.loadUsage a u) := by
  unfold Device.loadUsage
  exact .one (Extra.usage d.core a u _ _ hu rfl rfl)

theorem loadState_change (d : Device) (a : Nat) : Change d (d.loadState a) := by
  unfold Device.loadState
  dsimp only
  split
  · exact .after (.same rfl) (setAccount_change d a _ (.undated rfl rfl rfl rfl rfl rfl))
  · split
    · exact enterGrace_change _ _
    · exact .refl d

theorem loadAccount_wide (d : Device) (a soft hard grace group : Nat) (usage : Option Nat) (hg : group ≤ 1023)
    (hu : ∀ u, usage = some u → u ≤ Config.accountMax) : Wide allow d (d.loadAccount a soft hard grace group usage) := by
  unfold Device.loadAccount
  extract_lets x s old d1 d2 d3 d4 d5 d6
  have h1 : Wide allow d d1 := by
    refine .one (Extra.limits d.core a { d.account a with soft := s, hard := hard, grace := min grace 2160 } rfl ?_
      (Nat.min_le_right _ _))
    dsimp only [s]
    split <;> intro <;> omega
  have h2 : Wide allow d1 d2 := moveGroup_wide _ _ _ hg
  have h3 : Wide allow d2 d3 := by
    dsimp only [d3]
    split
    · exact loadUsage_wide _ _ _ (hu _ rfl)
    · exact .refl
  have h := (h1.trans h2).trans h3
  exact (((h.then (loadState_change _ _)).then (rearmAccount_change _ _)).then (rearmGroup_change _ _)).then
    (rearmGroup_change _ _)

theorem accountLoad_wide (d : Device) (p : PortId) (tag : Nat) (args : List Arg)
    (ha : ∃ area, readArgs CommandName.accountLoad.shape area = some args) : Wide allow d (d.accountLoad p tag args) := by
  unfold Device.accountLoad
  split
  · rename_i a soft hard grace group present usage
    split
    · exact (Change.same (core_deny _ _ _ _)).wide
    · rename_i hg
      refine (loadAccount_wide d a soft hard grace group _ (by omega) ?_).then (.same (core_reply _ _ _ _ _ _))
      intro u hu
      obtain ⟨area, ha⟩ := ha
      obtain ⟨_, _, e1, h1, -⟩ := readArgs_cons ha; cases e1
      obtain ⟨_, _, e2, h2, -⟩ := readArgs_cons h1; cases e2
      obtain ⟨_, _, e3, h3, -⟩ := readArgs_cons h2; cases e3
      obtain ⟨_, _, e4, h4, -⟩ := readArgs_cons h3; cases e4
      obtain ⟨_, _, e5, h5, -⟩ := readArgs_cons h4; cases e5
      obtain ⟨_, _, e6, h6, -⟩ := readArgs_cons h5; cases e6
      obtain ⟨_, _, e7, h7, hw⟩ := readArgs_cons h6; cases e7
      obtain ⟨w, hw', hlt⟩ := hw usage rfl
      cases hw'
      split at hu
      · cases hu
      · cases hu
        simp only [Config.accountMax]
        omega
  · exact (Change.same (core_deny _ _ _ _)).wide

theorem groupLoad_wide (d : Device) (p : PortId) (tag : Nat) (args : List Arg) : Wide allow d (d.groupLoad p tag args) := by
  unfold Device.groupLoad
  split
  · split
    · exact (Change.same (core_deny _ _ _ _)).wide
    · rename_i g l hb
      simp only [badGroupLoad, Bool.or_eq_true, Bool.and_eq_true, decide_eq_true_eq, not_or, not_and] at hb
      refine ((Wide.one (b := d.setGroup g { d.group g with limit := l }) ?_).then (rearmGroup_change _ _)).then
        (.same (core_reply _ _ _ _ _ _))
      exact Extra.limit d.core g l (fun hg => by have := hb.2 hg; omega) (by omega)
  · exact (Change.same (core_deny _ _ _ _)).wide

/-! ### Ports, pool, volumes, notices -/

theorem setPort_wide (d : Device) (p : PortId) (x : Port)
    (h1 : (x.role = (d.port p).role ∧ x.reload = (d.port p).reload) ∨ allow .role)
    (h2 : x.link = (d.port p).link ∨ allow (.link p)) : Wide allow d (d.setPort p x) :=
  .one (Extra.port d.core p x h1 h2)

theorem portSet_wide (d : Device) (ha : allow .role) (p : PortId) (tag : Nat) (args : List Arg) : Wide allow d (d.portSet p tag args) := by
  unfold Device.portSet
  repeat' split
  all_goals try exact (Change.same (core_deny _ _ _ _)).wide
  refine (setPort_wide _ _ _ (.inr ha) (.inl ?_)).then (.same (core_reply _ _ _ _ _ _))
  unfold Port.stored
  split <;> rfl

theorem losePool_wide (d : Device) : Wide allow d d.losePool.1 := by
  unfold Device.losePool
  exact .one (Extra.losePool d.core _ fun x r m => by cases x <;> simp)

theorem preserveArea_wide (d : Device) (p : PortId) (tag : Nat) (args : List Arg) : Wide allow d (d.preserveArea p tag args) := by
  unfold Device.preserveArea
  split
  · split
    · exact (Change.same (core_deny _ _ _ _)).wide
    · split
      · exact (Change.same (core_deny _ _ _ _)).wide
      · rename_i hv
        exact (Wide.one (Extra.area d.core _ (not_not.1 hv))).then (.same (core_reply _ _ _ _ _ _))
  · exact (Change.same (core_deny _ _ _ _)).wide

theorem defineRefusal_none {d : Device} {v b c r : Nat} (h : d.defineRefusal v b c r = none) : d.volume? v = none := by
  unfold Device.defineRefusal at h
  split at h
  · cases h
  · split at h
    · cases h
    · rename_i hv
      simpa using hv

theorem volumeDefine_wide (d : Device) (ha : allow .define) (p : PortId) (tag : Nat) (args : List Arg) : Wide allow d (d.volumeDefine p tag args) := by
  unfold Device.volumeDefine
  split
  · split
    · exact (Change.same (core_deny _ _ _ _)).wide
    · exact .one (Extra.define d.core _ _ ha (defineRefusal_none (by assumption)) rfl rfl rfl rfl)
  · exact (Change.same (core_deny _ _ _ _)).wide

theorem noticeRead_wide (d : Device) (p : PortId) (tag : Nat) (args : List Arg) : Wide allow d (d.noticeRead p tag args) := by
  unfold Device.noticeRead
  split
  · split
    · exact (Change.same (core_deny _ _ _ _)).wide
    · split
      · split
        · exact (Wide.one (Extra.take d.core _)).then (.same (core_reply _ _ _ _ _ _))
        · exact (Change.same (core_reply _ _ _ _ _ _)).wide
      · exact .refl
  · exact (Change.same (core_deny _ _ _ _)).wide

/-- The commands that do what only a few do (R1, R46, R47, R49, R62, R167, R170). -/
def allowed : Instr → Special → Prop
  | .secondTick, .calendar => True
  | .timeSet _ _, .calendar => True
  | .portSet _ _, .role => True
  | .serverLinkUp p, .link q => q = p
  | .serverLinkDown p, .link q => q = p
  | .volumeDefine _ _, .define => True
  | _, _ => False

/-- The meaning of every command but RESET_ASSERT and RESET_RELEASE. -/
theorem exec_wide {i : Instr} {s t : State} (h1 : i ≠ .resetAssert) (h2 : ∀ l, i ≠ .resetRelease l)
    (h : exec i s = .next t) : Wide (allowed i) s.dev t.dev := by
  by_cases hi : ordinary i = true
  · exact (exec_change hi h).wide
  · cases i with
    | release p hd =>
      simp only [exec, execRelease] at h
      refine event_wide h ?_
      unfold Device.onUpPort
      split
      · split
        · exact (Change.same rfl).wide
        · exact acceptRelease_wide _ _ _
      · exact .refl
    | serverLinkUp p =>
      simp only [exec, execServerLinkUp] at h
      refine event_wide h ?_
      split
      · exact setPort_wide _ _ _ (.inl ⟨rfl, rfl⟩) (.inr rfl)
      · exact .refl
    | serverLinkDown p =>
      simp only [exec, execServerLinkDown] at h
      refine event_wide h ?_
      split
      · have h : Wide (allowed (.serverLinkDown p)) s.dev (s.dev.setPort p { s.dev.port p with link := .down }) :=
          setPort_wide _ _ _ (.inl ⟨rfl, rfl⟩) (.inr rfl)
        exact (h.then (discardPort_change _ _)).then (settle_change _)
      · exact .refl
    | poolLinkDown =>
      simp only [exec, execPoolLinkDown] at h
      refine event_wide h ?_
      split
      · exact (losePool_wide _).then (settle_change _)
      · exact .refl
    | poolLinkUp =>
      simp only [exec, execPoolLinkUp] at h
      exact event_wide h (.one (Extra.poolUp s.dev.core))
    | secondTick =>
      simp only [exec, execSecondTick] at h
      exact event_wide h ((secondTick_wide _ trivial).then (settle_change _))
    | portSet p tag =>
      simp only [exec, execPortSet] at h
      exact event_wide h (takeNow_wide _ _ _ _ _ fun d a _ => portSet_wide d trivial _ _ a)
    | timeSet p tag =>
      simp only [exec, execTimeSet] at h
      exact event_wide h (takeNow_wide _ _ _ _ _ fun d a _ => timeSet_wide d trivial _ _ a)
    | accountLoad p tag =>
      simp only [exec, execAccountLoad] at h
      exact event_wide h (takeNow_wide _ _ _ _ _ fun d a ha => accountLoad_wide d _ _ a ha)
    | groupLoad p tag =>
      simp only [exec, execGroupLoad] at h
      exact event_wide h (takeNow_wide _ _ _ _ _ fun d a _ => groupLoad_wide d _ _ a)
    | preserveArea p tag =>
      simp only [exec, execPreserveArea] at h
      exact event_wide h (takeNow_wide _ _ _ _ _ fun d a _ => preserveArea_wide d _ _ a)
    | volumeDefine p tag =>
      simp only [exec, execVolumeDefine] at h
      exact event_wide h (takeNow_wide _ _ _ _ _ fun d a _ => volumeDefine_wide d trivial _ _ a)
    | noticeRead p tag =>
      simp only [exec, execNoticeRead] at h
      exact event_wide h (takeNow_wide _ _ _ _ _ fun d a _ => noticeRead_wide d _ _ a)
    | resetAssert => exact absurd rfl h1
    | resetRelease l => exact absurd rfl (h2 l)
    | _ => exact absurd rfl hi

/-! ### Invariants -/

/-- No command but those of the RESET# line changes whether RESET# is low. -/
theorem Extra.resetLow {c c' : Core} (h : Extra allow c c') : c'.resetLow = c.resetLow := by
  cases h with
  | prim _ hp => cases hp <;> rfl
  | _ => rfl

/-- What every single change keeps is kept. -/
theorem Wide.kept (P : Core → Prop) (hp : ∀ c c', Extra allow c c' → P c → P c') {d d' : Device} (h : Wide allow d d')
    (hd : P d.core) : P d'.core := by
  unfold Wide at h
  generalize d'.core = c at h ⊢
  induction h with
  | refl => exact hd
  | tail _ he ih => exact hp _ _ he ih

/-- What every single change of a part whose RESET# is high, and the RESET# line, keep, every step keeps. -/
theorem step_kept (P : Core → Prop)
    (hp : ∀ allow c c', c.resetLow = false → Extra allow c c' → P c → P c')
    (hr : ∀ d : Device, P d.fullReset.core)
    (hl : ∀ (d : Device) (l : Lines), d.resetLow = true → P d.core → P (d.release l).core) {s t : State}
    (hs : P s.dev.core) (h : step s = .next t) : P t.dev.core := by
  unfold step at h
  split at h
  · cases h; exact hs
  · rename_i i rest _
    by_cases h1 : i = .resetAssert
    · subst h1; cases h; exact hr _
    · by_cases h2 : ∃ l, i = .resetRelease l
      · obtain ⟨l, rfl⟩ := h2
        simp only [exec, execResetRelease] at h
        cases h
        split
        · exact hl _ _ (by assumption) hs
        · exact hs
      · have h2 : ∀ l, i ≠ .resetRelease l := fun l hl => h2 ⟨l, hl⟩
        cases hlow : s.dev.resetLow with
        | true =>
          obtain ⟨f, hf⟩ := exec_event i { s with pending := rest } h1 h2
          rw [hf, event_low (s := { s with pending := rest }) f hlow] at h
          cases h
          exact hs
        | false =>
          refine ((exec_wide h1 h2 h).kept (fun c => c.resetLow = false ∧ P c) ?_ ⟨hlow, hs⟩).2
          exact fun c c' he hc => ⟨he.resetLow.trans hc.1, hp _ c c' hc.1 he hc.2⟩

/-- A change of a volume's record keeps it sound. -/
theorem VolumeStep.sound {x y : Volume} (h : VolumeStep x y) (hx : x.Sound) : y.Sound := by
  obtain ⟨s1, s2, s3, s4, s5, s6⟩ := hx
  refine ⟨?_, ?_, ?_, ?_, ?_, ?_⟩
  · rcases h.epoch with ⟨_, hs⟩ | ⟨_, hs, _⟩
    · exact s1.sublist hs
    · rw [hs, List.pairwise_append]
      exact ⟨s1, by simp, by simpa using s2⟩
  · rcases h.epoch with ⟨he, hs⟩ | ⟨he, hs, _⟩
    · intro n hn; rw [he]; exact s2 n (hs.subset hn)
    · intro n hn
      rw [hs] at hn
      rcases List.mem_append.1 hn with hn | hn
      · have := s2 n hn; omega
      · simp at hn; omega
  · rcases h.epoch with ⟨_, hs⟩ | ⟨_, hs, _, c, hc, hr⟩
    · have := hs.length_le; simp at this; omega
    · have h1 := congrArg List.length hs
      have := (s5 c hc).2 hr
      simp at h1
      simp only [Config.snapshotRecords] at *
      omega
  · rcases h.epoch with ⟨he, _⟩ | ⟨he, _, _, c, hc, hr⟩
    · rw [he]; exact s4
    · have := (s5 c hc).1
      simp only [Config.lastEpoch] at *
      omega
  · intro c hc
    obtain ⟨h1, h2, h3⟩ := h.cut c hc
    refine ⟨?_, ?_⟩
    · rw [h2]
      rcases h1 with h1 | h1
      · obtain ⟨c', hc'⟩ := Option.isSome_iff_exists.1 h1
        exact (s5 c' hc').1
      · have := s4.2; omega
    · intro hr
      rcases h3 hr with ⟨c', hc', hr'⟩ | h
      · have := (s5 c' hc').2 hr'
        rcases h.epoch with ⟨_, hs⟩ | ⟨he, _⟩
        · have := hs.length_le; simp at this; omega
        · omega
      · exact h
  · rw [h.fill]
    rcases h.grains with hg | ⟨g, e, hg⟩
    · rw [hg]; exact s6
    · rw [hg]; exact s6.put g e

/-- What every single change keeps, the consequences of an event keep. -/
theorem Change.kept (P : Core → Prop) (hp : ∀ c c', Prim c c' → P c → P c') {d d' : Device} (h : Change d d')
    (hd : P d.core) : P d'.core := by
  unfold Change at h
  generalize d'.core = c at h ⊢
  induction h with
  | refl => exact hd
  | tail _ he ih => exact hp _ _ he ih

end Sys2Proof.Machine
end

