-- ==== Sys2Proof/WellFormed.lean ====
section
/-! DEFINITION. Which commands can arrive: the ranges that the widths of chapter 11 and the tables' sizes give. -/

namespace Sys2Proof

/-- The header fields lie in their widths and the frame has at least the 6 bytes that make it readable (R185). -/
def Header.wf (h : Header) : Bool :=
  6 ≤ h.delivered && h.length < 4294967296 && h.tag < 256 && h.volume < 256 && h.declared < 256 && h.account < 65536
    && h.blocks < 65536 && h.released < 65536 && h.first < 18446744073709551616

/-- A tag of an open transaction (R2). -/
def tagWf (tag : Nat) : Bool := tag < 32

/-- A volume number (terms). -/
def volumeWf (v : Nat) : Bool := 1 ≤ v && v ≤ 64

/-- A WRITE's payload is what was delivered after the header. -/
def payloadWf (h : Header) (payload : List Byte) : Bool := payload.length = h.delivered - 24

/-- A MGMT frame's name and argument area are what was delivered from offsets 24 and 40. -/
def areaWf (h : Header) (name area : List Byte) : Bool :=
  name.length = min 16 (h.delivered - 24) && area.length = h.delivered - 40

/-- The data of a POOL DONE: whole blocks, and none with a failure (R9). -/
def poolDataWf (st : PoolStatus) (data : List Byte) : Bool :=
  data.length % Config.blockBytes = 0 && (st = .ok || data = [])

/-- A kind byte that is none of 01h to 04h (R185). -/
def kindWf (kind : Byte) : Bool := kind = 0 || kind.toNat > 4

/-- A frame the peer sends that cannot be read (R187). -/
def unreadableWf (bytes : List Byte) : Bool := decodePeerFrame bytes = .unreadablePeerFrame bytes

/-- A command can arrive as it is written. -/
def Instr.wf : Instr → Bool
  | .read _ h => h.wf
  | .write _ h payload => h.wf && payloadWf h payload
  | .release _ h => h.wf
  | .mgmtFrame _ h name area => h.wf && areaWf h name area
  | .runtFrame _ bytes => bytes.length < 6
  | .unknownCommand _ tag => tagWf tag
  | .serverLinkUp _ => true
  | .serverLinkDown _ => true
  | .poolDone _ st data => poolDataWf st data
  | .poolTimeout _ => true
  | .quarantineEnd _ => true
  | .poolLinkDown => true
  | .poolLinkUp => true
  | .secondTick => true
  | .graceExpiry a => a < 65536
  | .quarterSecondTick => true
  | .livenessExpiry _ => true
  | .mapFillEnd v => volumeWf v
  | .removalEnd v => volumeWf v
  | .cutCompletion v => volumeWf v
  | .drainTimeout v => volumeWf v
  | .sweepVisit v => volumeWf v
  | .retirementEnd v => volumeWf v
  | .retryDue _ => true
  | .passStart => true
  | .grainMakeReady => true
  | .placementEnd _ => true
  | .transmissionEnd => true
  | .batchIdleClose => true
  | .ackTimeout q => q < 256
  | .sweepEnd => true
  | .drainEnd => true
  | .passEndTimeout => true
  | .peerStatus _ => true
  | .ack q => q < 256
  | .refuse q _ => q < 256
  | .passAck target snapshot => target < 65536 && snapshot < 4294967296
  | .attentionFromPeer code => code < 65536
  | .unreadablePeerFrame bytes => unreadableWf bytes
  | .offsiteLinkUp => true
  | .offsiteLinkDown => true
  | .silenceTimeout => true
  | .identify _ tag => tagWf tag
  | .keepalive _ tag => tagWf tag
  | .portSet _ tag => tagWf tag
  | .portRead _ tag => tagWf tag
  | .fence _ tag => tagWf tag
  | .unfence _ tag => tagWf tag
  | .pathReset _ tag => tagWf tag
  | .timeSet _ tag => tagWf tag
  | .timeRead _ tag => tagWf tag
  | .scheduleSet _ tag => tagWf tag
  | .scheduleRead _ tag => tagWf tag
  | .accountLoad _ tag => tagWf tag
  | .accountRead _ tag => tagWf tag
  | .groupLoad _ tag => tagWf tag
  | .groupRead _ tag => tagWf tag
  | .preserveArea _ tag => tagWf tag
  | .volumeDefine _ tag => tagWf tag
  | .volumeRead _ tag => tagWf tag
  | .volumeRemove _ tag => tagWf tag
  | .reserveSet _ tag => tagWf tag
  | .cut _ tag => tagWf tag
  | .retire _ tag => tagWf tag
  | .snapshotList _ tag => tagWf tag
  | .restore _ tag => tagWf tag
  | .restoreStatus _ tag => tagWf tag
  | .restoreCancel _ tag => tagWf tag
  | .enrol _ tag => tagWf tag
  | .duplicateNow _ tag => tagWf tag
  | .pacingSet _ tag => tagWf tag
  | .stagingSet _ tag => tagWf tag
  | .passStatus _ tag => tagWf tag
  | .passStop _ tag => tagWf tag
  | .signalPeer _ tag => tagWf tag
  | .noticeRead _ tag => tagWf tag
  | .resetAssert => true
  | .resetRelease _ => true
  | .malformedFrame _ kind _ => kindWf kind

end Sys2Proof
end

