-- ==== Sys2Proof/Tests/Slice0.lean ====
section
/-! SUPPORT. The author's own tests: an ill-formed command for each check, small one-step tests with values from the
spec's worked cases, and for each statement with hypotheses a witness: its clauses applied to concrete states and
operands that meet all their hypotheses. -/

namespace Sys2Proof.Tests

open Sys2Proof Sys2Proof.Machine

/-! ### The states the tests start from -/

/-- Every line with a link. -/
def linesUp : Lines := { server := Vector.replicate 4 true, pool := true, offsite := true }

/-- The part with every link UP and nothing defined. -/
def d0 : Device := { Device.reset with
  ports := Vector.ofFn fun p : PortId => { Port.initial (if p = 0 then .manager else .data) with link := .up }
  pool := { Pool.initial with link := .up }
  dup := { Duplication.initial with link := .up } }

/-- A READY volume of 16 grains at pool block 0, E = 3, with no snapshot and every grain unwritten. -/
def vol : Volume :=
  { state := .ready, base := 0, capacity := 16, epoch := 3, reserve := 4, slotsHeld := 0, reserveArmed := true
    cut := none, inFlight := 0, retention := 0, enrolment := .none, target := none, anchor := 0, report := none
    fill := 0, grains := [], snapshots := [], slotWait := [], sweeps := [], sweepAt := none, sweepFreed := 0
    answers := none }

/-- An ACTIVE MANUAL snapshot of pin count 0. -/
def snap (n : Nat) : Snapshot :=
  { number := n, kind := .manual, cutTime := none, state := .active, pins := 0, answers := none }

/-- A cut record of a command in port 0 tag 0. -/
def cutRec : CutRecord :=
  { kind := .manual, requester := .command { port := 0, tag := 0 }, acceptedAt := none, drainEnds := 2000, room := .have }

/-- The part with a preserve area of 100 slots at block 1000 and volume 1. -/
def withVol (x : Volume) : Device := { d0 with
  area := some { base := 1000, slots := 100 }, volumes := [(1, x)]
  pres := { table := [], map := [], free := [0, 1, 2], readerWait := [] } }

def run (d : Device) (l : List Instr) : State := { dev := d, pending := l }

/-- The state after a command. -/
def after (i : Instr) (s : State) : State :=
  match exec i s with
  | .next t => t
  | _ => s

theorem exec_after (i : Instr) (s : State) : exec i s = .next (after i s) := by cases i <;> rfl

theorem step_after {s : State} {i : Instr} {rest : List Instr} (h : s.pending = i :: rest) :
    step s = .next (after i { s with pending := rest }) := by
  unfold step; rw [h]; exact exec_after _ _

/-- A one-block READ or WRITE header: tag 3, volume 1, block 0, account 7. -/
def hdr : Header :=
  { delivered := 24, length := 24, tag := 3, volume := 1, declared := 0, account := 7, blocks := 1, released := 0
    first := 0 }

def block : List Byte := zeros 4096

/-- The header of a one-block WRITE. -/
def hdrW : Header := { hdr with delivered := 4120, length := 4120 }

/-- A MGMT transaction that holds an untaken command. -/
def cmd (n : CommandName) (area : List Byte) : Txn :=
  { kind := .mgmt, owed := true, command := some { name := padded n.text, area := area }
    job := { volume := 0, account := 0, first := 0, blocks := 0, declared := 0, payload := [], stage := .command
             charge := none, epoch := none, waits := [] } }

/-- The part with that command waiting in port 0 (MANAGER) tag 0. -/
def ask (d : Device) (n : CommandName) (area : List Byte) : State :=
  { dev := { d with txns := [(0, cmd n area)] }, pending := [] }

theorem asked {d : Device} {n : CommandName} {area : List Byte} {args : List Arg}
    (h : d.resetLow = false ∧ ((d.port 0).role = .manager ∨ n.forData = true)
      ∧ Command.isNamed { name := padded n.text, area := area } n = true ∧ readArgs n.shape area = some args) :
    (ask d n area).Issued 0 0 n (cmd n area) args :=
  ⟨h.1, rfl, ⟨_, rfl, h.2.2.1, h.2.2.2⟩, h.2.1⟩

/-- The last record of the log of sent frames. -/
def sentLast (s : State) : Option Output := s.dev.out.getLast?

/-! ### Witnesses: stepping, reset and what every step keeps -/

theorem witness_StepTakesFrontCommand :
    (run d0 [.poolLinkDown, .secondTick]).pending = .poolLinkDown :: [.secondTick] ∧ (run d0 []).pending = [] := by decide

theorem witness_ResetLine (h : Obligations.ResetLine) :
    exec .poolLinkUp (run { d0 with resetLow := true } []) = .next (run { d0 with resetLow := true } [])
    ∧ exec (.resetRelease linesUp) (run d0 []) = .next (run d0 [])
    ∧ ∃ t, exec (.resetRelease linesUp) (run { d0 with resetLow := true } []) = .next t :=
  ⟨(h _ linesUp).1 _ rfl (by simp) (by simp), (h _ _).2.2.1 rfl, _, (h _ _).2.2.2 rfl⟩

theorem witness_FullResetValues (h : Obligations.FullResetValues) :
    State.reset.dev.txns = [] ∧ (after .resetAssert (run d0 [])).dev.txns = [] :=
  ⟨(h _ (.inl rfl)).1.1, (h _ (.inr ⟨_, _, exec_after _ _, rfl⟩)).1.1⟩

/-- The notice queue full, at its bound of 64. -/
def fullQueue : Device := { d0 with
  mgmt.notices := List.replicate 64 { kind := .poolDown, time := none, subject := .absent, value := .number 0 }
  mgmt.attnLow := true }

theorem witness_NoticeQueueKept (h : Obligations.NoticeQueueKept) :
    (after .poolLinkDown (run fullQueue [])).dev.mgmt.Sound :=
  h (run fullQueue [.poolLinkDown]) _ ⟨by decide, by decide⟩ (step_after rfl)

/-- A reserved tag BUSY for a PRESERVE request, at the greatest streak. -/
def pool60 : Pool :=
  { tags := Vector.ofFn fun t : PoolTagId => if t = 60 then .busy (.preserve 1 0) 0 else .free
    preserveQ := [], pathQ := [], copyQ := [], streak := 3, link := .up }

theorem pool60_busy {t : PoolTagId} {r : Requester} {m : Nat} (h : pool60.tags[t] = .busy r m) :
    r = .preserve 1 0 := by
  simp only [pool60, Fin.getElem_fin, Vector.getElem_ofFn] at h
  split at h
  · cases h; rfl
  · cases h

theorem witness_PoolInvariantsKept (h : Obligations.PoolInvariantsKept) :
    (after .secondTick (run { d0 with pool := pool60 } [])).dev.pool.Orderly
    ∧ (after .secondTick (run Device.reset [])).dev.QuietWhenDown := by
  refine ⟨h.1 (run { d0 with pool := pool60 } [.secondTick]) _ ?_ (step_after rfl),
    h.2 (run Device.reset [.secondTick]) _ ?_ (step_after rfl)⟩
  · refine ⟨by decide, by decide, by decide, ?_, by decide⟩
    intro t r m _ hb
    rw [pool60_busy hb]; rfl
  · intro _
    refine ⟨rfl, rfl, rfl, ?_⟩
    intro t r m hb
    simp [run, Device.reset, Pool.initial] at hb

/-- An account at the greatest usage and group number, and its group. -/
def fullAccount : Device := { d0 with
  accounts := [(7, { Account.initial with soft := 5, hard := 5, grace := 2160, group := 1023, usage := 4294967295 })]
  groups := [(1023, { Group.initial with limit := 281474976710655, usage := 4294967295 })] }

theorem fullAccount_account (a : Nat) : fullAccount.account a =
    if a = 7 then { Account.initial with soft := 5, hard := 5, grace := 2160, group := 1023, usage := 4294967295 }
    else Account.initial := by
  by_cases h : a = 7
  · subst h; rfl
  · simp [fullAccount, Device.account, Table.get, Table.find, h, Ne.symm h]

theorem fullAccount_group (g : Nat) : fullAccount.group g =
    if g = 1023 then { Group.initial with limit := 281474976710655, usage := 4294967295 } else Group.initial := by
  by_cases h : g = 1023
  · subst h; rfl
  · simp [fullAccount, Device.group, Table.get, Table.find, h, Ne.symm h]

theorem witness_QuotaInvariantsKept (h : Obligations.QuotaInvariantsKept) :
    (after .secondTick (run fullAccount [])).dev.QuotaSound ∧ (after .secondTick (run fullAccount [])).dev.UsageSums := by
  refine ⟨h.1 (run fullAccount [.secondTick]) _ ?_ (step_after rfl),
    h.2 (run fullAccount [.secondTick]) _ ?_ (step_after rfl)⟩
  · refine ⟨by decide, by decide, fun a => ?_, by decide, fun g => ?_⟩
    · show (fullAccount.account a).Sound
      rw [fullAccount_account]
      split <;> exact ⟨by decide, by decide, by decide, by decide, by decide, by decide⟩
    · show (fullAccount.group g).limit ≤ _
      rw [fullAccount_group]
      split <;> decide
  · refine ⟨by decide, fun a => ?_, fun g => ?_⟩
    · show (fullAccount.account a).usage ≤ _
      rw [fullAccount_account]
      split <;> decide
    · show (fullAccount.group g).usage = fullAccount.memberUsage g
      rw [fullAccount_group]
      by_cases hg : g = 1023
      · subst hg; decide
      · simp [hg, Device.memberUsage, fullAccount, Group.initial, Ne.symm hg]

/-- A volume with 16 records, at the last epoch. -/
def volLast : Volume := { vol with
  epoch := 16777215, grains := [(3, 5)], snapshots := (List.range 16).map fun n => snap (16777199 + n) }

theorem witness_VolumesKept (h : Obligations.VolumesKept) :
    (after .secondTick (run (withVol volLast) [])).dev.VolumesSound := by
  refine h (run (withVol volLast) [.secondTick]) _ ⟨by decide, fun v x hx => ?_⟩ (step_after rfl)
  have : x = volLast := by
    simp only [run, withVol, Device.volume?, Table.find] at hx
    split at hx <;> simp_all
  subst this
  exact ⟨by decide, by decide, by decide, by decide, fun c hc => (by cases hc), by decide⟩

/-- The last second of the calendar. -/
def lastSecond : CalTime := { year := 2199, month := 12, day := 31, hour := 23, minute := 59, second := 59 }

theorem witness_CalendarKept (h : Obligations.CalendarKept) :
    (after .secondTick (run { d0 with clock.time := lastSecond } [])).dev.clock.time.valid = true :=
  h (run { d0 with clock.time := lastSecond } [.secondTick]) _ (by decide) (step_after rfl)

theorem witness_OnlyClockCommandsMoveCalendar (h : Obligations.OnlyClockCommandsMoveCalendar) :
    (after .quarterSecondTick (run d0 [])).dev.clock.time = d0.clock.time :=
  (h .quarterSecondTick (run d0 []) _ ⟨by simp, by simp, by simp⟩ (exec_after _ _)).1

theorem witness_OnlyPortSetChangesRoles (h : Obligations.OnlyPortSetChangesRoles) :
    ((after (.serverLinkDown 1) (run d0 [])).dev.port 1).role = .data
    ∧ ((after (.serverLinkDown 1) (run d0 [])).dev.port 0).link = .up :=
  ⟨((h (.serverLinkDown 1) (run d0 []) _ 1 (exec_after _ _) (by simp)).1 (by simp)).1.trans (by decide),
    ((h (.serverLinkDown 1) (run d0 []) _ 0 (exec_after _ _) (by simp)).2 (by simp) (by simp) (by simp)).trans (by decide)⟩

/-- The command that defines volume 1: 16 grains at block 0, no reserve. -/
def defineOne : State := ask { d0 with area := some { base := 1000, slots := 100 } } .volumeDefine
  (leBytes 1 1 ++ leBytes 8 0 ++ leBytes 4 16 ++ leBytes 4 0 ++ leBytes 1 0 ++ leBytes 1 0)

theorem witness_VolumeKeepsPlaceAndEpochRises :
    (after .secondTick (run (withVol vol) [])).dev.volume? 1 = some vol
    ∧ (after (.volumeDefine 0 0) defineOne).dev.volume? 1 ≠ none := by decide

/-! ### Witnesses: the frames of the servers -/

/-- The part with tag 3 of port 0 IN USE. -/
def tagUsed : Device := { withVol vol with txns := [(3, cmd .identify [])] }

def fencedPort (d : Device) : Device := { d with ports := d.ports.set 0 { d.port 0 with fence := some .liveness } }

theorem witness_DataFramesRefused (h : Obligations.DataFramesRefused) :
    let sends (d : Device) (f : Header) : Prop := ∃ t, exec (.read 0 f) (run d []) = .next t
    sends (withVol vol) { hdr with blocks := 257 } ∧ sends tagUsed hdr ∧ sends (fencedPort (withVol vol)) hdr
    ∧ sends { withVol vol with pool.link := .down } hdr ∧ sends d0 hdr
    ∧ sends (withVol { vol with state := .removing }) hdr ∧ sends (withVol { vol with state := .preparing }) hdr
    ∧ sends (withVol vol) { hdr with first := 128 }
    ∧ ∃ t, exec (.write 0 { hdrW with declared := 34 } block) (run (withVol vol) []) = .next t := by
  have r : ∀ f : Header, (Instr.read 0 f = .read 0 f ∧ (1 : Byte) = 1 ∧ f.badRead = f.badRead)
      ∨ (Instr.read 0 f = .write 0 f [] ∧ (1 : Byte) = 2 ∧ f.badRead = f.badWrite []) := fun f => .inl ⟨rfl, rfl, rfl⟩
  exact ⟨⟨_, (h _ _ _ _ _ _ _ (r _) rfl (by decide)).1 (by decide)⟩,
    ⟨_, (h _ _ _ _ _ _ _ (r _) rfl (by decide)).2.1 (by decide) (by decide)⟩,
    ⟨_, (h _ _ _ _ _ _ _ (r _) rfl (by decide)).2.2.1 (by decide) (by decide) (by decide)⟩,
    ⟨_, ((h _ _ _ _ _ _ _ (r _) rfl (by decide)).2.2.2 (by decide) (by decide) (by decide)).1 (by decide)⟩,
    ⟨_, (((h _ _ _ _ _ _ _ (r _) rfl (by decide)).2.2.2 (by decide) (by decide) (by decide)).2 (by decide)).1
      (by decide)⟩,
    ⟨_, ((((h _ _ _ _ _ _ _ (r _) rfl (by decide)).2.2.2 (by decide) (by decide) (by decide)).2 (by decide)).2 _ rfl).1
      (by decide)⟩,
    ⟨_, ((((h _ _ _ _ _ _ _ (r _) rfl (by decide)).2.2.2 (by decide) (by decide) (by decide)).2 (by decide)).2 _ rfl).2.1
      (by decide)⟩,
    ⟨_, ((((h _ _ _ _ _ _ _ (r _) rfl (by decide)).2.2.2 (by decide) (by decide) (by decide)).2 (by decide)).2 _ rfl).2.2
      (by decide) (by decide)⟩,
    ⟨_, (h _ _ _ _ _ 2 _ (.inr ⟨rfl, rfl, rfl⟩) rfl (by decide)).1 (by decide)⟩⟩

theorem witness_ReleaseAndMgmtRefused (h : Obligations.ReleaseAndMgmtRefused) :
    let f : Header := { hdr with released := 1, blocks := 0 }
    let m : Header := { hdr with delivered := 40, length := 40, volume := 0, blocks := 0 }
    let sends (d : Device) (i : Instr) : Prop := ∃ t, exec i (run d []) = .next t
    sends (withVol vol) (.release 0 { f with released := 0 }) ∧ sends tagUsed (.release 0 f)
    ∧ sends (fencedPort (withVol vol)) (.release 0 f) ∧ sends d0 (.mgmtFrame 0 { m with delivered := 39 } [] [])
    ∧ sends tagUsed (.mgmtFrame 0 m [] []) ∧ sends (fencedPort d0) (.mgmtFrame 0 m (ascii "PORT READ") [])
    ∧ sends (fencedPort d0) (.mgmtFrame 0 m (padded "UNFENCE") [0]) ∧ sends d0 (.mgmtFrame 0 m (padded "CUT") []) :=
  ⟨⟨_, (h _ _ _ [] [] rfl (by decide)).1 (by decide)⟩,
    ⟨_, (h _ _ _ [] [] rfl (by decide)).2.1 (by decide) (by decide)⟩,
    ⟨_, (h _ _ _ [] [] rfl (by decide)).2.2.1 (by decide) (by decide) (by decide)⟩,
    ⟨_, (h _ _ _ [] [] rfl (by decide)).2.2.2.1 (by decide)⟩,
    ⟨_, (h _ _ _ [] [] rfl (by decide)).2.2.2.2.1 (by decide) (by decide)⟩,
    ⟨_, (h _ _ _ _ [] rfl (by decide)).2.2.2.2.2.1 (by decide) (by decide) (by decide) (by decide)⟩,
    ⟨_, (h _ _ _ _ _ rfl (by decide)).2.2.2.2.2.2 (by decide) (by decide) (.inr (by decide))⟩,
    ⟨_, (h _ _ _ _ [] rfl (by decide)).2.2.2.2.2.2 (by decide) (by decide) (.inl (by decide))⟩⟩

theorem witness_DiscardedFrames (h : Obligations.DiscardedFrames) :
    (∃ t, exec (.malformedFrame 0 5 9) (run d0 []) = .next t)
    ∧ exec (.malformedFrame 0 0 0) (run Device.reset []) = .next (run Device.reset []) :=
  ⟨⟨_, (h (run d0 []) 0 hdr [] [] [] 5 9).2.2.1 rfl (by decide)⟩,
    ((h (run Device.reset []) 0 hdr [] [] [] 0 0).2.2.2 (by decide)).1⟩

/-- Every pool tag BUSY. -/
def tagsBusy (d : Device) : Device := { d with pool.tags := Vector.replicate 64 (.busy (.preserve 1 9) 0) }

theorem witness_ReadAccepted (h : Obligations.ReadAccepted) :
    (∃ t, exec (.read 0 hdr) (run (tagsBusy (withVol vol)) []) = .next t)
    ∧ ∃ t, exec (.read 0 { hdr with blocks := 128 }) (run (withVol vol) []) = .next t :=
  ⟨⟨_, (h _ _ _ _ rfl (by decide) (by decide) (by decide) (by decide) (by decide) rfl rfl (by decide)).1
      (by decide) (by decide)⟩,
    ⟨_, (h _ _ _ _ rfl (by decide) (by decide) (by decide) (by decide) (by decide) rfl rfl (by decide)).2 0
      (by decide) (by decide) (by decide) rfl rfl rfl⟩⟩

/-- An account whose hard limit and group limit are 10, with 10 and 9 grains used. -/
def quotaPart (g : Nat) (armed : Bool) : Device := { withVol vol with
  accounts := [(7, { Account.initial with hard := if g = 0 then 10 else 0, group := g, usage := 10, hardArmed := armed })]
  groups := [(5, { Group.initial with limit := 10, usage := 10, fullArmed := armed })] }

theorem goodW (n : Nat) (hn : n ≤ 33) : Header.badWrite { hdrW with declared := n } block = false := by
  have l : block.length = 4096 := List.length_replicate
  simp [Header.badWrite, Header.unreadable, Header.badAddress, Header.badBlocks, hdrW, hdr, l, hn]

theorem witness_WriteHeldOrRefused (h : Obligations.WriteHeldOrRefused) :
    let sends (d : Device) (n : Nat) : Prop :=
      ∃ t, exec (.write 0 { hdrW with declared := n } block) (run d []) = .next t
    sends (withVol { vol with cut := some cutRec }) 1
    ∧ sends { withVol { vol with cut := some cutRec } with cutHold := List.replicate 256 (.slot 0) } 1
    ∧ sends (quotaPart 0 true) 1 ∧ sends (quotaPart 0 false) 33 ∧ sends (quotaPart 5 true) 1
    ∧ sends (quotaPart 5 false) 1 :=
  ⟨⟨_, (h.1 _ _ _ _ _ rfl (by decide) (goodW _ (by decide)) (by decide) (by decide) rfl rfl rfl (by decide) (by decide)).1
      (by decide)⟩,
    ⟨_, (h.1 _ _ _ _ _ rfl (by decide) (goodW _ (by decide)) (by decide) (by decide) rfl rfl rfl (by decide) (by decide)).2
      (by decide +kernel)⟩,
    ⟨_, (h.2 _ _ _ _ _ rfl (by decide) (goodW _ (by decide)) (by decide) (by decide) rfl rfl rfl (by decide) (by decide)).1
      (by decide) (by decide)⟩,
    ⟨_, (h.2 _ _ _ _ _ rfl (by decide) (goodW _ (by decide)) (by decide) (by decide) rfl rfl rfl (by decide) (by decide)).1
      (by decide) (by decide)⟩,
    ⟨_, (h.2 _ _ _ _ _ rfl (by decide) (goodW _ (by decide)) (by decide) (by decide) rfl rfl rfl (by decide) (by decide)).2
      (by decide) (by decide) (by decide) (by decide) (by decide)⟩,
    ⟨_, (h.2 _ _ _ _ _ rfl (by decide) (goodW _ (by decide)) (by decide) (by decide) rfl rfl rfl (by decide) (by decide)).2
      (by decide) (by decide) (by decide) (by decide) (by decide)⟩⟩

theorem witness_ReleaseSettles (h : Obligations.ReleaseSettles) :
    ∃ t, exec (.release 0 { hdr with released := 65535 }) (run (quotaPart 5 true) []) = .next t :=
  (h _ _ _ rfl (by decide) (by decide) (by decide) (by decide)).imp fun _ g => g.1

/-! ### Witnesses: commands, ports, links, clock and quotas -/

/-- A command a DATA port (port 1, tag 0) waits with. -/
def askData (n : CommandName) (area : List Byte) : State := { dev := { d0 with txns := [(32, cmd n area)] }, pending := [] }

/-- A transaction whose command has no catalogue name. -/
def badName : State := { dev := { d0 with txns := [(0, { cmd .cut [] with command := some { name := [65], area := [] } })] }
                         pending := [] }

theorem witness_CommandsRefusedOrAbsent (h : Obligations.CommandsRefusedOrAbsent) :
    (∃ t, exec (.portRead 0 0) (ask d0 .portRead [0]) = .next t)
    ∧ (∃ t, exec (.portRead 1 0) (askData .portRead []) = .next t)
    ∧ (∃ t, exec (.unknownCommand 0 0) badName = .next t)
    ∧ exec (.cut 0 31) (run d0 []) = .next (run d0 []) :=
  ⟨⟨_, (h.1 _ _ 0 0 .portRead _ _ rfl rfl rfl rfl (by decide)).1 (by decide)⟩,
    ⟨_, (h.1 _ _ 1 0 .portRead _ _ rfl rfl rfl rfl (by decide)).2 (by decide) (by decide) (by decide)⟩,
    ⟨_, (h.2 badName 0 0 rfl).1 _ _ rfl rfl (by intro n; cases n <;> decide)⟩,
    (h.2 (run d0 []) 0 31 rfl).2 _ .cut rfl (by intro t c ht; exact absurd ht (by simp [run, d0, Device.reset, Device.txn?, Table.find]))⟩

/-- The offsite link DOWN, and READY with the silence timer at 3 s. -/
def offsite (l : OffsiteLink) : State := run { d0 with dup := { Duplication.initial with link := l } } []

theorem witness_LinksAndPeer (h : Obligations.LinksAndPeer) :
    let gives (i : Instr) (s : State) : Prop := ∃ t, exec i s = .next t
    gives (.serverLinkUp 0) (run Device.reset []) ∧ gives .poolLinkUp (run Device.reset [])
    ∧ gives .offsiteLinkUp (run Device.reset []) ∧ gives .silenceTimeout (offsite .down)
    ∧ gives (.peerStatus false) (offsite .up) ∧ gives (.peerStatus true) (offsite .up)
    ∧ gives .silenceTimeout (offsite (.ready 3000)) ∧ gives (.attentionFromPeer 65535) (offsite .up) :=
  ⟨⟨_, (h.1 _ 0 rfl).1 (by decide)⟩, ⟨_, (h.1 _ 0 rfl).2.1⟩, ⟨_, (h.1 _ 0 rfl).2.2 rfl rfl⟩,
    ⟨_, ((h.2 _ rfl).1 rfl).2.1⟩, ⟨_, ((h.2 _ rfl).2.1 rfl).1⟩,
    ⟨_, ((h.2 _ rfl).2.1 rfl).2.2.2 rfl (by decide) rfl rfl⟩, ⟨_, ((h.2 _ rfl).2.2.1 3000 rfl).2.2.2⟩,
    ⟨_, (h.2 _ rfl).2.2.2 (by decide) _⟩⟩

theorem witness_IdentifyAnswers (h : Obligations.IdentifyAnswers) :
    (∃ t, exec (.identify 0 0) (ask d0 .identify []) = .next t)
    ∧ ∃ t, exec (.identify 1 0) (askData .identify []) = .next t :=
  ⟨⟨_, h _ _ _ _ (asked (by decide))⟩, ⟨_, h _ _ _ _ ⟨rfl, rfl, ⟨_, rfl, by decide, by decide⟩, by decide⟩⟩⟩

/-- Port 2 a second MANAGER. -/
def twoManagers : Device := { d0 with ports := d0.ports.set 2 { d0.port 2 with role := .manager } }

/-- A TIME SET of 2199-12-31 23:59:s. -/
def timeArea (s : Nat) : List Byte := leBytes 2 2199 ++ [12, 31, 23, 59, BitVec.ofNat 8 s]

theorem witness_GroupLoadAndQuotaReads (h : Obligations.GroupLoadAndQuotaReads) :
    let gives (i : Instr) (s : State) : Prop := ∃ t, exec i s = .next t
    gives (.groupLoad 0 0) (ask d0 .groupLoad (leBytes 2 0 ++ leBytes 8 1))
    ∧ gives (.groupLoad 0 0) (ask d0 .groupLoad (leBytes 2 1023 ++ leBytes 8 281474976710655))
    ∧ gives (.accountRead 0 0) (ask d0 .accountRead (leBytes 2 65535))
    ∧ gives (.groupRead 0 0) (ask d0 .groupRead (leBytes 2 1024))
    ∧ gives (.groupRead 0 0) (ask d0 .groupRead (leBytes 2 1023)) := by
  refine ⟨⟨_, (h.1 _ _ _ _ 0 1 (asked (by decide))).1 (.inr (.inr (by decide)))⟩,
    ((h.1 _ _ _ _ 1023 281474976710655 (asked (by decide))).2 (by decide) (by decide) (by decide)).imp fun _ g => g.1,
    ⟨_, ((h.2 _ _ _ _ 65535).1 (asked (by decide))).2 (by decide)⟩,
    ⟨_, ((h.2 _ _ _ _ 1024).2 (asked (by decide))).1 (by decide)⟩,
    ⟨_, ((h.2 _ _ _ _ 1023).2 (asked (by decide))).2 (by decide)⟩⟩

/-! ### Witnesses: volumes and snapshots -/

theorem witness_PreserveAreaSets (h : Obligations.PreserveAreaSets) :
    let sets (d : Device) (base n : Nat) : Prop :=
      ∃ t, exec (.preserveArea 0 0) (ask d .preserveArea (leBytes 8 base ++ leBytes 4 n)) = .next t
    sets d0 68719476736 1 ∧ sets (withVol vol) 0 1 ∧ sets d0 68719476728 1 :=
  ⟨⟨_, (h _ _ _ _ 68719476736 1 (asked (by decide))).1 (by decide)⟩,
    ⟨_, (h _ _ _ _ 0 1 (asked (by decide))).2.1 (by decide) (by decide)⟩,
    ⟨_, (h _ _ _ _ 68719476728 1 (asked (by decide))).2.2 (by decide) rfl⟩⟩

theorem witness_VolumeDefineStarts (h : Obligations.VolumeDefineStarts) :
    let defines (d : Device) (v base capacity reserve : Nat) : Prop :=
      ∃ t, exec (.volumeDefine 0 0) (ask d .volumeDefine
        (leBytes 1 v ++ leBytes 8 base ++ leBytes 4 capacity ++ leBytes 4 reserve ++ [1] ++ [0])) = .next t
    let big : Device := withVol { vol with base := 2000, capacity := 2147483648 }
    defines d0 65 0 1 0 ∧ defines (withVol vol) 1 0 1 0 ∧ defines d0 2 0 1 0 ∧ defines (withVol vol) 64 1799 1 0
    ∧ defines big 2 0 1 0 ∧ defines (withVol vol) 2 1800 1 97 ∧ defines (withVol vol) 64 128 109 96 :=
  ⟨⟨_, (h _ _ _ _ 65 0 1 0 1 0 (asked (by decide))).1 (by decide)⟩,
    ⟨_, (h _ _ _ _ 1 0 1 0 1 0 (asked (by decide))).2.1 (by decide) (by decide)⟩,
    ⟨_, (h _ _ _ _ 2 0 1 0 1 0 (asked (by decide))).2.2.1 (by decide) (by decide) rfl⟩,
    ⟨_, ((h _ _ _ _ 64 1799 1 0 1 0 (asked (by decide))).2.2.2 _ rfl (by decide) rfl).1 (by decide)⟩,
    ⟨_, ((h _ _ _ _ 2 0 1 0 1 0 (asked (by decide))).2.2.2 _ rfl (by decide) rfl).2.1 (by decide) (by decide)⟩,
    ⟨_, ((h _ _ _ _ 2 1800 1 97 1 0 (asked (by decide))).2.2.2 _ rfl (by decide) rfl).2.2.1 (by decide) (by decide)
      (by decide)⟩,
    ⟨_, ((h _ _ _ _ 64 128 109 96 1 0 (asked (by decide))).2.2.2 _ rfl (by decide) rfl).2.2.2 (by decide) (by decide)
      (by decide)⟩⟩

theorem witness_VolumeReadsAnswer (h : Obligations.VolumeReadsAnswer) :
    let reads (v : Nat) : Prop := ∃ t, exec (.volumeRead 0 0) (ask (withVol vol) .volumeRead (leBytes 1 v)) = .next t
    let lists (v : Nat) : Prop :=
      ∃ t, exec (.snapshotList 0 0) (ask (withVol vol) .snapshotList (leBytes 1 v)) = .next t
    reads 65 ∧ reads 64 ∧ lists 0 ∧ lists 1 :=
  ⟨⟨_, ((h _ _ _ _ 65).1 (asked (by decide))).1 (by decide)⟩,
    ⟨_, ((h _ _ _ _ 64).1 (asked (by decide))).2 (by decide) (by decide)⟩,
    ⟨_, ((h _ _ _ _ 0).2 (asked (by decide))).1 (by decide)⟩,
    ⟨_, ((h _ _ _ _ 1).2 (asked (by decide))).2 (by decide) (by decide)⟩⟩

theorem witness_VolumeRemoveStarts (h : Obligations.VolumeRemoveStarts) :
    let removes (d : Device) (v : Nat) : Prop :=
      ∃ t, exec (.volumeRemove 0 0) (ask d .volumeRemove (leBytes 1 v)) = .next t
    removes d0 65 ∧ removes d0 64 ∧ removes (withVol { vol with cut := some cutRec }) 1
    ∧ removes (withVol { vol with snapshots := [{ snap 2 with pins := 1 }] }) 1
    ∧ removes (withVol { vol with inFlight := 1 }) 1 ∧ removes (withVol { vol with snapshots := [snap 2] }) 1 := by
  refine ⟨⟨_, (h _ _ _ _ 65 (asked (by decide))).1 (by decide)⟩,
    ⟨_, (h _ _ _ _ 64 (asked (by decide))).2.1 (by decide) (by decide) rfl⟩,
    ⟨_, ((h _ _ _ _ 1 (asked (by decide))).2.2 _ (by decide) (by decide) rfl).1 (by decide)⟩,
    ⟨_, ((h _ _ _ _ 1 (asked (by decide))).2.2 _ (by decide) (by decide) rfl).2.1 rfl rfl (.inl (by decide))⟩,
    ⟨_, ((h _ _ _ _ 1 (asked (by decide))).2.2 _ (by decide) (by decide) rfl).2.2.1 rfl rfl ?_ (by decide)⟩,
    ⟨_, ((h _ _ _ _ 1 (asked (by decide))).2.2 _ (by decide) (by decide) rfl).2.2.2 rfl rfl ?_ (by decide)⟩⟩
  · rintro (a | a | ⟨q, a, -⟩ | a)
    · revert a; decide
    · revert a; decide
    · cases a
    · revert a; decide
  · rintro (a | a | ⟨q, a, -⟩ | a)
    · revert a; decide
    · revert a; decide
    · cases a
    · revert a; decide

/-- Sixteen records: ACTIVE MANUAL ones but for the first, which is f. -/
def sixteen (f : Snapshot) : Volume := { vol with epoch := 20, snapshots := f :: (List.range 15).map fun n => snap (n + 4) }

theorem witness_RetireStarts (h : Obligations.RetireStarts) :
    let retires (x : Volume) (v k : Nat) : Prop :=
      ∃ t, exec (.retire 0 0) (ask (withVol x) .retire (leBytes 1 v ++ leBytes 4 k)) = .next t
    let one (n : Snapshot) : Volume := { vol with snapshots := [n] }
    retires vol 65 1 ∧ retires vol 64 1 ∧ retires { vol with state := .preparing } 1 2 ∧ retires vol 1 2
    ∧ retires (one { snap 2 with state := .retiring }) 1 2 ∧ retires (one { snap 2 with pins := 1 }) 1 2
    ∧ retires (one (snap 2)) 1 2 :=
  ⟨⟨_, (h _ _ _ _ 65 1 (asked (by decide))).1 (by decide)⟩,
    ⟨_, (h _ _ _ _ 64 1 (asked (by decide))).2.1 (by decide) (by decide) rfl⟩,
    ⟨_, ((h _ _ _ _ 1 2 (asked (by decide))).2.2 _ (by decide) (by decide) rfl).1 (by decide)⟩,
    ⟨_, ((h _ _ _ _ 1 2 (asked (by decide))).2.2 _ (by decide) (by decide) rfl).2.1 rfl (by decide)⟩,
    ⟨_, (((h _ _ _ _ 1 2 (asked (by decide))).2.2 _ (by decide) (by decide) rfl).2.2 _ rfl (by decide)
      (.head _) rfl).1 rfl⟩,
    ⟨_, (((h _ _ _ _ 1 2 (asked (by decide))).2.2 _ (by decide) (by decide) rfl).2.2 _ rfl (by decide)
      (.head _) rfl).2.1 rfl (by decide)⟩,
    ⟨_, (((h _ _ _ _ 1 2 (asked (by decide))).2.2 _ (by decide) (by decide) rfl).2.2 _ rfl (by decide)
      (.head _) rfl).2.2 rfl rfl⟩⟩

/-! ### Witnesses: ports that lose their servers, the pool port, the ticks -/

/-- A server transaction for block 0 of volume 1 in port 1 tag 31. -/
def server (kind : Kind) (stage : Stage) (charge : Option Nat) : Txn :=
  { kind := kind, owed := true, command := none
    job := { volume := 1, account := 7, first := 0, blocks := 1, declared := 0, payload := [], stage := stage
             charge := charge, epoch := some 3, waits := [] } }

def withTxn (d : Device) (t : Txn) : Device := { d with txns := [(63, t)] }

/-- Port 1 with a liveness counter that has reached 0. -/
def silent (d : Device) : Device := { d with ports := d.ports.set 1 { d.port 1 with reload := 255 } }

/-- Pool tag 59 with this state, the others FREE. -/
def withTag (d : Device) (x : PoolTag) : Device := { d with pool.tags := (Vector.replicate 64 .free).set 59 x }

/-- A PATH RESET of port 0 tag 0 that waits for these pool tags. -/
def withReset (d : Device) (l : List PoolTagId) : Device := { d with
  txns := [(0, { cmd .pathReset [] with command := none })]
  mgmt.pathReset := some { txn := { port := 0, tag := 0 }, left := l, aborted := 1, restores := 0, passEnded := false } }

theorem witness_DeadlineIsHoursOfAdvances : lastSecond.valid = true ∧ CalTime.origin.valid = true := by decide

/-- A SWEEPING pass of volume 1 to target 9 that sends what is newer than epoch 1, as of snapshot 2. -/
def pass : Pass :=
  { volume := 1, origin := .window, target := 9, anchor := 1, snapshot := some 2, state := .sweeping
    stopRequested := false, cursor := 0, sent := 0, nextSeq := 0, issuing := true, backlog := [], resends := 0
    startTime := none, passEndWaits := false, passEndTimer := none }

theorem witness_GraceAndLivenessTimers (h : Obligations.GraceAndLivenessTimers) :
    let due (t : CalTime) : Device := { d0 with
      clock.time := t, clock.valid := true, clock.graceList := [65535]
      accounts := [(65535, { Account.initial with soft := 1, state := .soft, usage := 2, deadline := some lastSecond })] }
    exec (.graceExpiry 0) (run d0 []) = .next (run d0 [])
    ∧ (exec (.graceExpiry 65535) (run (due CalTime.origin) []) = .next (run (due CalTime.origin) []))
    ∧ (∃ t, exec (.graceExpiry 65535) (run (due lastSecond) []) = .next t)
    ∧ ∃ t, exec .quarterSecondTick (run { d0 with
        ports := d0.ports.set 1 { d0.port 1 with reload := 1, counter := 1 } } []) = .next t := by
  refine ⟨(h _ rfl).1 0 (.inl rfl), ((h _ rfl).2.1 65535 lastSecond rfl rfl rfl).1 (by decide),
    ((h _ rfl).2.1 65535 lastSecond rfl rfl rfl).2 (by decide) |>.imp fun _ g => g.1, ⟨_, (h _ rfl).2.2 ?_⟩⟩
  intro q _ e he
  cases he

/-! ### Witnesses: work on volumes, cuts and restores -/

/-- The part with a MGMT transaction of port 0 tag 0 whose command is taken. -/
def withTaken (d : Device) : Device := { d with txns := [(0, { cmd .cut [] with command := none })] }

def answerTo : TxnRef := { port := 0, tag := 0 }

theorem witness_FillsAndRemovalsEnd (h : Obligations.FillsAndRemovalsEnd) :
    let gives (i : Instr) (d : Device) : Prop := ∃ t, exec i (run d []) = .next t
    gives (.mapFillEnd 64) d0 ∧ gives (.mapFillEnd 1) (withVol vol)
    ∧ gives (.mapFillEnd 1) (withTaken (withVol { vol with state := .preparing, answers := some answerTo }))
    ∧ gives (.removalEnd 1) (withVol vol) ∧ gives (.removalEnd 1) (withVol { vol with state := .removing, inFlight := 1 })
    ∧ gives (.removalEnd 1) (withTaken (withVol { vol with state := .removing, answers := some answerTo })) := by
  refine ⟨⟨_, ((h _ 64 rfl).1 rfl).1⟩, ⟨_, ((h _ 1 rfl).2 _ rfl).1 (by decide)⟩,
    ⟨_, ((h _ 1 rfl).2 _ rfl).2.1 0 0 _ rfl rfl rfl⟩, ⟨_, ((h _ 1 rfl).2 _ rfl).2.2.1 (by decide)⟩,
    ⟨_, ((h _ 1 rfl).2 _ rfl).2.2.2.1 rfl rfl ?_⟩, ⟨_, ((h _ 1 rfl).2 _ rfl).2.2.2.2 0 0 _ rfl rfl ⟨rfl, by decide, by decide⟩ rfl rfl⟩⟩
  rintro ⟨a, -⟩
  revert a; decide

/-- An entry of the preserve map: grain 3 of volume 1, snapshots 2 to 4, in slot 9. -/
def kept : PreserveEntry := { volume := 1, grain := 3, first := 2, last := 4, slot := 9 }

/-- Volume 1 with snapshot 2 RETIRING, its sweep running at this place. -/
def sweeping (at_ : Option (Nat × Nat)) (answers : Option TxnRef) : Volume := { vol with
  epoch := 6, slotsHeld := 1, sweeps := [2], sweepAt := at_
  snapshots := [{ snap 2 with state := .retiring, answers := answers }] }

def withMap (x : Volume) : Device := { withVol x with pres := { table := [], map := [kept], free := [], readerWait := [] } }

/-- A restore of one extent of n grains of volume 1, grain 15 on, to grain 0 of volume v. -/
def restoreArea (source snapshot n v : Nat) : List Byte :=
  leBytes 1 source ++ leBytes 4 snapshot ++ leBytes 2 7 ++ [1] ++ leBytes 4 15 ++ leBytes 2 n ++ leBytes 1 v ++ leBytes 4 0
    ++ [0, 1]

/-- A restore record. -/
def rec (id : Nat) (st : RestoreState) : Restore :=
  { id := id, state := st, cancel := false, source := 1, snapshot := 2, account := 7
    extents := [{ source := 15, count := 1, destVolume := 1, dest := 0, fresh := false, notify := true }]
    current := some 0, cursor := some 15, inFlight := 1, copied := 0, unwritten := 0, alreadyCurrent := 0
    outcomes := [.running], outcome := none, reason := none }

/-- A copy slot that reads a grain for restore 1. -/
def copying : CopySlot :=
  { stream := .restore 1, volume := 1, grain := 15, snapshot := 2, image := .slot 9 2, destVolume := 1, destGrain := 0
    declared := 0, phase := .reading }

def slotsBusy (d : Device) : Device := { d with copy.slots := Vector.replicate 16 (some copying) }

def snapVol : Volume := { vol with snapshots := [snap 2] }

/-- Volume 1 with snapshot 2, its grain 15 written since. -/
def imaged : Volume := { snapVol with grains := [(15, 3)] }

/-- That volume and these restore records; grain 15 as of snapshot 2 lies in preserve slot 9. -/
def restoring (l : List Restore) (order : List Nat) : Device :=
  { withVol imaged with
    copy.restores := l, copy.endedOrder := order, copy.lastId := 65535
    pres := { table := [], map := [{ kept with grain := 15 }], free := [], readerWait := [] } }

/-- Copy slot 3 alone is FREE. -/
def slotFree (d : Device) : Device :=
  { d with copy.slots := (Vector.replicate 16 (some copying)).set 3 none }

theorem restoreNamed (a : List Byte) :
    Command.isNamed { name := padded CommandName.restore.text, area := a } .restore = true := by
  show decide (upToZero (padded CommandName.restore.text) = ascii CommandName.restore.text) = true
  decide

theorem witness_RestoreStarts (h : Obligations.RestoreStarts) :
    let restores (d : Device) (source snapshot n v : Nat) : Prop :=
      ∃ t, exec (.restore 0 0) (ask d .restore (restoreArea source snapshot n v)) = .next t
    restores d0 1 2 0 1 ∧ restores d0 1 2 1 1 ∧ restores (withVol { vol with state := .preparing }) 1 2 1 1
    ∧ restores (withVol vol) 1 2 1 64
    ∧ restores { withVol vol with volumes := [(1, vol), (2, { vol with state := .preparing })] } 1 2 1 2
    ∧ restores (withVol snapVol) 1 2 2 1 ∧ restores (withVol snapVol) 1 1 1 1
    ∧ restores (restoring ((List.range 24).map fun n => rec (n + 1) .running) []) 1 2 1 1 := by
  have g := fun (d : Device) (area : List Byte) (a : RestoreArgs) (h1 : d.resetLow = false)
      (h2 : (d.port 0).role = .manager) (h3 : readRestore area = some a) =>
    h (ask d .restore area) 0 0 _ _ a h1 rfl rfl (restoreNamed _) h3 h2
  refine ⟨⟨_, (g _ _ _ rfl (by decide) rfl).1 (by decide)⟩,
    ⟨_, (g _ _ _ rfl (by decide) rfl).2.1 (by decide) (by intro x hx; cases hx)⟩,
    ⟨_, (g _ _ _ rfl (by decide) rfl).2.2.1 (by decide) ⟨_, rfl, rfl⟩⟩,
    ⟨_, ((g _ _ _ rfl (by decide) rfl).2.2.2 _ (by decide) rfl rfl).1 ⟨_, .head _, by intro x hx; cases hx⟩⟩,
    ⟨_, ((g _ _ _ rfl (by decide) rfl).2.2.2 _ (by decide) rfl rfl).2.1 ?_ ⟨_, .head _, _, rfl, rfl⟩⟩,
    ⟨_, ((g _ _ _ rfl (by decide) rfl).2.2.2 _ (by decide) rfl rfl).2.2.1 ?_ ?_ ⟨_, .head _, .inl (by decide)⟩⟩,
    ⟨_, ((g _ _ _ rfl (by decide) rfl).2.2.2 _ (by decide) rfl rfl).2.2.2.1 ?_ ?_ ?_ (by decide)⟩,
    ⟨_, ((g _ _ _ rfl (by decide) rfl).2.2.2 _ (by decide) rfl rfl).2.2.2.2.1 ?_ ?_ ?_ (by decide)
      ⟨by decide, by decide⟩⟩⟩
  all_goals
    rintro ⟨e, he, hx⟩
    rw [List.mem_singleton.1 he] at hx
  all_goals first
    | exact absurd (hx _ rfl) (by decide)
    | (obtain ⟨x, hv, hs⟩ := hx; cases hv; revert hs; decide)
    | (rcases hx with a | ⟨x, hv, hs⟩
       · revert a; decide
       · cases hv; revert hs; decide)

theorem witness_RestoreStarts_accepted (h : Obligations.RestoreStarts) :
    let restores (d : Device) : Prop := ∃ t, exec (.restore 0 0) (ask d .restore (restoreArea 1 2 1 1)) = .next t
    restores (restoring ((List.range 8).map fun n => rec (n + 2) .running) [])
    ∧ restores (slotsBusy (restoring ((List.range 7).map fun n => rec (n + 2) .running) []))
    ∧ restores (slotsBusy (restoring [rec 1 .running] []))
    ∧ restores (slotsBusy (restoring ((List.range 24).map fun n => rec (n + 1) .ended) ((List.range 24).map (· + 1))))
    ∧ restores (slotFree (restoring [] [])) := by
  have g := fun (d : Device) (h1 : d.resetLow = false) (h2 : (d.port 0).role = .manager)
      (hv : d.volumes = (withVol imaged).volumes) =>
    (h (ask d .restore (restoreArea 1 2 1 1)) 0 0 _ _ _ h1 rfl rfl (restoreNamed _) rfl h2).2.2.2 imaged (by decide)
      (by show Table.find d.volumes 1 = _; rw [hv]; rfl) rfl |>.2.2.2.2.2
      (by rintro ⟨e, he, hx⟩; rw [List.mem_singleton.1 he] at hx
          exact absurd (hx imaged (by show Table.find d.volumes 1 = _; rw [hv]; rfl)) (by decide))
      (by rintro ⟨e, he, x, hx, hs⟩; rw [List.mem_singleton.1 he] at hx
          have : Table.find d.volumes 1 = some x := hx
          rw [hv] at this; cases this; cases hs)
      (by rintro ⟨e, he, hx⟩; rw [List.mem_singleton.1 he] at hx
          rcases hx with hx | ⟨y, hy, hx⟩
          · exact absurd hx (by decide)
          · have : Table.find d.volumes 1 = some y := hy
            rw [hv] at this; cases this
            exact absurd hx (by decide))
      (by decide)
  refine ⟨⟨_, (g (restoring ((List.range 8).map fun n => rec (n + 2) .running) [])
      rfl (by decide) rfl _ _ 0 (.inl ⟨by decide, rfl, rfl⟩) (by decide) (by omega) (by decide)).1
      (by decide)⟩,
    ⟨_, ((g (slotsBusy (restoring ((List.range 7).map fun n => rec (n + 2) .running) []))
      rfl (by decide) rfl _ _ 0 (.inl ⟨by decide, rfl, rfl⟩) (by decide) (by omega) (by decide)).2 _ _ rfl
      (by decide) (by decide)).1 (by decide)⟩,
    ⟨_, ((g (slotsBusy (restoring [rec 1 .running] []))
      rfl (by decide) rfl _ _ 1 (.inl ⟨by decide, rfl, rfl⟩) (by decide) (by decide) (by decide)).2 _ _ rfl
      (by decide) (by decide)).1 (by decide)⟩,
    ⟨_, ((g (slotsBusy (restoring ((List.range 24).map fun n => rec (n + 1) .ended) ((List.range 24).map (· + 1))))
      rfl (by decide) rfl _ _ 0 (.inr ⟨by decide, by decide, 1, rfl, rfl⟩) (by decide) (by omega)
      (by decide)).2 _ _ rfl (by decide) (by decide)).1 (by decide)⟩,
    ⟨_, ((g (slotFree (restoring [] []))
      rfl (by decide) rfl _ _ 0 (.inl ⟨by decide, rfl, rfl⟩) (by decide) (by omega) (by decide)).2 _ _ rfl
      (by decide) (by decide)).2 3 15 (by decide) (by decide) rfl (.inl rfl) rfl rfl rfl ?_ (by decide)
      (by decide) ?_ ?_ (by decide) ?_⟩⟩
  · intro r hr; cases hr
  · intro h h1 h2
    have : 15 ≤ h := h1
    have : h < 15 := h2
    omega
  · rintro ⟨⟨v, hv⟩, -⟩
    cases hv
  · rintro ⟨v, hv⟩
    cases hv

/-- Copy slot 15 with a write that waits to retry. -/
def retrying (d : Device) (stage : Stage) : Device := { d with
  copy.slots := d.copy.slots.set 15 (some { copying with phase := .writing { (server .write stage none).job with blocks := 8 } (some 100) }) }

theorem witness_RetryMakesWriteAgain (h : Obligations.RetryMakesWriteAgain) :
    let due (d : Device) : Prop := ∃ t, exec (.retryDue 15) (run d []) = .next t
    let cutting : Device := retrying (withVol { vol with cut := some cutRec }) .admitting
    due d0 ∧ due cutting ∧ due { cutting with cutHold := List.replicate 256 (.slot 0) }
    ∧ due (retrying (withVol vol) .admitting) :=
  ⟨⟨_, (h _ 15 rfl).1 (by intro z j m hz; simp [run, d0, Device.reset, CopyEngine.initial, Device.slot?] at hz)⟩,
    ⟨_, ((h _ 15 rfl).2 _ _ _ _ rfl rfl rfl).1 (by decide) (by decide)⟩,
    ⟨_, ((h _ 15 rfl).2 _ _ _ _ rfl rfl rfl).2.1 (by decide) (by decide +kernel)⟩,
    ⟨_, ((h _ 15 rfl).2 _ _ _ _ rfl rfl rfl).2.2 0 rfl rfl rfl rfl rfl (by decide) rfl (by decide)⟩⟩

/-! ### Witnesses: duplication -/

def withPass (d : Device) (q : Pass) : Device := { d with dup.pass := some q }

def linkReady (d : Device) : Device := { d with dup.link := .ready 3000 }

theorem witness_StagingStatusAndSignal (h : Obligations.StagingStatusAndSignal) :
    let sets (low high idle ack : Nat) : Prop := ∃ t, exec (.stagingSet 0 0)
      (ask d0 .stagingSet (leBytes 1 low ++ leBytes 1 high ++ leBytes 1 idle ++ leBytes 1 ack)) = .next t
    let signals (d : Device) (code : Nat) : Prop :=
      ∃ t, exec (.signalPeer 0 0) (ask d .signalPeer (leBytes 4 code)) = .next t
    sets 63 63 255 255 ∧ sets 62 63 255 1 ∧ (∃ t, exec (.passStatus 0 0) (ask (withPass d0 pass) .passStatus []) = .next t)
    ∧ signals d0 65536 ∧ signals { d0 with dup.attention := some 0 } 65535 ∧ signals d0 65535
    ∧ signals (linkReady d0) 65535 :=
  ⟨⟨_, ((h _ _ _ _).1 63 63 255 255 (asked (by decide))).1 (by decide)⟩,
    ⟨_, ((h _ _ _ _).1 62 63 255 1 (asked (by decide))).2 (by decide)⟩, ⟨_, (h _ _ _ _).2.1 (asked (by decide))⟩,
    ⟨_, ((h _ _ _ _).2.2 65536 (asked (by decide))).1 (by decide)⟩,
    ⟨_, ((h _ _ _ _).2.2 65535 (asked (by decide))).2.1 (by decide) (by decide)⟩,
    ⟨_, ((h _ _ _ _).2.2 65535 (asked (by decide))).2.2.1 (by decide) rfl (.inl (by intro m hm; cases hm))⟩,
    ⟨_, ((h _ _ _ _).2.2 65535 (asked (by decide))).2.2.2 3000 (by decide) rfl rfl rfl⟩⟩

/-- Nothing else waits on the end of a pass. -/
theorem alone {d : Device} (h1 : ∀ k, d.slot? k = none) (h2 : d.copy.restores = []) (h3 : d.dup.queue = [])
    (h4 : d.dup.attention = none) : d.PassAlone :=
  ⟨fun k z hz => (by rw [h1 k] at hz; cases hz), by rw [h2]; simp, .inl h3, .inr h4⟩

theorem starts_closed {d : Device} {e : DupEntry} (c : d.clock.window = .closed) (hq : d.dup.queue = [e])
    (ho : e.origin = .demand) :
    if d.clock.window = .opened then d.dup.queue.head? = some e
    else ∃ before after, d.dup.queue = before ++ e :: after ∧ e.origin = .demand ∧ ∀ f ∈ before, f.origin ≠ .demand := by
  rw [if_neg (by rw [c]; decide)]
  exact ⟨[], [], hq, ho, by simp⟩

theorem starts_opened {d : Device} {e : DupEntry} (c : d.clock.window = .opened) (hq : d.dup.queue = [e]) :
    if d.clock.window = .opened then d.dup.queue.head? = some e
    else ∃ before after, d.dup.queue = before ++ e :: after ∧ e.origin = .demand ∧ ∀ f ∈ before, f.origin ≠ .demand := by
  rw [if_pos c, hq]; rfl

theorem witness_PassStarts (h : Obligations.PassStarts) :
    let starts (d : Device) : Prop := ∃ t, exec .passStart (run d []) = .next t
    let w (x : Volume) : Device := { withVol x with dup.queue := [{ volume := 1, origin := .demand }] }
    starts { d0 with dup.queue := [{ volume := 1, origin := .window }] } ∧ starts (w { vol with cut := some cutRec })
    ∧ starts { w { vol with inFlight := 1 } with clock.window := .opened } ∧ starts (w { vol with epoch := 16777214 })
    ∧ starts (w { vol with epoch := 16777215 }) := by
  refine ⟨⟨_, (h _ rfl).1 (.inr ?_)⟩,
    (((h _ rfl).2 _ _ rfl (starts_closed rfl rfl rfl) rfl).1 (by decide)).imp fun _ g => g.1,
    ⟨_, (((h _ rfl).2 _ _ rfl (starts_opened rfl rfl) rfl).2.1 rfl rfl (by decide) (by decide)).1 (by decide)⟩,
    ⟨_, (((h _ rfl).2 _ _ rfl (starts_closed rfl rfl rfl) rfl).2.1 rfl rfl (by decide) (by decide)).2 rfl rfl⟩,
    ⟨_, ((h _ rfl).2 _ _ rfl (starts_closed rfl rfl rfl) rfl).2.2 rfl rfl rfl rfl (alone (by decide) rfl rfl rfl)⟩⟩
  intro e he
  have c : ¬ (run { d0 with dup.queue := [{ volume := 1, origin := .window }] } []).dev.clock.window = .opened := by decide
  obtain ⟨before, after, hq, ho, -⟩ := (if_neg c).mp he
  have : e ∈ (run { d0 with dup.queue := [{ volume := 1, origin := .window }] } []).dev.dup.queue := by rw [hq]; simp
  rw [List.mem_singleton.1 this] at ho
  cases ho

/-- A place of staging for grain 3. -/
def place (src : PlaceSource) (ph : PlacePhase) : Place := { grain := 3, version := 2, source := src, phase := ph }

/-- A batch. -/
def batch (n : Nat) (st : BatchState) : Batch :=
  { sequence := n, state := st, grains := [5], check := 0, resends := 0, reopened := false, resent := 0
    idleEnds := if st = .opened then some 1000 else none, ackEnds := if st = .opened then none else some 30000
    shutWaits := false }

def withDup (d : Device) (q : Pass) (staging : List Place) (batches : List Batch) : Device := { d with
  dup.pass := some q, dup.staging := staging, dup.batches := batches }

/-- Volume 1 with grain 15 written at epoch 2, the pass's snapshot. -/
def written : Device := withVol { vol with epoch := 6, grains := [(15, 2)], snapshots := [snap 2] }

/-- What a walk from cursor c on finds to send: grain 15 alone. -/
theorem walk (d : Device) (hd : d.volumes = written.volumes) (g : Nat) (hg : g < 15) :
    ¬ ∃ v, (d.resolve 1 2 g).version = some v ∧ 1 < v := by
  have : d.resolve 1 2 g = .unwritten := by
    unfold Device.resolve Device.volume?
    rw [hd]
    have : ∀ g < 15, (written.volumes.find 1).elim 0 (fun x => x.w g) = 0 := by decide
    have hw := this g hg
    simp only [written, withVol, Table.find, if_true, Option.elim] at hw ⊢
    rw [if_pos hw]
  rw [this]
  simp [Image.version]

theorem witness_GrainsMadeReadyAndPlaced (h : Obligations.GrainsMadeReadyAndPlaced) :
    let gives (i : Instr) (d : Device) : Prop := ∃ t, exec i (run d []) = .next t
    let four : List Batch := (List.range 4).map fun n => batch n .shut
    gives .grainMakeReady (withPass written { pass with state := .closing }) ∧ gives .grainMakeReady d0
    ∧ gives .grainMakeReady (slotsBusy (withPass written { pass with backlog := [(15, 0)] }))
    ∧ gives .grainMakeReady (withPass written { pass with state := .draining })
    ∧ gives .grainMakeReady (withDup written pass [] four)
    ∧ gives .grainMakeReady (slotsBusy (withDup written pass [] (batch 9 .opened :: four)))
    ∧ gives .grainMakeReady (withDup written { pass with cursor := 16 } [place .sweep (.reading 0)] [])
    ∧ gives (.placementEnd 0) (slotsBusy d0)
    ∧ gives (.placementEnd 15) { withDup written pass [place .sweep (.reading 15)] [] with
        copy.slots := d0.copy.slots.set 15 (some { copying with stream := .pass, phase := .staging [1] }) } := by
  have busy : ∀ k : SlotId, (slotsBusy d0).slot? k ≠ none := by decide
  refine ⟨⟨_, (h _ rfl).1 _ rfl (.inl (by decide))⟩, ⟨_, (h _ rfl).2.1 rfl⟩,
    ⟨_, ((h _ rfl).2.2.1 _ _ rfl (.inl rfl) rfl (by decide) rfl).1 15 0 [] 2 busy rfl (by decide)⟩,
    ⟨_, ((h _ rfl).2.2.1 _ _ rfl (.inr rfl) rfl (by decide) rfl).2.1 rfl rfl⟩,
    ⟨_, (((h _ rfl).2.2.1 _ _ rfl (.inl rfl) rfl (by decide) rfl).2.2.1 15 2 rfl rfl (by decide) (by decide)
      (fun g _ hg => walk _ rfl g hg) (by decide) (by decide)).1 (by decide) (by decide)⟩,
    ⟨_, (((h _ rfl).2.2.1 _ _ rfl (.inl rfl) rfl (by decide) rfl).2.2.1 15 2 rfl rfl (by decide) (by decide)
      (fun g _ hg => walk _ rfl g hg) (by decide) (by decide)).2 busy (.inr ⟨_, .head _, rfl⟩)⟩,
    ⟨_, ((h _ rfl).2.2.1 _ _ rfl (.inl rfl) rfl (by decide) rfl).2.2.2 rfl rfl (by decide) ?_⟩,
    ⟨_, (h _ rfl).2.2.2.1 0 ?_⟩,
    ⟨_, (h _ rfl).2.2.2.2 15 _ _ rfl rfl (by decide) (by decide) (.inl (by intro m hm; cases hm))⟩⟩
  · intro g h1 h2
    have : 16 ≤ g := h1
    have : g < 16 := h2
    omega
  · intro z data hz
    have : ∀ k : SlotId, (slotsBusy d0).slot? k = some copying := by decide
    have hz' : (slotsBusy d0).slot? 0 = some z := hz
    rw [this 0] at hz'
    cases hz'
    simp [copying]

/-- The link READY and the last frame at its end. -/
def atEnd (d : Device) : Device := { d with dup.link := .ready 3000, dup.transmitting := some (.attention 1) }

theorem held (d : Device) (h : d.dup.link = .up) : d.TransmitterHeld := .inl (by intro m hm; rw [h] at hm; cases hm)

/-- The link READY with a frame in transmission. -/
theorem sending (d : Device) : (atEnd d).TransmitterHeld := .inr (by simp [atEnd])

theorem witness_AcksAndGoBack (h : Obligations.AcksAndGoBack) :
    let gives (i : Instr) (d : Device) : Prop := ∃ t, exec i (run d []) = .next t
    let two (n : Nat) : List Batch := [batch 255 .shut, { batch 0 .shut with resends := n }]
    let w (q : Pass) (l : List Place) (bs : List Batch) : Device := atEnd (withDup written q l bs)
    gives (.refuse 9 .data) (atEnd d0) ∧ gives (.ackTimeout 9) d0 ∧ gives (.ack 0) (w pass [] [batch 0 .resending])
    ∧ gives (.ackTimeout 0) (w pass [] [batch 0 .opened]) ∧ gives (.ack 255) (w pass [place .sweep .ready] (two 0))
    ∧ gives (.ack 255) (w { pass with state := .draining } [] (two 0))
    ∧ gives (.ack 0) (w { pass with state := .draining } [] (two 0)) ∧ gives (.refuse 255 .noTarget) (w pass [] (two 0))
    ∧ gives (.refuse 255 .order) (w pass [] (two 2)) ∧ gives (.ackTimeout 0) (w pass [] (two 2))
    ∧ gives (.refuse 0 .data) (w pass [] (two 3)) ∧ gives (.ackTimeout 0) (w pass [] (two 3)) := by
  have quiet : ∀ q l bs, (run (atEnd (withDup written q l bs)) []).dev.PassAlone :=
    fun q l bs => alone (show ∀ k, (atEnd (withDup written q l bs)).slot? k = none from
      (by decide : ∀ k : SlotId, written.slot? k = none)) rfl rfl rfl
  refine ⟨⟨_, ((h _ rfl (sending _)).1 9 (.inr (by decide))).2 _⟩, ⟨_, (h _ rfl (held _ rfl)).2.1 9 (by decide)⟩,
    ⟨_, ((h _ rfl (sending _)).2.2 [] (batch 0 .resending) [] rfl (by decide)).1 (by decide)⟩,
    ⟨_, ((h _ rfl (sending _)).2.2 [] (batch 0 .opened) [] rfl (by decide)).2.1 rfl⟩,
    ⟨_, ((h _ rfl (sending _)).2.2 [] (batch 255 .shut) _ rfl (by decide)).2.2 _ _ rfl rfl |>.1 3000 rfl rfl
      (.inl (by decide))⟩,
    ⟨_, ((h _ rfl (sending _)).2.2 [] (batch 255 .shut) _ rfl (by decide)).2.2 _ _ rfl rfl |>.1 3000 rfl rfl
      (.inr (.inr (by decide)))⟩,
    ⟨_, ((h _ rfl (sending _)).2.2 [batch 255 .shut] { batch 0 .shut with resends := 0 } [] rfl (by decide)).2.2 _ _ rfl
      rfl |>.2.1 3000 rfl rfl rfl rfl rfl rfl⟩,
    ⟨_, (((h _ rfl (sending _)).2.2 [] (batch 255 .shut) _ rfl (by decide)).2.2 _ _ rfl rfl |>.2.2.1 3000 rfl
      (quiet _ _ _)).2⟩,
    ⟨_, ((((h _ rfl (sending _)).2.2 [] (batch 255 .shut) _ rfl (by decide)).2.2 _ _ rfl rfl |>.2.2.2 [] _ rfl (by simp)
      ⟨_, _, rfl, .inl rfl⟩).1 (by decide) (by decide)).1 3000 rfl |>.2⟩,
    ⟨_, ((((h _ rfl (sending _)).2.2 [batch 255 .shut] { batch 0 .shut with resends := 2 } [] rfl (by decide)).2.2 _ _ rfl
      rfl |>.2.2.2 [batch 255 .shut] _ rfl (by decide) ⟨_, _, rfl, .inl rfl⟩).1 (by decide) (by decide)).2 30000 rfl⟩,
    ⟨_, (((((h _ rfl (sending _)).2.2 [batch 255 .shut] { batch 0 .shut with resends := 3 } [] rfl (by decide)).2.2 _ _ rfl
      rfl |>.2.2.2 [batch 255 .shut] _ rfl (by decide) ⟨_, _, rfl, .inl rfl⟩).2 (by decide) (quiet _ _ _)).1 3000
      rfl).1⟩,
    ⟨_, ((((h _ rfl (sending _)).2.2 [batch 255 .shut] { batch 0 .shut with resends := 3 } [] rfl (by decide)).2.2 _ _ rfl
      rfl |>.2.2.2 [batch 255 .shut] _ rfl (by decide) ⟨_, _, rfl, .inl rfl⟩).2 (by decide) (quiet _ _ _)).2 30000 rfl⟩⟩

theorem none_left (bs : List Batch) (g : Nat) (h1 : 16 ≤ g) (h2 : g < 16) :
    ¬ ∃ v, ((run (withDup written { pass with cursor := 16 } [] bs) []).dev.resolve 1 2 g).version = some v ∧ 1 < v := by
  omega

theorem witness_PassEnds_sweep (h : Obligations.PassEnds) :
    let gives (i : Instr) (d : Device) : Prop := ∃ t, exec i (run d []) = .next t
    let w (l : List Place) (bs : List Batch) : Device := withDup written { pass with cursor := 16 } l bs
    gives .sweepEnd d0 ∧ (∃ t, exec (.passStop 0 0) (ask d0 .passStop []) = .next t)
    ∧ gives .sweepEnd (withDup written { pass with cursor := 3, anchor := 2 } [] [])
    ∧ gives .sweepEnd (w [place .sweep .ready] []) ∧ gives .sweepEnd (w [] []) ∧ gives .sweepEnd (w [] [batch 0 .shut])
    ∧ gives .sweepEnd (w [] [batch 0 .shut, batch 1 .opened]) ∧ gives .drainEnd (w [] [])
    ∧ gives .drainEnd (withDup written { pass with state := .draining } [] []) := by
  refine ⟨⟨_, ((h _ rfl (held _ rfl)).1 rfl).1⟩, ⟨_, ((h _ rfl (held _ rfl)).1 rfl).2.2.2.2 _ _ _ (asked (by decide))⟩,
    ⟨_, ((h _ rfl (held _ rfl)).2 _ _ rfl rfl).2.1 ⟨rfl, rfl, rfl, ?_⟩ rfl⟩,
    ⟨_, ((h _ rfl (held _ rfl)).2 _ _ rfl rfl).1 ?_⟩,
    ⟨_, ((h _ rfl (held _ rfl)).2 _ _ rfl rfl).2.1 ⟨rfl, rfl, rfl, none_left _⟩ rfl⟩,
    ⟨_, ((h _ rfl (held _ rfl)).2 _ _ rfl rfl).2.2.1 ⟨rfl, rfl, rfl, none_left _⟩ (by decide) (by decide)⟩,
    ⟨_, ((h _ rfl (held _ rfl)).2 _ _ rfl rfl).2.2.2.1 [batch 0 .shut] (batch 1 .opened) []
      ⟨rfl, rfl, rfl, none_left _⟩ rfl rfl (by decide) (by decide)⟩,
    ⟨_, ((h _ rfl (held _ rfl)).2 _ _ rfl rfl).2.2.2.2.1 (by rintro ⟨a, -⟩; cases a)⟩,
    ⟨_, ((h _ rfl (held _ rfl)).2 _ _ rfl rfl).2.2.2.2.2.1 ⟨rfl, rfl, rfl, rfl⟩⟩⟩
  · rintro g - hg ⟨v, hv, ha⟩
    have : ∀ g < 16, (written.resolve 1 2 g).version = none ∨ (written.resolve 1 2 g).version = some 2 := by decide
    have hv' : (written.resolve 1 2 g).version = some v := hv
    rcases this g hg with e | e <;> rw [e] at hv' <;> cases hv'
    exact absurd ha (by decide)
  · rintro ⟨-, -, a, -⟩
    cases a

/-- Nothing else waits on the end of this pass. -/
theorem quiet (q : Pass) (l : List Place) (bs : List Batch) : (run (withDup written q l bs) []).dev.PassAlone :=
  alone (show ∀ k, (withDup written q l bs).slot? k = none from (by decide : ∀ k : SlotId, written.slot? k = none)) rfl rfl
    rfl

/-- A CLOSING pass after n resends of its PASS END. -/
def closing (n : Nat) : Pass := { pass with state := .closing, passEndTimer := some 30000, resends := n }

/-- Volume 1 with an older DUPLICATION snapshot that nothing pins, below the pass's own. -/
def duplicated : Device := withVol { vol with
  epoch := 6, grains := [(15, 2)]
  snapshots := [{ snap 1 with kind := .duplication }, { snap 2 with kind := .duplication, pins := 1 }] }

theorem witness_PassEnds_close (h : Obligations.PassEnds) :
    let gives (i : Instr) (q : Pass) : Prop := ∃ t, exec i (run (withDup written q [] []) []) = .next t
    gives .passEndTimeout pass ∧ gives .passEndTimeout (closing 2) ∧ gives .passEndTimeout (closing 3)
    ∧ gives (.passAck 9 2) (closing 0)
    ∧ (∃ t, exec (.passAck 9 2) (run (atEnd (withDup written (closing 0) [] [])) []) = .next t)
    ∧ ∃ t, exec (.passAck 9 2) (run (atEnd (withDup duplicated (closing 0) [] [])) []) = .next t :=
  ⟨⟨_, ((h _ rfl (held _ rfl)).2 _ _ rfl rfl).2.2.2.2.2.2.1 (.inl (by decide))⟩,
    ⟨_, (((h _ rfl (held _ rfl)).2 (closing 2) _ rfl rfl).2.2.2.2.2.2.2.1 30000 rfl rfl).1 (by decide)⟩,
    ⟨_, (((h _ rfl (held _ rfl)).2 (closing 3) _ rfl rfl).2.2.2.2.2.2.2.1 30000 rfl rfl).2 (by decide) (quiet _ _ _)⟩,
    ⟨_, ((h _ rfl (held _ rfl)).2 (closing 0) _ rfl rfl).2.2.2.2.2.2.2.2.1 9 2 (.inl (by intro m hm; cases hm))⟩,
    ⟨_, ((h _ rfl (sending _)).2 (closing 0) _ rfl rfl).2.2.2.2.2.2.2.2.2.1 3000 2 rfl rfl rfl
      (alone (show ∀ k, (atEnd (withDup written _ [] [])).slot? k = none from
        (by decide : ∀ k : SlotId, written.slot? k = none)) rfl rfl rfl)⟩,
    ⟨_, ((h _ rfl (sending _)).2 (closing 0) _ rfl rfl).2.2.2.2.2.2.2.2.2.1 3000 2 rfl rfl rfl
      (alone (show ∀ k, (atEnd (withDup duplicated _ [] [])).slot? k = none from
        (by decide : ∀ k : SlotId, written.slot? k = none)) rfl rfl rfl)⟩⟩

theorem witness_PassEnds_stop (h : Obligations.PassEnds) :
    (∃ t, exec (.passStop 0 0) (ask (withPass (withVol { vol with cut := some { cutRec with requester := .pass } })
        { pass with state := .cutting }) .passStop []) = .next t)
    ∧ ∃ t, exec (.passStop 0 0) (ask (withDup written pass [] []) .passStop []) = .next t :=
  ⟨⟨_, (((h _ rfl (held _ rfl)).2 _ _ rfl rfl).2.2.2.2.2.2.2.2.2.2 0 0 _ (asked (by decide))).1 _ rfl rfl rfl⟩,
    ⟨_, (((h _ rfl (held _ rfl)).2 _ _ rfl rfl).2.2.2.2.2.2.2.2.2.2 0 0 _ (asked (by decide))).2 (.inl (by decide))
      (alone (show ∀ k, (withDup written pass [] []).slot? k = none from
        (by decide : ∀ k : SlotId, written.slot? k = none)) rfl rfl rfl)⟩⟩

/-! ### Witnesses: the management unit, preservation and copy reads -/

theorem witness_NoticeReadTakes (h : Obligations.NoticeReadTakes) :
    let reads (d : Device) (n : Nat) : Prop := ∃ t, exec (.noticeRead 0 0) (ask d .noticeRead (leBytes 1 n)) = .next t
    reads d0 9 ∧ reads d0 0 ∧ reads fullQueue 8 ∧ reads d0 1
    ∧ ∃ t, exec (.noticeRead 0 0) { dev := { d0 with txns := [(0, { cmd .noticeRead [1] with owed := false })] }
                                    pending := [] } = .next t :=
  ⟨⟨_, (h _ _ _ _ 9 (asked (by decide))).1 (by decide)⟩, ⟨_, (h _ _ _ _ 0 (asked (by decide))).1 (by decide)⟩,
    ⟨_, (h _ _ _ _ 8 (asked (by decide))).2.1 (by decide) (by decide) rfl⟩,
    ⟨_, (h _ _ _ _ 1 (asked (by decide))).2.1 (by decide) (by decide) rfl⟩,
    ⟨_, (h _ 0 0 _ 1 ⟨rfl, rfl, ⟨_, rfl, by decide, by decide⟩, by decide⟩).2.2 (by decide) (by decide) rfl⟩⟩

/-- Volume 1 whose every grain was last written at epoch 1, with snapshot 2. -/
def needing : Volume := { vol with fill := 1, snapshots := [snap 2], reserve := 1, reserveArmed := false }

/-- The part with pool tag 59 BUSY for grain 3's preservation in this phase. -/
def preserving (x : Volume) (ph : PendPhase) : Device := { withTag (withVol x) (.busy (.preserve 1 3) 0) with
  pres := { table := [(pendKey 1 3, { volume := 1, grain := 3, phase := ph, readers := 0, waiters := [] })]
            map := [{ kept with first := 1, last := 1 }, { kept with grain := 4 }], free := [], readerWait := [] } }

/-- The part with pool tag 59 BUSY for copy slot 15. -/
def slotReads (x : Volume) (z : CopySlot) (l : List Restore) : Device := { withTag (withVol x) (.busy (.slot 15) 0) with
  copy := { CopyEngine.initial with slots := CopyEngine.initial.slots.set 15 (some z), restores := l }
  pres.table := [(pendKey 1 15, { volume := 1, grain := 15, phase := .reading, readers := 2, waiters := [] })] }

/-! ### Witnesses of the statements with many cases, one theorem or more for each -/

/-- An account with its soft limit of 5 grains used up. -/
def softPart (grace : Nat) (valid : Bool) : Device := { withVol vol with
  accounts := [(7, { Account.initial with soft := 5, grace := grace, usage := 5 })], clock.valid := valid }

theorem witness_WriteAdmitted (h : Obligations.WriteAdmitted) :
    let admits (d : Device) (n : Nat) : Prop := ∃ t, exec (.write 0 { hdrW with declared := n } block) (run d []) = .next t
    admits (withVol vol) 0 ∧ admits (withVol vol) 33 ∧ admits (softPart 0 true) 1 ∧ admits (softPart 2160 true) 1
    ∧ admits (softPart 1 false) 1 := by
  have a (d : Device) (n : Nat) (hn : n ≤ 33) (hd : d.resetLow = false) (hp : (d.port 0).link = .up)
      (ht : d.txn? 0 3 = none) (hf : (d.port 0).fence = none) (hl : d.pool.link = .up) (hv : d.volume? 1 = some vol) :=
    h (run d []) 0 { hdrW with declared := n } block vol hd hp (goodW n hn) ht hf hl hv rfl (by show 0 + 1 ≤ 8 * 16; decide) rfl
  refine ⟨⟨_, (a (withVol vol) 0 (by decide) rfl (by decide) rfl rfl rfl rfl (by decide) (.inl (by decide)) (by decide)).1 rfl⟩,
    ⟨_, (a (withVol vol) 33 (by decide) rfl (by decide) rfl rfl rfl rfl (by decide) (.inr (by decide)) (by decide)).2.1
      (by decide) (by decide)⟩,
    ⟨_, (a (softPart 0 true) 1 (by decide) rfl (by decide) rfl rfl rfl rfl (by decide) (.inr (by decide)) (by decide)).2.2.1
      (by decide) rfl⟩, ?_, ?_⟩
  · obtain ⟨l, -, g⟩ := (a (softPart 2160 true) 1 (by decide) rfl (by decide) rfl rfl rfl rfl (by decide) (.inr (by decide))
      (by decide)).2.2.2.1 (by decide) (by decide) rfl
    exact ⟨_, g⟩
  · obtain ⟨b, c, -, -, -, g⟩ := (a (softPart 1 false) 1 (by decide) rfl (by decide) rfl rfl rfl rfl (by decide)
      (.inr (by decide)) (by decide)).2.2.2.2 (by decide) (by decide) rfl
    exact ⟨_, g⟩

theorem witness_AccountLoadStores (h : Obligations.AccountLoadStores) :
    let load (d : Device) (group : Nat) : Prop := ∃ t, exec (.accountLoad 0 0) (ask d .accountLoad
      (leBytes 2 7 ++ leBytes 4 5 ++ leBytes 4 4 ++ leBytes 2 2161 ++ leBytes 2 group ++ [1] ++ leBytes 4 4294967295)) =
        .next t
    load d0 1024 ∧ load d0 1023 ∧ load { d0 with clock.valid := true } 5 := by
  refine ⟨⟨_, (h _ _ _ _ 7 5 4 2161 1024 1 4294967295 (asked (by decide))).1 (by decide)⟩,
    ((h _ _ _ _ 7 5 4 2161 1023 1 4294967295 (asked (by decide))).2 (by decide)).imp fun _ g => g.1,
    ((h _ _ _ _ 7 5 4 2161 5 1 4294967295 (asked (by decide))).2 (by decide)).imp fun _ g => g.1⟩

theorem witness_ClockCommands (h : Obligations.ClockCommands) :
    let gives (i : Instr) (s : State) : Prop := ∃ t, exec i s = .next t
    let entry (n weekdays : Nat) : State :=
      ask d0 .scheduleSet (leBytes 1 n ++ [1] ++ padded "SCHEDULED_CUT" ++ [59, 255] ++ leBytes 1 weekdays ++ [31])
    gives (.timeSet 0 0) (ask d0 .timeSet (timeArea 60))
    ∧ gives (.timeSet 0 0) (ask { d0 with clock.valid := true } .timeSet (timeArea 59))
    ∧ gives (.timeSet 0 0) (ask { d0 with clock.undated := [7] } .timeSet (timeArea 59))
    ∧ gives (.timeRead 0 0) (ask d0 .timeRead []) ∧ gives (.scheduleSet 0 0) (entry 8 127)
    ∧ gives (.scheduleSet 0 0) (entry 7 64) ∧ gives (.scheduleRead 0 0) (ask d0 .scheduleRead []) := by
  refine ⟨⟨_, (h.1 _ _ _ _ 2199 12 31 23 59 60 (asked (by decide))).1 (by decide)⟩,
    ⟨_, (h.1 _ _ _ _ 2199 12 31 23 59 59 (asked (by decide))).2.1 (by decide) rfl⟩,
    ((h.1 _ _ _ _ 2199 12 31 23 59 59 (asked (by decide))).2.2 (by decide) rfl).imp fun _ g => g.1,
    ⟨_, h.2.1 _ _ _ _ (asked (by decide))⟩,
    ⟨_, (h.2.2.1 _ _ _ _ 8 1 59 255 127 31 (padded "SCHEDULED_CUT") (asked (by decide))).1 (.inl (by decide))⟩,
    ⟨_, (h.2.2.1 _ _ _ _ 7 1 59 255 64 31 (padded "SCHEDULED_CUT") (asked (by decide))).2 7 .scheduledCut rfl
      (.inr (.inr ⟨rfl, rfl⟩)) (by decide) (by decide) (by decide) (by decide)⟩,
    ⟨_, h.2.2.2 _ _ _ _ (asked (by decide))⟩⟩

/-- The part one second before 2031-07-01 00:00:00, its clock VALID, with this window state and schedule. -/
def oneBefore (d : Device) (w : Window) (l : Vector SchedEntry 8) : Device := { d with
  clock := { Clock.initial with
    time := { year := 2031, month := 6, day := 30, hour := 23, minute := 59, second := 59 }, valid := true, window := w
    schedule := l } }

/-- A schedule entry that matches the first minute of a month. -/
def atFirst (a : Machine.Action) : SchedEntry :=
  { enabled := true, action := a, minute := none, hour := some 0, weekdays := 127, day := some 1 }

def entry7 (a : Machine.Action) : Vector SchedEntry 8 := (Vector.replicate 8 SchedEntry.initial).set 7 (atFirst a)

def entries67 (a b : Machine.Action) : Vector SchedEntry 8 :=
  ((Vector.replicate 8 SchedEntry.initial).set 6 (atFirst a)).set 7 (atFirst b)

theorem entry7_off (a : Machine.Action) : ∀ j : Fin 8, j ≠ 7 → (entry7 a)[j].enabled = false := by
  cases a <;> decide

theorem entries67_off (a b : Machine.Action) : ∀ j : Fin 8, j ≠ 6 → j ≠ 7 → (entries67 a b)[j].enabled = false := by
  cases a <;> cases b <;> decide

/-- Volume 1 enrolled, with a write in flight. -/
def enrolled : Volume := { vol with enrolment := .nightly, target := some 9, inFlight := 1 }

/-- Accounts 7 and 8 in grace, the first until the next second. -/
def inGrace : Device :=
  let at_ (n : Nat) : CalTime := { year := 2000, month := 1, day := 1, hour := 0, minute := 0, second := n }
  { d0 with
    accounts := [(7, { Account.initial with soft := 5, usage := 6, state := .soft, deadline := some (at_ 1) }),
      (8, { Account.initial with soft := 5, usage := 6, state := .soft, deadline := some (at_ 2) })]
    clock.valid := true, clock.graceList := [7, 8] }

theorem witness_SecondTickAdvances (h : Obligations.SecondTickAdvances) :
    let ticks (d : Device) : Prop := ∃ t, exec .secondTick (run d []) = .next t
    let before (w : Window) (d : Device) : Device := oneBefore d w (entry7 .windowClose)
    ticks d0 ∧ ticks { d0 with clock.valid := true } ∧ ticks inGrace
    ∧ ticks (before .closed d0) ∧ ticks (before .opened d0) ∧ ticks (before .opened { d0 with dup.pass := some pass })
    ∧ ticks { d0 with clock.time := lastSecond }
    ∧ ticks { d0 with clock.time := lastSecond, clock.valid := true, clock.graceList := [7] } := by
  refine ⟨⟨_, (h _ rfl).1 (by decide) rfl⟩, ⟨_, (h _ rfl).2.1 ⟨by decide, rfl⟩ ?_ (.inl (by decide))⟩, ?_,
    ⟨_, ((h _ rfl).2.2.2.2.2.2.1 7 ?_ rfl).1 rfl⟩, ⟨_, ((h _ rfl).2.2.2.2.2.2.1 7 ?_ rfl).2.1 rfl rfl⟩,
    ⟨_, ((h _ rfl).2.2.2.2.2.2.1 7 ?_ rfl).2.2 _ rfl rfl⟩,
    ⟨_, (h _ rfl).2.2.2.2.2.2.2.1 rfl rfl⟩, ((h _ rfl).2.2.2.2.2.2.2.2 rfl rfl).imp fun _ g => g.1⟩
  · intro a ha; cases ha
  · refine ((h (run inGrace []) rfl).2.2.1 [7] [8] ⟨by decide, rfl⟩ (.inl (by decide)) rfl (by decide) ?_ ?_).imp
      fun _ g => g.1
    · intro a ha
      obtain rfl := List.mem_singleton.1 ha
      exact ⟨_, rfl, by decide⟩
    · intro a ha
      cases ha
      exact ⟨_, rfl, by decide⟩
  all_goals
    refine ⟨⟨by decide, rfl⟩, ?_, by decide, by decide, ?_⟩
    · intro a ha; cases ha
    · intro j hj hm
      have he : (entry7 _)[j].enabled = true := hm.1
      rw [entry7_off _ j hj] at he
      cases he

theorem witness_SecondTickAdvances_fires (h : Obligations.SecondTickAdvances) :
    let ticks (d : Device) : Prop := ∃ t, exec .secondTick (run d []) = .next t
    let open_ (w : Window) (d : Device) : Device := oneBefore d w (entry7 .windowOpen)
    let cut (x : Volume) : Device := oneBefore (withVol x) .closed (entry7 .scheduledCut)
    let both (a b : Machine.Action) (w : Window) : Device := oneBefore { d0 with dup.pass := some pass } w (entries67 a b)
    ticks (open_ .opened d0) ∧ ticks (open_ .closed { withVol enrolled with dup.pass := some pass })
    ∧ ticks (open_ .closed (withVol vol)) ∧ ticks (open_ .closed (withVol enrolled))
    ∧ ticks (cut { vol with retention := 1, cut := some cutRec }) ∧ ticks (cut { vol with retention := 1, inFlight := 1 })
    ∧ ticks (cut { vol with retention := 1 }) ∧ ticks (both .windowOpen .windowClose .closed)
    ∧ ticks (both .windowClose .windowOpen .opened) := by
  have idle (d : Device) (hr : d.copy.restores = []) (hs : d.dup.staging = []) :
      (∀ r ∈ d.copy.restores, r.state ≠ .running) ∧ ∀ l ∈ d.dup.staging, l.phase ≠ .ready := by
    rw [hr, hs]; simp
  refine ⟨⟨_, ((h _ rfl).2.2.2.1 7 ?_ rfl).1 rfl⟩,
    ⟨_, (((h _ rfl).2.2.2.1 7 ?_ rfl).2 rfl (by decide) (.inr (idle _ rfl rfl))).1 (.inl (by decide))⟩,
    ⟨_, (((h _ rfl).2.2.2.1 7 ?_ rfl).2 rfl (by decide) (.inr (idle _ rfl rfl))).1 (.inr (by decide))⟩,
    ⟨_, (((h _ rfl).2.2.2.1 7 ?_ rfl).2 rfl (by decide) (.inr (idle _ rfl rfl))).2 { volume := 1, origin := .window }
      [] enrolled rfl (by decide) rfl rfl rfl (by decide) (by decide) (by decide)⟩,
    ⟨_, ((h _ rfl).2.2.2.2.1 7 ?_ rfl (by decide) (by decide)).1 (by decide)⟩,
    ⟨_, (((h _ rfl).2.2.2.2.1 7 ?_ rfl (by decide) (by decide)).2 1 { vol with retention := 1, inFlight := 1 } (by decide)
      rfl (by decide) (by decide)).1 (by decide)⟩,
    ⟨_, (((h _ rfl).2.2.2.2.1 7 ?_ rfl (by decide) (by decide)).2 1 { vol with retention := 1 } (by decide) rfl
      (by decide) (by decide)).2 rfl (by intro _ m; cases m) (by intro _ m; cases m) (by decide)⟩,
    ⟨_, ((h _ rfl).2.2.2.2.2.1 6 7 pass ?_ (.inr (idle _ rfl rfl)) (by decide) rfl).1 rfl rfl rfl⟩,
    ⟨_, ((h _ rfl).2.2.2.2.2.1 6 7 pass ?_ (.inr (idle _ rfl rfl)) (by decide) rfl).2 rfl rfl rfl⟩⟩
  all_goals
    first
    | refine ⟨⟨by decide, rfl⟩, ?_, by decide, by decide, ?_⟩
      · intro a ha; cases ha
      · intro j hj hm
        have he : (entry7 _)[j].enabled = true := hm.1
        rw [entry7_off _ j hj] at he
        cases he
    | refine ⟨⟨by decide, rfl⟩, ?_, by decide, by decide, by decide, by decide, ?_⟩
      · intro a ha; cases ha
      · intro j h1 h2 hm
        have he : (entries67 _ _)[j].enabled = true := hm.1
        rw [entries67_off _ _ j h1 h2] at he
        cases he

theorem witness_PortCommands (h : Obligations.PortCommands) :
    let gives (i : Instr) (s : State) : Prop := ∃ t, exec i s = .next t
    let setTo (d : Device) (n : Nat) (r : String) (reload : Nat) : State :=
      ask d .portSet (leBytes 1 n ++ padded r ++ leBytes 2 reload)
    gives (.portRead 0 0) (ask d0 .portRead []) ∧ gives (.keepalive 0 0) (ask d0 .keepalive [])
    ∧ gives (.portSet 0 0) (setTo d0 4 "DATA" 0) ∧ gives (.portSet 0 0) (setTo d0 0 "DATA" 0)
    ∧ gives (.portSet 0 0) (setTo d0 3 "MANAGER" 255) ∧ gives (.portSet 0 0) (setTo twoManagers 0 "DATA" 255)
    ∧ gives (.unfence 0 0) (ask d0 .unfence [4]) ∧ gives (.unfence 0 0) (ask (fencedPort twoManagers) .unfence [0])
    ∧ gives (.unfence 0 0) (ask (fencedPort d0) .unfence [0]) ∧ gives (.unfence 0 0) (ask d0 .unfence [3]) := by
  refine ⟨⟨_, h.1 _ _ _ _ (asked (by decide))⟩, ⟨_, h.2.1 _ _ _ _ (asked (by decide))⟩,
    ⟨_, (h.2.2.1 _ _ _ _ 4 0 (padded "DATA") (asked (by decide))).1 (.inl (by decide))⟩,
    ⟨_, ((h.2.2.1 _ _ _ _ 0 0 (padded "DATA") (asked (by decide))).2 0 .data rfl (by decide) (.inr ⟨rfl, rfl⟩)).1 rfl
      (by decide)⟩,
    ⟨_, ((h.2.2.1 _ _ _ _ 3 255 (padded "MANAGER") (asked (by decide))).2 3 .manager rfl (by decide)
      (.inl ⟨rfl, rfl⟩)).2 (.inl rfl)⟩,
    ⟨_, ((h.2.2.1 _ _ _ _ 0 255 (padded "DATA") (asked (by decide))).2 0 .data rfl (by decide) (.inr ⟨rfl, rfl⟩)).2
      (.inr (by decide))⟩,
    ⟨_, (h.2.2.2 _ _ _ _ 4 (asked (by decide))).1 (by decide)⟩,
    ⟨_, ((h.2.2.2 _ _ _ _ 0 (asked (by decide))).2 0 rfl).1 rfl (by decide) (by decide)⟩,
    ⟨_, ((h.2.2.2 _ _ _ _ 0 (asked (by decide))).2 0 rfl).2.1 (by decide) (.inr (by decide))⟩,
    ⟨_, ((h.2.2.2 _ _ _ _ 3 (asked (by decide))).2 3 rfl).2.2 (by decide)⟩⟩

/-- Volume 1 with grain 0 waiting for a slot. -/
def slotWaiting (x : Volume) : Device :=
  let e : Pending := { volume := 1, grain := 0, phase := .slotWait 1 3, readers := 0, waiters := [.slot 0] }
  { withVol { x with slotWait := [0] } with
    pres := { table := [(pendKey 1 0, e)], map := [], free := [0, 1, 2], readerWait := [] } }

theorem witness_ReserveSetStores (h : Obligations.ReserveSetStores) :
    let sets (d : Device) (v limit retention : Nat) : Prop :=
      ∃ t, exec (.reserveSet 0 0) (ask d .reserveSet (leBytes 1 v ++ leBytes 4 limit ++ leBytes 1 retention)) = .next t
    sets (withVol vol) 1 4194305 0 ∧ sets (withVol vol) 64 0 15 ∧ sets (withVol { vol with state := .removing }) 1 0 15
    ∧ sets (withVol { vol with slotsHeld := 4 }) 1 3 15 ∧ sets (withVol vol) 1 101 0 ∧ sets (withVol vol) 1 100 15
    ∧ sets (slotWaiting { vol with slotsHeld := 4 }) 1 4 0 ∧ sets (slotWaiting { vol with slotsHeld := 4 }) 1 5 0 :=
  ⟨⟨_, (h _ _ _ _ 1 4194305 0 (asked (by decide))).1 (by decide)⟩,
    ⟨_, (h _ _ _ _ 64 0 15 (asked (by decide))).2.1 (by decide) rfl⟩,
    ⟨_, ((h _ _ _ _ 1 0 15 (asked (by decide))).2.2 _ (by decide) rfl).1 rfl⟩,
    ⟨_, ((h _ _ _ _ 1 3 15 (asked (by decide))).2.2 _ (by decide) rfl).2.1 (by decide) (by decide)⟩,
    ⟨_, ((h _ _ _ _ 1 101 0 (asked (by decide))).2.2 _ (by decide) rfl).2.2.1 (by decide) (by decide) (by decide)⟩,
    ⟨_, (((h _ _ _ _ 1 100 15 (asked (by decide))).2.2 _ (by decide) rfl).2.2.2 (by decide) (by decide) (by decide)).2.1
      (.inl rfl)⟩,
    ⟨_, (((h _ _ _ _ 1 4 0 (asked (by decide))).2.2 _ (by decide) rfl).2.2.2 (by decide) (by decide) (by decide)).2.1
      (.inr (.inr rfl))⟩,
    ⟨_, (((h _ _ _ _ 1 5 0 (asked (by decide))).2.2 _ (by decide) rfl).2.2.2 (by decide) (by decide) (by decide)).2.2
      0 [] _ 1 3 0 [1, 2] rfl (by decide) rfl rfl rfl (by decide) rfl (.inl rfl)⟩⟩

theorem witness_CutStarts (h : Obligations.CutStarts) :
    let cuts (x : Volume) (v drain : Nat) : Prop :=
      ∃ t, exec (.cut 0 0) (ask (withVol x) .cut (leBytes 1 v ++ leBytes 2 drain)) = .next t
    cuts vol 1 256 ∧ cuts vol 64 255 ∧ cuts { vol with state := .removing } 1 0
    ∧ cuts { vol with state := .preparing } 1 0 ∧ cuts { vol with cut := some cutRec } 1 0
    ∧ cuts { vol with epoch := 16777215 } 1 0 ∧ cuts (sixteen (snap 3)) 1 0 ∧ cuts { vol with inFlight := 1 } 1 255
    ∧ cuts (sixteen { snap 3 with state := .retiring }) 1 0 ∧ cuts (sixteen { snap 3 with kind := .scheduled }) 1 0
    ∧ cuts { vol with epoch := 16777214 } 1 0 :=
  ⟨⟨_, (h _ _ _ _ 1 256 (asked (by decide))).1 (by decide)⟩,
    ⟨_, (h _ _ _ _ 64 255 (asked (by decide))).2.1 (by decide) rfl⟩,
    ⟨_, ((h _ _ _ _ 1 0 (asked (by decide))).2.2 _ (by decide) rfl).1 rfl⟩,
    ⟨_, ((h _ _ _ _ 1 0 (asked (by decide))).2.2 _ (by decide) rfl).2.1 (.inl rfl)⟩,
    ⟨_, ((h _ _ _ _ 1 0 (asked (by decide))).2.2 _ (by decide) rfl).2.1 (.inr ⟨rfl, by decide⟩)⟩,
    ⟨_, ((h _ _ _ _ 1 0 (asked (by decide))).2.2 _ (by decide) rfl).2.2.1 rfl rfl rfl⟩,
    ⟨_, ((h _ _ _ _ 1 0 (asked (by decide))).2.2 _ (by decide) rfl).2.2.2.1 rfl rfl (by decide) (by decide)⟩,
    ⟨_, ((h _ _ _ _ 1 255 (asked (by decide))).2.2 _ (by decide) rfl).2.2.2.2.1 rfl rfl (by decide) (by decide)
      (by decide)⟩,
    ⟨_, ((h _ _ _ _ 1 0 (asked (by decide))).2.2 _ (by decide) rfl).2.2.2.2.2.1 rfl rfl (by decide) (by decide)
      (by decide)⟩,
    ⟨_, ((h _ _ _ _ 1 0 (asked (by decide))).2.2 _ (by decide) rfl).2.2.2.2.2.2.1 rfl rfl (by decide) (by decide)
      (by decide) _ rfl⟩,
    ⟨_, ((h _ _ _ _ 1 0 (asked (by decide))).2.2 _ (by decide) rfl).2.2.2.2.2.2.2 rfl rfl (by decide) (by decide) rfl
      (fun _ w => nomatch w) (fun _ q => nomatch q)⟩⟩

/-- A pool tag BUSY for a preservation. -/
def allBusy : PoolTag := .busy (.preserve 1 9) 0

/-- Volume 1 in this cut, port 0 tag 0 holding the CUT's transaction and port 1 tag 31 a WRITE. -/
def cutting (x : Volume) (c : CutRecord) : Device := { withVol { x with cut := some c } with
  txns := [(0, { cmd .cut [] with command := none }), (63, server .write .held none)] }

theorem witness_CutsEnd (h : Obligations.CutsEnd) :
    let gives (i : Instr) (d : Device) : Prop := ∃ t, exec i (run d []) = .next t
    let planned : CutRecord := { cutRec with requester := .schedule }
    gives (.drainTimeout 1) (withVol vol) ∧ gives (.cutCompletion 1) (cutting vol { cutRec with room := .waiting })
    ∧ gives (.cutCompletion 1) (cutting { vol with inFlight := 1 } cutRec)
    ∧ gives (.cutCompletion 1) (cutting { vol with retention := 1 } { planned with kind := .scheduled })
    ∧ gives (.cutCompletion 1) (cutting vol planned)
    ∧ gives (.cutCompletion 1) (cutting { vol with retention := 0 } { planned with kind := .scheduled })
    ∧ gives (.cutCompletion 1) (cutting vol cutRec) ∧ gives (.drainTimeout 1) (cutting vol planned)
    ∧ gives (.drainTimeout 1) (cutting vol cutRec) := by
  refine ⟨⟨_, ((h _ 1 rfl).1 (by intro x hx; cases hx; rfl)).2⟩, ⟨_, ((h _ 1 rfl).2 _ _ rfl rfl).1 (.inr rfl)⟩,
    ⟨_, ((h _ 1 rfl).2 _ _ rfl rfl).1 (.inl (by decide))⟩,
    ⟨_, ((h _ 1 rfl).2 _ _ rfl rfl).2.1 ⟨rfl, rfl⟩ ?_ ?_ rfl (.inr (by decide))⟩,
    ⟨_, ((h _ 1 rfl).2 _ _ rfl rfl).2.1 ⟨rfl, rfl⟩ ?_ ?_ rfl (.inl (by decide))⟩,
    ⟨_, ((h _ 1 rfl).2 _ _ rfl rfl).2.2.1 [] _ [] ⟨rfl, rfl⟩ ?_ ?_ rfl rfl rfl (by decide) ⟨rfl, rfl, rfl⟩ (by decide)
      (by decide)⟩,
    ⟨_, ((h _ 1 rfl).2 _ _ rfl rfl).2.2.2.1 0 0 _ ⟨rfl, rfl⟩ ?_ ?_ rfl (by decide) rfl⟩,
    ⟨_, ((h _ 1 rfl).2 _ _ rfl rfl).2.2.2.2.2.2.1 ?_ ?_ rfl⟩,
    ⟨_, ((h _ 1 rfl).2 _ _ rfl rfl).2.2.2.2.2.2.2.1 0 0 _ ?_ ?_ rfl rfl⟩⟩ <;>
  · intro _ m; cases m

/-- A pass of volume 1 that waits for its cut. -/
def cuttingPass (stop : Bool) : Pass := { pass with state := .cutting, snapshot := none, stopRequested := stop }

theorem witness_CutsEnd_pass (h : Obligations.CutsEnd) :
    let gives (i : Instr) (x : Volume) (c : CutRecord) (stop : Bool) : Prop :=
      ∃ t, exec i (run { cutting x c with dup.pass := some (cuttingPass stop) } []) = .next t
    let own : CutRecord := { cutRec with requester := .pass, kind := .duplication }
    let other : CutRecord := { cutRec with requester := .schedule }
    gives (.cutCompletion 1) vol own false ∧ gives (.cutCompletion 1) vol own true
    ∧ gives (.cutCompletion 1) { vol with epoch := 16777213 } other false
    ∧ gives (.cutCompletion 1) { vol with retention := 1 } { other with kind := .scheduled } false
    ∧ gives (.cutCompletion 1) vol cutRec false ∧ gives (.drainTimeout 1) vol own false
    ∧ gives (.drainTimeout 1) vol own true ∧ gives (.drainTimeout 1) { vol with epoch := 16777214, inFlight := 1 } other false
    ∧ gives (.drainTimeout 1) { vol with inFlight := 1 } cutRec false := by
  have p (x : Volume) (c : CutRecord) (stop : Bool) :
      (run { cutting x c with dup.pass := some (cuttingPass stop) } []).dev.PassAlone :=
    alone (fun k => by simp [run, cutting, withVol, d0, Device.reset, CopyEngine.initial, Device.slot?]) rfl rfl rfl
  refine ⟨⟨_, (((h _ 1 rfl).2 _ _ rfl rfl).2.2.2.2.1 _ ⟨rfl, rfl⟩ ?_ rfl rfl rfl).1 rfl⟩,
    ⟨_, (((h _ 1 rfl).2 _ _ rfl rfl).2.2.2.2.1 _ ⟨rfl, rfl⟩ ?_ rfl rfl rfl).2 rfl rfl (p _ _ _)⟩,
    ⟨_, (((h _ 1 rfl).2 _ _ rfl rfl).2.2.2.2.2.1 _ ⟨rfl, rfl⟩ ?_ rfl rfl rfl rfl rfl (by decide) (by decide)).1 rfl
      (.inl (by decide))⟩,
    ⟨_, (((h _ 1 rfl).2 _ _ rfl rfl).2.2.2.2.2.1 _ ⟨rfl, rfl⟩ ?_ rfl rfl rfl rfl rfl (by decide) (by decide)).1 rfl
      (.inr (by decide))⟩,
    ⟨_, (((h _ 1 rfl).2 _ _ rfl rfl).2.2.2.2.2.1 _ ⟨rfl, rfl⟩ ?_ rfl rfl rfl rfl rfl (by decide) (by decide)).2 0 0 _ rfl
      (by decide) rfl⟩,
    ⟨_, (((h _ 1 rfl).2 _ _ rfl rfl).2.2.2.2.2.2.2.2.1 _ ?_ rfl rfl rfl (p _ _ _)).1 rfl⟩,
    ⟨_, (((h _ 1 rfl).2 _ _ rfl rfl).2.2.2.2.2.2.2.2.1 _ ?_ rfl rfl rfl (p _ _ _)).2 rfl⟩,
    ⟨_, (((h _ 1 rfl).2 _ _ rfl rfl).2.2.2.2.2.2.2.2.2.1 _ ?_ rfl rfl rfl rfl (by decide) (by decide) (by decide)).1 rfl⟩,
    ⟨_, (((h _ 1 rfl).2 _ _ rfl rfl).2.2.2.2.2.2.2.2.2.1 _ ?_ rfl rfl rfl rfl (by decide) (by decide) (by decide)).2 0 0 _
      rfl rfl⟩⟩ <;>
  · intro _ m; cases m

/-- Volume 1 in a cut, every unreserved tag BUSY, port 1 tag 31 holding a one-block WRITE. -/
def holding : Device := { cutting vol cutRec with
  cutHold := [.server 1 31], pool := { Pool.initial with link := .up, tags := Vector.replicate 64 allBusy } }

theorem witness_CutsEnd_held (h : Obligations.CutsEnd) :
    (∃ t, exec (.cutCompletion 1) (run holding []) = .next t) ∧ ∃ t, exec (.drainTimeout 1) (run holding []) = .next t := by
  have e := ((h (run holding []) 1 rfl).2 _ _ rfl rfl).2.2.2.2.2.2.2.2.2.2 1 0 31 0 _ _ [] [] (by intro _ m; cases m) rfl rfl
    rfl rfl (by intro _ m; cases m) rfl rfl rfl rfl (by decide) (by decide) rfl (by decide) rfl rfl
    (by intro k _; simp [run, holding, allBusy])
  exact ⟨⟨_, e.1 ⟨rfl, rfl⟩ (by decide) rfl⟩, ⟨_, e.2 rfl⟩⟩

theorem pastKept : ∀ e ∈ [kept], ¬ (e.volume = 1 ∧ ∀ g f, (some (3, 2) : Option (Nat × Nat)) = some (g, f) →
    g < e.grain ∨ (g = e.grain ∧ f < e.first)) := by
  intro e he hl
  simp only [List.mem_singleton] at he
  subst he
  have := hl.2 3 2 rfl
  revert this; decide

/-- The sweep past every entry, with grain 5 waiting for a slot for port 1 tag 31. -/
def sweptWaiting (at_ : Option (Nat × Nat)) (l : List Snapshot) : Device :=
  let t := server .write .admitting (some 0)
  { withTxn (withMap { sweeping at_ none with snapshots := l, slotWait := [5], inFlight := 1 })
      { t with job := { t.job with first := 40, waits := [5] } } with
    pres.table := [(pendKey 1 5,
      { volume := 1, grain := 5, phase := .slotWait 1 3, readers := 0, waiters := [.server 1 31] })] }

def retiring2 : Snapshot := { snap 2 with state := .retiring }

theorem witness_SweepsVisitAndEnd (h : Obligations.SweepsVisitAndEnd) :
    let gives (i : Instr) (d : Device) : Prop := ∃ t, exec i (run d []) = .next t
    gives (.sweepVisit 1) (withVol vol) ∧ gives (.sweepVisit 1) (withMap (sweeping (some (3, 2)) none))
    ∧ gives (.retirementEnd 1) (withMap (sweeping none none))
    ∧ gives (.sweepVisit 1) (withMap { sweeping (some (3, 1)) none with
        snapshots := [{ snap 2 with state := .retiring }, snap 4] })
    ∧ gives (.sweepVisit 1) (withMap (sweeping none none))
    ∧ gives (.retirementEnd 1) (withMap (sweeping (some (3, 2)) none))
    ∧ gives (.retirementEnd 1) (withTaken (withMap (sweeping (some (3, 2)) (some answerTo))))
    ∧ gives (.retirementEnd 1) (withMap { sweeping (some (3, 2)) none with cut := some cutRec, inFlight := 1 }) := by
  have past := pastKept
  refine ⟨⟨_, ((h _ 1 _ rfl rfl).1 rfl).1⟩, ⟨_, (h _ 1 (sweeping (some (3, 2)) none) rfl rfl).2.1 past⟩,
    ⟨_, (h _ 1 _ rfl rfl).2.2.1 kept (.head _) ⟨rfl, by intro g f hf; cases hf⟩⟩,
    ⟨_, ((h _ 1 _ rfl rfl).2.2.2.1 [] kept [] (by decide) rfl (by intro f hf; cases hf)
      ⟨rfl, by intro g f hf; cases hf; decide⟩).1 (by decide)⟩,
    ⟨_, (((h _ 1 _ rfl rfl).2.2.2.1 [] kept [] (by decide) rfl (by intro f hf; cases hf)
      ⟨rfl, by intro g f hf; cases hf⟩).2 (by decide)).1 rfl⟩,
    ⟨_, ((h _ 1 _ rfl rfl).2.2.2.2 2 [] _ rfl past (by decide) rfl).1 rfl rfl rfl⟩,
    ⟨_, ((h _ 1 _ rfl rfl).2.2.2.2 2 [] _ rfl past (by decide) rfl).2.1 0 0 _ rfl rfl rfl rfl⟩,
    ⟨_, ((h _ 1 _ rfl rfl).2.2.2.2 2 [] _ rfl past (by decide) rfl).2.2.1 _ rfl rfl rfl (by decide) (by decide)⟩⟩

theorem witness_SweepsVisitAndEnd_waiting (h : Obligations.SweepsVisitAndEnd) :
    let ends (l : List Snapshot) : Prop := ∃ t, exec (.retirementEnd 1) (run (sweptWaiting (some (3, 2)) l) []) = .next t
    (∃ t, exec (.sweepVisit 1) (run (sweptWaiting none [retiring2]) []) = .next t) ∧ ends [retiring2]
    ∧ ends [snap 1, retiring2, { snap 3 with state := .retiring }] ∧ ends [snap 1, retiring2]
    ∧ ends [{ snap 1 with pins := 1 }, retiring2] := by
  have e (l : List Snapshot) (hl : l.find? (fun m => m.number = 2) = some retiring2) :=
    ((h (run (sweptWaiting (some (3, 2)) l) []) 1 { sweeping (some (3, 2)) none with
      snapshots := l, slotWait := [5], inFlight := 1 } rfl rfl).2.2.2.2 2 [] retiring2 rfl pastKept (by simp [sweeping, vol])
      hl).2.2.2 5 1 3 _ 1 31 _ rfl rfl rfl rfl rfl rfl rfl rfl rfl rfl rfl rfl rfl rfl rfl
  exact ⟨⟨_, (((h _ 1 _ rfl rfl).2.2.2.1 [] kept [] (by decide) rfl (by intro f hf; cases hf)
      ⟨rfl, by intro g f hf; cases hf⟩).2 (by decide)).2 5 [] _ 1 3 9 [] rfl (by decide) rfl rfl rfl (by decide) rfl
      (.inr (.inl rfl))⟩,
    ⟨_, (e [retiring2] rfl).1 (by decide) (by decide)⟩,
    ⟨_, (e [snap 1, retiring2, { snap 3 with state := .retiring }] rfl).2.1 (by decide) (by decide)⟩,
    ⟨_, (e [snap 1, retiring2] rfl).2.2.1 [] (snap 1) [] (by decide) (by decide) rfl (by decide) rfl (by decide)⟩,
    ⟨_, (e [{ snap 1 with pins := 1 }, retiring2] rfl).2.2.2 (by decide) (by decide)⟩⟩

theorem witness_RestoreStatusAndCancel (h : Obligations.RestoreStatusAndCancel) :
    let status (l : List Restore) : Prop :=
      ∃ t, exec (.restoreStatus 0 0) (ask { d0 with copy.restores := l } .restoreStatus (leBytes 2 1)) = .next t
    let cancel (d : Device) (l : List Restore) : Prop :=
      ∃ t, exec (.restoreCancel 0 0) (ask { d with copy.restores := l } .restoreCancel (leBytes 2 1)) = .next t
    let waits : Device := retrying (withVol snapVol) .admitting
    status [rec 2 .ended] ∧ status [rec 2 .ended, rec 1 .queued] ∧ cancel d0 [] ∧ cancel d0 [rec 1 .ended]
    ∧ cancel d0 [{ rec 1 .running with cancel := true }] ∧ cancel (slotsBusy d0) [rec 1 .running]
    ∧ cancel waits [{ rec 1 .running with inFlight := 2 }] ∧ cancel waits [rec 1 .running]
    ∧ cancel (withVol { vol with snapshots := [{ snap 2 with pins := 1 }] }) [rec 1 .queued]
    ∧ cancel (slotsBusy (withVol snapVol)) [{ rec 1 .running with inFlight := 0 }]
    ∧ cancel (slotsBusy (withVol snapVol)) ({ rec 1 .running with inFlight := 0 } :: rec 2 .queued
        :: (List.range 7).map fun n => rec (n + 3) .running) := by
  have f : ∀ (l : List Restore) (x : Restore), l = [x] → x.id = 1 →
      ∃ before after, l = before ++ x :: after ∧ x.id = 1 ∧ (∀ r ∈ before, r.id ≠ 1) ∧ ∀ r ∈ after, r.id ≠ 1 :=
    fun l x hl hx => ⟨[], [], hl, hx, by simp, by simp⟩
  exact ⟨⟨_, ((h _ _ _ _ 1).1 (asked (by decide))).1 (by decide)⟩,
    ⟨_, ((h _ _ _ _ 1).1 (asked (by decide))).2 (rec 1 .queued) ⟨[rec 2 .ended], [], rfl, rfl, by decide, by decide⟩⟩,
    ⟨_, ((h _ _ _ _ 1).2 (asked (by decide))).1 (by decide)⟩,
    ⟨_, (((h _ _ _ _ 1).2 (asked (by decide))).2 _ (f _ _ rfl rfl)).1 rfl⟩,
    ⟨_, (((h _ _ _ _ 1).2 (asked (by decide))).2 _ (f _ _ rfl rfl)).2.1 rfl rfl⟩,
    ⟨_, (((h _ _ _ _ 1).2 (asked (by decide))).2 _ (f _ _ rfl rfl)).2.2.1 rfl rfl (by decide) (.inl (by intro k; simp [ask, slotsBusy, copying]))⟩,
    ⟨_, (((h _ _ _ _ 1).2 (asked (by decide))).2 _ (f _ _ rfl rfl)).2.2.1 rfl rfl (by decide) (.inr (by decide))⟩,
    ⟨_, ((((h _ _ _ _ 1).2 (asked (by decide))).2 _ (f _ _ rfl rfl)).2.2.2.1 0 _ _ rfl rfl (by decide) rfl rfl rfl).1
      (.inr (by decide)) (by decide)⟩,
    ⟨_, (((h _ _ _ _ 1).2 (asked (by decide))).2 _ (f _ _ rfl rfl)).2.2.2.2 _ rfl rfl⟩,
    ⟨_, ((((h _ _ _ _ 1).2 (asked (by decide))).2 _ (f _ _ rfl rfl)).2.2.2.1 0 _ _ rfl rfl (by decide) rfl rfl rfl).1
      (.inl (by intro k; simp [ask, slotsBusy, copying])) (by decide)⟩,
    ⟨_, ((((h _ _ _ _ 1).2 (asked (by decide))).2 _ ⟨[], _, rfl, rfl, by decide, by decide⟩).2.2.2.1 0 _ _ rfl rfl
      (by decide) rfl rfl rfl).2 (rec 2 .queued) [{ rec 1 .running with inFlight := 0 }] _
      (by intro k; simp [ask, slotsBusy, copying]) rfl rfl (by decide) (by decide) (by decide)⟩⟩

/-- Port 1 tag 31 with an admitted WRITE that waits on grain 3, whose entry stands in this phase. -/
def admitting (ph : PendPhase) (readers : Nat) (waiters : List WriteId) : Device :=
  let t := server .write .admitting (some 0)
  { withTxn (withVol { vol with inFlight := 1, slotWait := [3] }) { t with job := { t.job with waits := [3] } } with
    pres.table := [(pendKey 1 3, { volume := 1, grain := 3, phase := ph, readers := readers, waiters := waiters })] }

/-- A FENCE of port 1 waiting in port 0 tag 0, this transaction open in port 1 tag 31. -/
def fencing (d : Device) (t : Txn) : Device := { d with txns := [(0, cmd .fence [1]), (63, t)] }

theorem witness_PortWorkDiscarded (h : Obligations.PortWorkDiscarded) :
    let gives (i : Instr) (d : Device) : Prop := ∃ t, exec i (run d []) = .next t
    let w : Device := withVol { vol with inFlight := 1 }
    gives (.serverLinkDown 1) { w with txns := [(62, server .read .queued none), (63, server .write .queued (some 33))] }
    ∧ gives (.livenessExpiry 1) (silent d0) ∧ gives (.serverLinkDown 1) (withTxn w (server .write .held none))
    ∧ gives (.livenessExpiry 1) (silent (withTxn w (server .read .queued none)))
    ∧ gives (.serverLinkDown 1) (withTxn w (server .write (.forwarded 59) (some 0)))
    ∧ gives (.serverLinkDown 1) (withTxn w (cmd .cut [])) ∧ gives (.serverLinkDown 1) (withTxn w (server .write .queued (some 0)))
    ∧ gives (.serverLinkDown 1) (withTxn w (server .write .queued (some 1)))
    ∧ gives (.serverLinkDown 1) (admitting (.slotWait 1 3) 0 [.server 1 31, .slot 0])
    ∧ gives (.serverLinkDown 1) (admitting (.slotWait 1 3) 1 [.server 1 31])
    ∧ gives (.serverLinkDown 1) (admitting (.slotWait 1 3) 0 [.server 1 31]) := by
  have down (d : Device) (hd : d.resetLow = false) (hu : (d.port 1).link = .up) :=
    (h (run d []) 1 hd).1 (.serverLinkDown 1) _ id (.inl ⟨rfl, hu, rfl, rfl⟩)
  have dead (d : Device) (hd : d.resetLow = false) (hs : ((silent d).port 1).link = .up ∧ ((silent d).port 1).fence = none
      ∧ ((silent d).port 1).reload > 0 ∧ ((silent d).port 1).counter = 0) :=
    (h (run (silent d) []) 1 hd).1 (.livenessExpiry 1) _ id (.inr (.inl ⟨rfl, hs.1, hs.2.1, hs.2.2.1, hs.2.2.2, rfl, rfl⟩))
  refine ⟨⟨_, (down _ rfl (by decide)).1⟩, ⟨_, (dead d0 rfl (by decide)).2.1 rfl⟩,
    ⟨_, ((down _ rfl (by decide)).2.2 31 _ (by decide) rfl).1 rfl⟩,
    ⟨_, ((dead _ rfl (by decide)).2.2 31 _ (by decide) rfl).2.1 (by decide) rfl⟩,
    ⟨_, ((down _ rfl (by decide)).2.2 31 _ (by decide) rfl).2.2.1 (.inr ⟨59, rfl⟩)⟩,
    ⟨_, ((down (withTxn _ (cmd .cut [])) rfl (by decide)).2.2 31 (cmd .cut []) (by decide) rfl).2.2.1 (.inl rfl)⟩,
    ⟨_, (((down _ rfl (by decide)).2.2 31 _ (by decide) rfl).2.2.2 _ 0 (.inr ⟨rfl, rfl⟩) rfl rfl rfl (by decide)).1
      rfl rfl⟩, ?_,
    ⟨_, ((((down _ rfl (by decide)).2.2 31 _ (by decide) rfl).2.2.2 _ 0 (.inl rfl) rfl rfl rfl (by decide)).2.2
      3 { volume := 1, grain := 3, phase := .slotWait 1 3, readers := 0, waiters := [.server 1 31, .slot 0] } rfl rfl
      (by decide)).1 (.inr (by decide))⟩,
    ⟨_, ((((down _ rfl (by decide)).2.2 31 _ (by decide) rfl).2.2.2 _ 0 (.inl rfl) rfl rfl rfl (by decide)).2.2
      3 { volume := 1, grain := 3, phase := .slotWait 1 3, readers := 1, waiters := [.server 1 31] } rfl rfl
      (by decide)).2.1 1 3 rfl (by decide) (by decide)⟩,
    ⟨_, ((((down _ rfl (by decide)).2.2 31 _ (by decide) rfl).2.2.2 _ 0 (.inl rfl) rfl rfl rfl (by decide)).2.2
      3 { volume := 1, grain := 3, phase := .slotWait 1 3, readers := 0, waiters := [.server 1 31] } rfl rfl
      (by decide)).2.2 1 3 rfl (by decide) rfl rfl⟩⟩
  obtain ⟨d, g, -, -⟩ := (((down (withTxn (withVol { vol with inFlight := 1 }) (server .write .queued (some 1))) rfl
    (by decide)).2.2 31 _ (by decide) rfl).2.2.2 _ 1 (.inr ⟨rfl, rfl⟩) rfl rfl rfl (by decide)).2.1 rfl (by decide)
  exact ⟨_, g⟩

theorem witness_PortWorkDiscarded_fence (h : Obligations.PortWorkDiscarded) :
    let fences (d : Device) (n : Nat) : Prop := ∃ t, exec (.fence 0 0) (ask d .fence [BitVec.ofNat 8 n]) = .next t
    fences d0 4 ∧ fences d0 0
    ∧ fences { d0 with ports := d0.ports.set 3 { d0.port 3 with fence := some .liveness } } 3
    ∧ (∃ t, exec (.fence 0 0) (run (fencing d0 (server .read .queued none)) []) = .next t)
    ∧ ∃ t, exec (.fence 0 0) (run (fencing d0 (server .read (.forwarded 59) none)) []) = .next t := by
  have issued (t : Txn) : (run (fencing d0 t) []).Issued 0 0 .fence (cmd .fence [1]) [.num (1 : PortId).val] :=
    ⟨rfl, rfl, ⟨_, rfl, by decide, by decide⟩, .inl (by show (d0.port 0).role = .manager; decide)⟩
  have open1 (t : Txn) := (h (run (fencing d0 t) []) 1 rfl).1 (.fence 0 0) _ _
    (.inr (.inr ⟨0, 0, _, rfl, by decide, by decide, (by decide : (d0.port 1).fence = none), issued t, rfl, rfl⟩))
  exact ⟨⟨_, ((h _ 1 rfl).2 _ _ 4 _ (asked (by decide))).1 (by decide)⟩,
    ⟨_, ((h _ 1 rfl).2 _ _ 0 _ (asked (by decide))).2.1 (by decide)⟩,
    ⟨_, ((h _ 3 rfl).2 _ _ 3 _ (asked (by decide))).2.2 rfl (by decide) .liveness (by decide)⟩,
    ⟨_, ((open1 (server .read .queued none)).2.2 31 _ (by decide) rfl).2.1 (by decide) rfl⟩,
    ⟨_, ((open1 (server .read (.forwarded 59) none)).2.2 31 _ (by decide) rfl).2.2.1 (.inr ⟨59, rfl⟩)⟩⟩

/-- Pool tag k quarantined until 5000, every other tag with this state, these requests waiting. -/
def granting (k : PoolTagId) (rest : PoolTag) (Q P C : List PoolRequest) (streak : Nat) : Device := { withVol vol with
  pool := { tags := (Vector.replicate 64 rest).set k (.quarantined 5000), preserveQ := Q, pathQ := P, copyQ := C
            streak := streak, link := .up }
  txns := [(63, server .read .queued none)]
  copy.slots := Vector.ofFn fun j : SlotId => if j = 15 then some copying else if j = 14 then
    some { copying with phase := .writing (server .write .queued (some 0)).job none } else none }

def wants (r : Requester) : PoolRequest := { requester := r, op := .read 24 8 }

theorem soleFree (k : PoolTagId) (Q P C : List PoolRequest) (streak : Nat) :
    ∀ j, j ≠ k → (granting k allBusy Q P C streak).pool.tags[j] ≠ .free := by
  intro j hj
  have : k.val ≠ j.val := fun e => hj (Fin.ext e.symm)
  simp [granting, this, allBusy]

theorem quarantined (k : PoolTagId) (rest : PoolTag) (Q P C : List PoolRequest) (streak : Nat) :
    (granting k rest Q P C streak).pool.tags[k] = .quarantined 5000 := by
  simp [granting]

theorem witness_PoolTransactionsEnd (h : Obligations.PoolTransactionsEnd) :
    let gives (i : Instr) (d : Device) : Prop := ∃ t, exec i (run d []) = .next t
    let w : Device := withTxn (withTag d0 (.busy (.server 1 31) 0)) (server .read (.forwarded 59) none)
    gives (.poolTimeout 59) (withTag d0 (.quarantined 5000)) ∧ gives (.quarantineEnd 59) d0 ∧ gives (.poolTimeout 59) w
    ∧ gives (.poolDone 59 .refused []) w ∧ gives (.quarantineEnd 59) (withTag d0 (.quarantined 5000))
    ∧ gives (.quarantineEnd 59) (withReset (withTag d0 (.quarantined 5000)) [59, 60])
    ∧ gives (.quarantineEnd 59) (withReset (withTag d0 (.quarantined 5000)) [59]) :=
  ⟨⟨_, ((h _ 59 rfl).1 (by intro r m hb; revert hb; simp [run, withTag])).1⟩,
    ⟨_, (h _ 59 rfl).2.1 (by intro m hb; revert hb; simp [run, d0, Pool.initial])⟩,
    ⟨_, ((h _ 59 rfl).2.2.1 1 31 0 _ rfl rfl rfl).1⟩,
    ⟨_, ((h _ 59 rfl).2.2.1 1 31 0 _ rfl rfl rfl).2 ⟨rfl, rfl, rfl⟩ _ _⟩,
    ⟨_, ((h _ 59 rfl).2.2.2.1 5000 rfl ⟨rfl, rfl, rfl⟩).1 rfl⟩,
    ⟨_, (((h _ 59 rfl).2.2.2.1 5000 rfl ⟨rfl, rfl, rfl⟩).2 _ rfl).1 (by decide)⟩,
    ⟨_, (((h _ 59 rfl).2.2.2.1 5000 rfl ⟨rfl, rfl, rfl⟩).2 _ rfl).2 _ (by decide) rfl⟩⟩

theorem witness_PoolTransactionsEnd_grant (h : Obligations.PoolTransactionsEnd) :
    let gives (k : PoolTagId) (d : Device) : Prop := ∃ t, exec (.quarantineEnd k) (run d []) = .next t
    let P := [wants (.server 1 31)]
    gives 59 (granting 59 allBusy [wants (.preserve 1 3)] P [wants (.slot 15)] 3)
    ∧ gives 60 (granting 60 allBusy [] P [wants (.slot 15)] 0)
    ∧ gives 59 (granting 59 allBusy [] P [wants (.slot 15)] 2) ∧ gives 59 (granting 59 allBusy [] P [] 3)
    ∧ gives 59 (granting 59 allBusy [] P [wants (.slot 15)] 3) ∧ gives 59 (granting 59 allBusy [] [] [wants (.slot 14)] 0)
    ∧ gives 59 (granting 59 .free [wants (.preserve 1 3)] [] [] 0)
    ∧ gives 0 (granting 0 allBusy [wants (.preserve 1 3)] [] [] 0) := by
  have g (k : PoolTagId) (rest : PoolTag) (Q P C : List PoolRequest) (streak : Nat) :=
    (h (run (granting k rest Q P C streak) []) k rfl).2.2.2.2 5000 (quarantined k rest Q P C streak) rfl
  refine ⟨⟨_, (g 59 allBusy _ _ _ 3).1 _ _ (soleFree _ _ _ _ _) rfl rfl⟩,
    ⟨_, (g 60 allBusy _ _ _ 0).2.1 (soleFree _ _ _ _ _) rfl (by decide)⟩,
    ⟨_, (g 59 allBusy _ _ _ 2).2.2.1 _ _ 1 31 _ (soleFree _ _ _ _ _) rfl (by decide) rfl rfl rfl (.inr (by show 2 < 3; decide))⟩,
    ⟨_, (g 59 allBusy _ _ _ 3).2.2.1 _ _ 1 31 _ (soleFree _ _ _ _ _) rfl (by decide) rfl rfl rfl (.inl rfl)⟩,
    ⟨_, ((g 59 allBusy _ _ _ 3).2.2.2.1 _ _ 15 _ (soleFree _ _ _ _ _) rfl (by decide) rfl rfl rfl
      (.inr (by show 3 ≥ 3; decide))).1 rfl⟩,
    ⟨_, ((g 59 allBusy _ _ _ 0).2.2.2.1 _ _ 14 _ (soleFree _ _ _ _ _) rfl (by decide) rfl rfl rfl (.inl rfl)).2 _ _ rfl⟩,
    ⟨_, (g 59 .free _ _ _ 0).2.2.2.2 _ 60 rfl rfl rfl rfl (.inl ?_)⟩,
    ⟨_, (g 0 allBusy _ _ _ 0).2.2.2.2 _ 0 rfl rfl rfl rfl (.inr ⟨?_, ?_⟩)⟩⟩
  · exact ⟨by decide, by decide, by decide, fun j h1 h2 => absurd (Fin.lt_def.1 h2) (Nat.not_lt.2 h1)⟩
  · exact ⟨by decide, by decide, by decide, fun j _ h2 => absurd h2 (Fin.not_lt_zero j)⟩
  · intro j hj hf
    have : (0 : Nat) ≠ j.val := by omega
    simp [run, granting, this, allBusy] at hf

theorem witness_WriteEndSettlesCharge (h : Obligations.WriteEndSettlesCharge) :
    ∃ t, exec (.poolDone 59 .ok []) (run (withTxn (withTag { withVol { vol with inFlight := 1 } with
        accounts := [(7, { Account.initial with usage := 4294967295, held := 33 })]
        groups := [(0, { Group.initial with usage := 4294967295, held := 33 })] }
      (.busy (.server 1 31) 0)) (server .write (.forwarded 59) (some 33))) []) = .next t :=
  (h _ 59 1 31 0 33 _ _ .ok [] rfl rfl rfl rfl rfl (by decide) rfl rfl rfl (by decide) rfl rfl rfl).imp fun _ g => g.1

/-- One tag, 59, BUSY for this requester. -/
def oneBusy (d : Device) (r : Requester) : Device := withTag d (.busy r 0)

theorem witness_PoolLinkLost (h : Obligations.PoolLinkLost) :
    let gives (d : Device) : Prop := ∃ t, exec .poolLinkDown (run d []) = .next t
    let write (c : Nat) : Device :=
      withTxn (oneBusy (withVol { vol with inFlight := 1 }) (.server 1 31)) (server .write (.forwarded 59) (some c))
    gives Device.reset ∧ gives (tagsBusy d0) ∧ gives d0
    ∧ gives (withTxn (oneBusy d0 (.server 1 31)) (server .read (.forwarded 59) none)) ∧ gives (write 0) ∧ gives (write 1)
    ∧ gives (preserving { vol with slotsHeld := 1 } (.preserving 1 3 9))
    ∧ gives (preserving { vol with slotsHeld := 1 } (.storing 1 3 9 []))
    ∧ gives (slotReads vol copying [{ rec 1 .running with inFlight := 2 }]) := by
  have w (c : Nat) : ∃ t, exec .poolLinkDown (run (withTxn (oneBusy (withVol { vol with inFlight := 1 }) (.server 1 31))
      (server .write (.forwarded 59) (some c))) []) = .next t := by
    obtain ⟨e, -, -, -, g⟩ := ((h (run (withTxn (oneBusy (withVol { vol with inFlight := 1 }) (.server 1 31))
      (server .write (.forwarded 59) (some c))) []) rfl).2 rfl).2.2.2.1 1 31 _ c { vol with inFlight := 1 } rfl rfl rfl rfl
      rfl rfl rfl (by decide)
    exact ⟨_, g⟩
  refine ⟨⟨_, (h _ rfl).1 rfl⟩, ?_, ⟨_, ((h _ rfl).2 rfl).2.1 rfl⟩, ⟨_, ((h _ rfl).2 rfl).2.2.1 1 31 _ rfl rfl rfl⟩,
    w 0, w 1, ⟨_, ((h _ rfl).2 rfl).2.2.2.2.1 1 3 _ _ 1 3 9 rfl rfl rfl rfl (.inl rfl) rfl (by decide) rfl rfl⟩,
    ⟨_, ((h _ rfl).2 rfl).2.2.2.2.1 1 3 _ _ 1 3 9 rfl rfl rfl rfl (.inr ⟨[], rfl⟩) rfl (by decide) rfl rfl⟩,
    ⟨_, ((h _ rfl).2 rfl).2.2.2.2.2 15 _ 9 2 1 _ [] [] 0 rfl rfl rfl rfl rfl rfl rfl (by simp) rfl rfl rfl rfl (by decide)
      rfl⟩⟩
  obtain ⟨l, -, g⟩ := ((h (run (tagsBusy d0) []) rfl).2 rfl).1
  exact ⟨_, g⟩

theorem witness_EnrolAndPacing (h : Obligations.EnrolAndPacing) :
    let enrols (d : Device) (v : Nat) (m : String) (target : Nat) : Prop :=
      ∃ t, exec (.enrol 0 0) (ask d .enrol (leBytes 1 v ++ padded m ++ leBytes 2 target)) = .next t
    let now (d : Device) (v : Nat) : Prop := ∃ t, exec (.duplicateNow 0 0) (ask d .duplicateNow (leBytes 1 v)) = .next t
    let paces (d : Device) (m : String) : Prop := ∃ t, exec (.pacingSet 0 0) (ask d .pacingSet (padded m)) = .next t
    let two : Device := { withVol vol with volumes := [(1, vol), (2, { vol with enrolment := .once, target := some 9 })] }
    let on : Device := withVol { vol with enrolment := .nightly, target := some 4095 }
    enrols d0 1 "WEEKLY" 1 ∧ enrols d0 1 "ONCE" 4096 ∧ enrols d0 64 "ONCE" 4095
    ∧ enrols (withVol { vol with state := .removing }) 1 "NONE" 0 ∧ enrols two 1 "NIGHTLY" 9
    ∧ enrols (withPass (withVol vol) pass) 1 "ONCE" 8 ∧ enrols (withVol { vol with target := some 8 }) 1 "ONCE" 4095
    ∧ enrols (withVol vol) 1 "NONE" 0 ∧ now d0 65 ∧ now d0 64 ∧ now (withVol { vol with state := .removing }) 1
    ∧ now (withVol { vol with state := .preparing }) 1 ∧ now (withVol vol) 1 ∧ now (withPass on pass) 1
    ∧ now { withPass on pass with dup.queue := [{ volume := 1, origin := .window }] } 1
    ∧ paces d0 "TRICKLE" ∧ paces (slotsBusy d0) "SHARE" := by
  refine ⟨⟨_, ((h _ _ _ _).1 1 1 (padded "WEEKLY") (asked (by decide))).1 (by decide) (by decide) (by decide)⟩,
    ⟨_, (((h _ _ _ _).1 1 4096 (padded "ONCE") (asked (by decide))).2 .once (.inr (.inr ⟨rfl, rfl⟩))).1 (by decide)⟩,
    ⟨_, (((h _ _ _ _).1 64 4095 (padded "ONCE") (asked (by decide))).2 .once (.inr (.inr ⟨rfl, rfl⟩))).2.1 (by decide)
      rfl⟩,
    ⟨_, ((((h _ _ _ _).1 1 0 (padded "NONE") (asked (by decide))).2 .none (.inl ⟨rfl, rfl⟩)).2.2 _ (by decide) rfl).1
      rfl⟩,
    ⟨_, ((((h _ _ _ _).1 1 9 (padded "NIGHTLY") (asked (by decide))).2 .nightly (.inr (.inl ⟨rfl, rfl⟩))).2.2 _
      (by decide) rfl).2.1 (by decide) (by decide) (by decide)⟩,
    ⟨_, ((((h _ _ _ _).1 1 8 (padded "ONCE") (asked (by decide))).2 .once (.inr (.inr ⟨rfl, rfl⟩))).2.2 _
      (by decide) rfl).2.2.1 (by decide) (by decide) (by decide) ⟨pass, rfl, rfl, by decide⟩⟩,
    ⟨_, ((((h _ _ _ _).1 1 4095 (padded "ONCE") (asked (by decide))).2 .once (.inr (.inr ⟨rfl, rfl⟩))).2.2 _
      (by decide) rfl).2.2.2.1 (by decide) (by decide) (by decide) (by rintro ⟨q, a, -⟩; cases a)⟩,
    ⟨_, ((((h _ _ _ _).1 1 0 (padded "NONE") (asked (by decide))).2 .none (.inl ⟨rfl, rfl⟩)).2.2 _ (by decide)
      rfl).2.2.2.2 (by decide) rfl⟩,
    ⟨_, ((h _ _ _ _).2.1 65 (asked (by decide))).1 (by decide)⟩,
    ⟨_, ((h _ _ _ _).2.1 64 (asked (by decide))).2.1 (by decide) (by decide) rfl⟩,
    ⟨_, (((h _ _ _ _).2.1 1 (asked (by decide))).2.2 _ (by decide) (by decide) rfl).1 rfl⟩,
    ⟨_, (((h _ _ _ _).2.1 1 (asked (by decide))).2.2 _ (by decide) (by decide) rfl).2.1 rfl⟩,
    ⟨_, (((h _ _ _ _).2.1 1 (asked (by decide))).2.2 _ (by decide) (by decide) rfl).2.2.1 rfl rfl⟩,
    ⟨_, ((((h _ _ _ _).2.1 1 (asked (by decide))).2.2 _ (by decide) (by decide) rfl).2.2.2 rfl (by decide)).1
      (by decide) |>.2 (by decide)⟩,
    ⟨_, ((((h _ _ _ _).2.1 1 (asked (by decide))).2.2 _ (by decide) (by decide) rfl).2.2.2 rfl (by decide)).2 [] _ []
      rfl rfl (by decide) (by decide) (by decide)⟩,
    ⟨_, ((h _ _ _ _).2.2 (padded "TRICKLE") (asked (by decide))).2.1 (.inl rfl) (fun _ m => by cases m)⟩,
    ⟨_, ((h _ _ _ _).2.2 (padded "SHARE") (asked (by decide))).1 (by decide)⟩⟩

/-- Volume 1 with one grain written at version 2, only copy slot 15 FREE. -/
def oneSlot (g : Nat) : Device := { withVol { snapVol with grains := [(g, 2)] } with
  copy.slots := (Vector.replicate 16 (some copying)).set 15 none }

def oneRestore : Device := { oneSlot 15 with
  copy.restores := [{ rec 1 .running with
    extents := [{ source := 14, count := 2, destVolume := 1, dest := 0, fresh := false, notify := true }]
    cursor := some 14 }] }

theorem witness_EnrolAndPacing_grant (h : Obligations.EnrolAndPacing) :
    let paces (d : Device) : Prop := ∃ t, exec (.pacingSet 0 0) (ask d .pacingSet (padded "SPRINT")) = .next t
    paces (withDup (oneSlot 3) pass [place .sweep .ready] []) ∧ paces oneRestore := by
  have f (g : Nat) (l : SlotId) (hl : l ≠ 15) : (oneSlot g).slot? l ≠ none := by
    have a : ∀ l : SlotId, l ≠ 15 → ((Vector.replicate 16 (some copying)).set 15 none)[l] ≠ none := by decide
    exact a l hl
  refine ⟨⟨_, (((h (ask (withDup (oneSlot 3) pass [place .sweep .ready] []) .pacingSet _) _ _ _).2.2 (padded "SPRINT")
      (asked (by decide))).2.2 15 rfl (f 3) rfl).1 _ [] _ [] rfl rfl rfl
      (by intro _ m; cases m) (by decide) (.inl (by intro _ m; cases m)) ⟨by decide, fun _ _ => by decide⟩⟩,
    ⟨_, (((h (ask oneRestore .pacingSet _) _ _ _).2.2 (padded "SPRINT") (asked (by decide))).2.2 15 rfl (f 15)
      rfl).2 [] _ [] 0 _ 14 15 rfl
      (by intro _ m; cases m) ⟨rfl, rfl, rfl, rfl, rfl, by decide, rfl⟩ (.inl (.inl rfl)) (by intro _ m; cases m)
      (by decide) (by decide) (by decide) ?_ ⟨by decide, fun _ _ => by decide⟩ ?_⟩⟩
  · rintro ⟨-, -, e⟩; revert e; decide
  · intro x h1 h2
    have : x = 14 := by omega
    subst this
    exact .inl (by decide)

theorem witness_TransmitterTakesFrames (h : Obligations.TransmitterTakesFrames) :
    let gives (i : Instr) (d : Device) : Prop := ∃ t, exec i (run d []) = .next t
    let te : Instr := .transmissionEnd
    let pl (src : PlaceSource) : List Place := [place src (.placed [1] 7), place .sweep .ready]
    let full : Batch := { batch 0 .opened with grains := List.replicate 255 1 }
    let last : Batch := { batch 0 .resending with reopened := true }
    gives te d0 ∧ gives te { atEnd d0 with dup.link := .up } ∧ gives te { atEnd d0 with dup.attention := some 65535 }
    ∧ gives te (atEnd { d0 with dup.batches := [batch 0 .opened, { batch 1 .shut with shutWaits := true }] })
    ∧ gives te (atEnd d0) ∧ gives te (atEnd (withPass written { pass with passEndWaits := true }))
    ∧ gives te (atEnd (withDup written pass [] []))
    ∧ gives te (atEnd (withDup written { pass with state := .draining } [] [batch 0 .shut]))
    ∧ gives te (atEnd (withDup written pass [place .sweep .ready] []))
    ∧ gives te (atEnd (withDup written pass (pl (.resend 1)) [batch 0 .shut, batch 1 .resending]))
    ∧ gives te (atEnd (withDup written pass (pl .sweep) ((List.range 4).map fun n => batch n .shut)))
    ∧ gives te (atEnd (withDup written { pass with nextSeq := 255 } (pl .sweep) [batch 254 .shut]))
    ∧ gives te (atEnd (withDup written pass (pl .sweep) [full]))
    ∧ gives te (atEnd (withDup written pass (pl (.resend 0)) [last]))
    ∧ gives .batchIdleClose d0 ∧ gives .batchIdleClose { d0 with dup.batches := [{ full with idleEnds := none }] }
    ∧ gives .batchIdleClose { d0 with dup.batches := [full] } := by
  have one : ∀ b : Batch, ([b] : List Batch) = [] ++ b :: [] ∧ (∀ f ∈ ([] : List Batch), f.sequence ≠ b.sequence)
      ∧ ∀ f ∈ ([] : List Batch), f.sequence ≠ b.sequence := fun b => ⟨rfl, by simp, by simp⟩
  exact ⟨⟨_, (h _ rfl).1 rfl⟩, ⟨_, (h _ rfl).2.1 (by decide) (by intro m hm; cases hm)⟩,
    ⟨_, ((h _ rfl).2.2.1 3000 (by decide) rfl).1 65535 rfl⟩,
    ⟨_, ((h _ rfl).2.2.1 3000 (by decide) rfl).2.1 [_] _ [] rfl ⟨rfl, by decide, by decide⟩ rfl (by decide)⟩,
    ⟨_, ((h _ rfl).2.2.1 3000 (by decide) rfl).2.2.1 rfl (by decide) rfl⟩,
    ⟨_, (((h _ rfl).2.2.1 3000 (by decide) rfl).2.2.2 _ rfl (by decide) rfl).1 rfl⟩,
    ⟨_, (((h _ rfl).2.2.1 3000 (by decide) rfl).2.2.2 _ rfl (by decide) rfl).2.1 rfl rfl
      (fun _ => .inr ⟨_, rfl, by decide⟩) (fun e => by cases e)⟩,
    ⟨_, (((h _ rfl).2.2.1 3000 (by decide) rfl).2.2.2 _ rfl (by decide) rfl).2.1 rfl rfl
      (fun e => by cases e) (fun _ => .inr (by decide))⟩,
    ⟨_, ((((h _ rfl).2.2.1 3000 (by decide) rfl).2.2.2 _ rfl (by decide) rfl).2.2 _ _ rfl rfl).1
      (by intro data check hp; cases hp)⟩,
    ⟨_, (((((h _ rfl).2.2.1 3000 (by decide) rfl).2.2.2 _ rfl (by decide) rfl).2.2 _ _ rfl rfl).2 _ _ rfl).1 [_] _ []
      ⟨rfl, by decide, by decide⟩ rfl rfl⟩,
    ⟨_, (((((h _ rfl).2.2.1 3000 (by decide) rfl).2.2.2 _ rfl (by decide) rfl).2.2 _ _ rfl rfl).2 _ _ rfl).2.1 rfl
      (by decide) (by decide)⟩,
    ⟨_, (((((h _ rfl).2.2.1 3000 (by decide) rfl).2.2.2 _ rfl (by decide) rfl).2.2 _ _ rfl rfl).2 _ _ rfl).2.2.1 rfl
      (by decide) (by decide)⟩,
    ⟨_, ((((((h _ rfl).2.2.1 3000 (by decide) rfl).2.2.2 _ rfl (by decide) rfl).2.2 _ _ rfl rfl).2 _ _ rfl).2.2.2 [] _ []
      (by decide) (one _)).1 rfl rfl (by decide)⟩,
    ⟨_, ((((((h _ rfl).2.2.1 3000 (by decide) rfl).2.2.2 _ rfl (by decide) rfl).2.2 _ _ rfl rfl).2 _ _ rfl).2.2.2 [] _ []
      (by decide) (one _)).2 rfl rfl rfl⟩,
    ⟨_, (h _ rfl).2.2.2.1 (by decide)⟩, ⟨_, ((h _ rfl).2.2.2.2 [] _ [] (one _) rfl (by decide)).1 rfl⟩,
    ⟨_, ((h _ rfl).2.2.2.2 [] _ [] (one _) rfl (by decide)).2 1000 rfl (.inl (by intro m hm; cases hm))⟩⟩

/-- A volume whose grain 3's preservation is at this phase, its entry with these waiters. -/
def storingFor (waiters : List WriteId) : Device := { preserving needing (.storing 1 3 0 [1]) with
  pres := { (preserving needing (.storing 1 3 0 [1])).pres with
    table := [(pendKey 1 3, { volume := 1, grain := 3, phase := .storing 1 3 0 [1], readers := 0, waiters := waiters })] } }

theorem witness_PreservationRuns (h : Obligations.PreservationRuns) :
    let gives (i : Instr) (d : Device) : Prop := ∃ t, exec i (run d []) = .next t
    let full (l : List Snapshot) : Device := { withVol { needing with snapshots := l } with
      pres := { table := [], map := [], free := [], readerWait := [] } }
    gives (.write 0 hdrW block) (withVol needing)
    ∧ gives (.write 0 hdrW block) (full [{ snap 1 with state := .retiring }, snap 2])
    ∧ gives (.write 0 hdrW block) (full [snap 2])
    ∧ gives (.write 0 hdrW block) (withVol { needing with slotsHeld := 1, snapshots := [{ snap 2 with pins := 1 }] })
    ∧ gives (.poolDone 59 .ok [1]) (preserving needing (.preserving 1 3 0))
    ∧ gives (.poolDone 59 .ok []) (preserving needing (.storing 1 3 0 [1]))
    ∧ gives (.poolDone 59 .refused []) (preserving { needing with slotsHeld := 1 } (.preserving 1 3 0))
    ∧ gives (.poolDone 59 .refused []) (preserving { needing with slotsHeld := 1 } (.storing 1 3 0 [])) := by
  have w (d : Device) (x : Volume) (h1 : d.resetLow = false) (h2 : (d.port 0).link = .up) (h3 : d.txn? 0 3 = none)
      (h4 : (d.port 0).fence = none) (h5 : d.pool.link = .up) (h6 : d.volume? 1 = some x) (h7 : x.state = .ready)
      (h8 : 0 + 1 ≤ 8 * x.capacity) (h9 : x.cut = none) :=
    h.2.1 (run d []) 0 hdrW block x h1 h2 (goodW 0 (by decide)) h3 h4 h5 h6 h7 h8 h9 rfl (by decide)
  exact ⟨⟨_, h.1 _ _ _ _ _ 0 [1, 2] rfl (by decide) (goodW 0 (by decide)) (by decide) (by decide) rfl rfl rfl (by decide)
      rfl rfl (by decide) (by decide) (by decide) (by decide) rfl (by decide) rfl⟩,
    ⟨_, (w _ _ rfl (by decide) rfl (by decide) rfl rfl rfl (by decide) rfl (by decide) rfl (by decide) (.inl rfl)).1
      (by decide)⟩,
    ⟨_, (w _ _ rfl (by decide) rfl (by decide) rfl rfl rfl (by decide) rfl (by decide) rfl (by decide) (.inl rfl)).2.1
      [] (snap 2) [] (by decide) rfl (by decide) rfl (by decide) rfl⟩,
    ⟨_, (w _ _ rfl (by decide) rfl (by decide) rfl rfl rfl (by decide) rfl (by decide) rfl (by decide)
      (.inr (by decide))).2.2 (by decide) rfl rfl⟩,
    ⟨_, (h.2.2 _ 59 1 3 0 _ _ _ rfl rfl rfl rfl rfl rfl rfl rfl rfl rfl (by decide)).1 _ _ _ _ rfl⟩,
    ⟨_, (((h.2.2 _ 59 1 3 0 _ _ _ rfl rfl rfl rfl rfl rfl rfl rfl rfl rfl (by decide)).2.1 _ _ _ _ _ rfl rfl
      (by decide)).1 [{ kept with first := 1, last := 1 }] [{ kept with grain := 4 }] (by decide) rfl (by decide)
      (by decide)).1 rfl rfl⟩,
    ⟨_, (h.2.2 _ 59 1 3 0 _ _ _ rfl rfl rfl rfl rfl rfl rfl rfl rfl rfl (by decide)).2.2 0 _ _ (.inl ⟨1, 3, rfl⟩)
      (by decide) rfl rfl rfl rfl⟩,
    ⟨_, (h.2.2 _ 59 1 3 0 _ _ _ rfl rfl rfl rfl rfl rfl rfl rfl rfl rfl (by decide)).2.2 0 _ _ (.inr ⟨1, 3, [], rfl⟩)
      (by decide) rfl rfl rfl rfl⟩⟩

theorem witness_PreservationRuns_waiting (h : Obligations.PreservationRuns) :
    let t := server .write .admitting (some 0)
    let d := withTxn (storingFor [.server 1 31]) { t with job := { t.job with first := 24, waits := [3] } }
    let f : Device := { storingFor [] with
      pres := { (storingFor []).pres with readerWait := [15] }, volumes := [(1, needing), (2, needing)]
      copy := { CopyEngine.initial with slots := CopyEngine.initial.slots.set 15 (some { copying with volume := 2 }) } }
    (∃ t, exec (.poolDone 59 .ok []) (run d []) = .next t) ∧ ∃ t, exec (.poolDone 59 .ok []) (run f []) = .next t := by
  exact ⟨⟨_, (((h.2.2 _ 59 1 3 0 _ _ _ rfl rfl rfl rfl rfl rfl rfl rfl rfl rfl (by decide)).2.1 _ _ _ _ _ rfl rfl
      (by decide)).1 [{ kept with first := 1, last := 1 }] [{ kept with grain := 4 }] (by decide) rfl (by decide)
      (by decide)).2.1 1 31 _ rfl rfl rfl rfl rfl (by decide) rfl rfl (by decide)⟩,
    ⟨_, (((h.2.2 _ 59 1 3 0 _ _ _ rfl rfl rfl rfl rfl rfl rfl rfl rfl rfl (by decide)).2.1 _ _ _ _ _ rfl rfl
      (by decide)).1 [{ kept with first := 1, last := 1 }] [{ kept with grain := 4 }] (by decide) rfl (by decide)
      (by decide)).2.2 15 { copying with volume := 2 } needing rfl rfl rfl (by decide) rfl (by decide) (by decide) rfl
      (by decide)⟩⟩

theorem witness_PreservationRuns_returned (h : Obligations.PreservationRuns) :
    let lapsed : Volume := { needing with slotsHeld := 1, snapshots := [snap 3] }
    let waiter : Pending := { volume := 1, grain := 4, phase := .slotWait 1 3, readers := 0, waiters := [] }
    let d : Device := preserving { lapsed with slotWait := [4] } (.storing 1 3 0 [1])
    let f : Device := { d with pres := { d.pres with table := d.pres.table ++ [(pendKey 1 4, waiter)] } }
    (∃ t, exec (.poolDone 59 .ok []) (run (preserving lapsed (.storing 1 3 0 [1])) []) = .next t)
    ∧ ∃ t, exec (.poolDone 59 .ok []) (run f []) = .next t :=
  ⟨⟨_, (((h.2.2 _ 59 1 3 0 _ _ _ rfl rfl rfl rfl rfl rfl rfl rfl rfl rfl (by decide)).2.1 _ _ _ _ _ rfl rfl
      (by decide)).2 (by decide)).1 rfl |>.1 rfl rfl⟩,
    ⟨_, (((h.2.2 _ 59 1 3 0 _ _ _ rfl rfl rfl rfl rfl rfl rfl rfl rfl rfl (by decide)).2.1 _ _ _ _ _ rfl rfl
      (by decide)).2 (by decide)).2 4 [] 1 3 _ _ _ rfl (by decide) (by decide) rfl rfl rfl (by decide) (.inr (.inl rfl))
      rfl rfl⟩⟩

/-- A running pass whose one copy slot reads the grain of its one staging place. -/
def passReads : Device := { slotReads vol { copying with stream := .pass } [] with
  dup := { Duplication.initial with staging := [place .sweep (.reading 15)], pass := some pass } }

theorem witness_CopyReadsEnd_pass (h : Obligations.CopyReadsEnd) :
    let gives (i : Instr) (d : Device) : Prop := ∃ t, exec i (run d []) = .next t
    let staged (l : List Place) : Device := { slotReads vol { copying with stream := .pass, image := .live 2 } [] with
      dup := { Duplication.initial with staging := l } }
    gives (.poolDone 59 .ok [1]) (staged [place .sweep (.reading 15)])
    ∧ gives (.poolDone 59 .refused []) passReads ∧ gives (.poolDone 59 .ok [1]) (staged [])
    ∧ gives (.poolDone 59 .refused []) (slotReads vol { copying with stream := .dropped } []) := by
  have e : (slotReads vol { copying with stream := .pass, image := .live 2 } []).entry? 1 15
      = some { volume := 1, grain := 15, phase := .reading, readers := 2, waiters := [] } := by decide
  have a (l : List Place) := h.1 (run { slotReads vol { copying with stream := .pass, image := .live 2 } [] with
      dup := { Duplication.initial with staging := l } } []) 59 15 0
    { copying with stream := .pass, image := .live 2 } rfl rfl rfl rfl rfl rfl rfl _
    (.inr ⟨2, _, rfl, e, by decide, rfl⟩)
  exact ⟨⟨_, ((a _).1 _ (.head _) rfl rfl).1 [1]⟩, ⟨_, ((h.1 (run passReads []) 59 15 0 { copying with stream := .pass } rfl rfl rfl rfl rfl rfl
      rfl _ (.inl ⟨⟨9, 2, rfl⟩, rfl⟩)).1 _ (.head _) rfl rfl).2 pass vol .refused [] rfl rfl (by decide)
      (alone (by decide) rfl rfl rfl)⟩,
    ⟨_, (a []).2.1 rfl (fun _ m => by cases m) (fun _ m => by cases m) .ok [1]⟩,
    ⟨_, (h.1 (run (slotReads vol { copying with stream := .dropped } []) []) 59 15 0 { copying with stream := .dropped }
      rfl rfl rfl rfl rfl rfl rfl _ (.inl ⟨⟨9, 2, rfl⟩, rfl⟩)).2.2.1 rfl (fun _ m => by cases m) rfl .refused []⟩⟩

/-- The write of restore 1's copy slot. -/
def writeBack (c : Nat) : Job :=
  { volume := 1, account := 7, first := 0, blocks := 8, declared := 0, payload := [], stage := .forwarded 59, charge := some c
    epoch := none, waits := [] }

/-- The part with copy slot 15 writing for restore 1, whose copies in flight are n. -/
def slotWrites (x : Volume) (c n : Nat) (more : List Extent) : Device :=
  slotReads x { copying with phase := .writing (writeBack c) none } [{ rec 1 .running with
    inFlight := n, cursor := some 16, extents := (rec 1 .running).extents ++ more
    outcomes := .running :: more.map fun _ => .pending }]

/-- Every copy slot in use, slot 15 writing the last grain of an extent of restore 1 whose next extent's first grain is
preserved. -/
def writesNext : Device :=
  let next : Extent := { source := 3, count := 1, destVolume := 1, dest := 5, fresh := false, notify := false }
  { slotWrites { vol with grains := [(3, 5)] } 0 1 [next] with
    pres := { table := [], map := [kept], free := [], readerWait := [] }
    copy.slots := (Vector.replicate 16 (some { copying with stream := .pass })).set 15
      (some { copying with phase := .writing (writeBack 0) none }) }

theorem witness_CopyReadsEnd_restore (h : Obligations.CopyReadsEnd) :
    let gives (i : Instr) (d : Device) : Prop := ∃ t, exec i (run d []) = .next t
    gives (.poolDone 59 .ok [1]) (slotReads { vol with cut := some cutRec } copying [rec 1 .running])
    ∧ gives (.poolDone 59 .mediaError []) (slotReads vol copying [{ rec 1 .running with inFlight := 2 }])
    ∧ gives (.poolDone 59 .ok []) (slotWrites vol 0 2 []) ∧ gives (.poolDone 59 .refused []) (slotWrites vol 8 1 [])
    ∧ gives (.poolDone 59 .ok []) writesNext := by
  refine ⟨⟨_, ((h.1 _ 59 15 0 copying rfl rfl rfl rfl rfl rfl rfl _ (.inl ⟨⟨9, 2, rfl⟩, rfl⟩)).2.2.2 1 [] _ [] rfl rfl rfl
      (by decide) (by decide)).1 _ _ rfl (by decide) (by decide)⟩,
    ⟨_, ((h.1 _ 59 15 0 copying rfl rfl rfl rfl rfl rfl rfl _ (.inl ⟨⟨9, 2, rfl⟩, rfl⟩)).2.2.2 1 [] _ [] rfl rfl rfl
      (by decide) (by decide)).2 _ _ 0 (by decide) rfl rfl rfl rfl (by decide) rfl (by decide)⟩, ?_, ?_, ?_⟩
  · obtain ⟨d, -, -, -, e, -⟩ := h.2 (run (slotWrites vol 0 2 []) []) 59 15 0 0 0 1 _ (writeBack 0) vol _ [] [] _ .ok []
      rfl rfl rfl rfl rfl rfl rfl rfl rfl (by decide) rfl rfl rfl rfl rfl (by decide) rfl rfl rfl rfl rfl rfl
      (fun _ g e => by cases e; decide)
    exact ⟨_, e (by decide)⟩
  · obtain ⟨d, -, -, -, -, e⟩ := h.2 (run (slotWrites vol 8 1 []) []) 59 15 0 8 0 1 _ (writeBack 8) vol _ [] [] _ .refused []
      rfl rfl rfl rfl rfl rfl rfl rfl rfl (by decide) rfl rfl rfl rfl rfl (by decide) rfl rfl rfl rfl rfl rfl
      (fun _ g e => by cases e; decide)
    exact ⟨_, (e rfl).1 vol rfl rfl⟩
  · obtain ⟨d, -, -, -, -, e⟩ := h.2 (run writesNext []) 59 15 0 0 0 1 _ (writeBack 0) { vol with grains := [(3, 5)] } _ [] [] _
      .ok []
      rfl rfl rfl rfl rfl rfl rfl rfl rfl (by decide) rfl rfl rfl rfl rfl (by decide) rfl rfl rfl rfl rfl rfl
      (fun _ g e => by cases e; decide)
    exact ⟨_, (e rfl).2 _ _ 9 2 rfl (by decide) rfl rfl (by decide) (by decide) rfl⟩

/-- The part with a PATH RESET in port 0 tag 0 and these transactions besides. -/
def resetWith (d : Device) (others : List (Nat × Txn)) : State :=
  { dev := { d with txns := (0, cmd .pathReset []) :: others }, pending := [] }

theorem resetIssued {d : Device} {l : List (Nat × Txn)} (h : d.resetLow = false ∧ (d.port 0).role = .manager) :
    (resetWith d l).Issued 0 0 .pathReset (cmd .pathReset []) [] :=
  ⟨h.1, rfl, ⟨_, rfl, by decide, by decide⟩, .inl h.2⟩

theorem noCharge {d : Device} (h : ∀ k, d.slot? k = none) :
    ∀ k z j n, d.slot? k = some z → z.phase = .writing j n → j.charge = none :=
  fun k z j n hz => by rw [h k] at hz; cases hz

theorem witness_PathResetAborts (h : Obligations.PathResetAborts) :
    let gives (d : Device) (l : List (Nat × Txn)) : Prop := ∃ t, exec (.pathReset 0 0) (resetWith d l) = .next t
    gives (withReset d0 [0]) [] ∧ gives (withVol vol) []
    ∧ gives (withTag (withVol vol) (.busy (.server 3 31) 0))
        [(63, server .write .held none), (127, server .read (.forwarded 59) none)]
    ∧ gives (withVol { vol with inFlight := 1 }) [(63, server .write .queued (some 8))] := by
  have n : ∀ k, d0.slot? k = none := by decide
  refine ⟨⟨_, (h _ 0 0 _ (resetIssued ⟨rfl, rfl⟩) rfl).1 (by decide)⟩, ?_, ?_, ?_⟩
  · obtain ⟨o, -, e⟩ := ((h (resetWith (withVol vol) []) 0 0 _ (resetIssued ⟨rfl, rfl⟩) rfl).2 rfl (by decide) (by decide)
      (by decide) (by decide) (.inl rfl)).1 (noCharge n) (by decide) (by intro _ m; cases m) (by decide) rfl [] rfl (by decide)
    exact ⟨_, e⟩
  · obtain ⟨o, -, e⟩ := ((h (resetWith (withTag (withVol vol) (.busy (.server 3 31) 0))
        [(63, server .write .held none), (127, server .read (.forwarded 59) none)]) 0 0 _ (resetIssued ⟨rfl, rfl⟩) rfl).2
      rfl (by decide) (by decide) (by decide) (by decide) (.inl rfl)).1 (noCharge n) (by decide) (by intro _ m; cases m)
      (by decide) rfl [(1, 31, server .write .held none), (3, 31, server .read (.forwarded 59) none)] rfl (by decide)
    exact ⟨_, e⟩
  · obtain ⟨_, _, -, e⟩ := ((h (resetWith (withVol { vol with inFlight := 1 }) [(63, server .write .queued (some 8))]) 0 0 _
        (resetIssued ⟨rfl, rfl⟩) rfl).2 rfl (by decide) (by decide) (by decide) (by decide) (.inl rfl)).2.1 _ 8 _ rfl rfl
      (by decide) (by intro _ m; cases m) (by decide) rfl |>.1 1 31 _ (by decide) (noCharge n) rfl rfl rfl
    exact ⟨_, e⟩

/-- Copy slot 15 holding an admitted write. -/
def slotWriting : Device := { withVol { vol with inFlight := 1 } with
  copy.slots := CopyEngine.initial.slots.set 15 (some { copying with phase := .writing (writeBack 8) none }) }

/-- Grain 3's preservation storing to slot 0. -/
def storingEntry : Pending := { volume := 1, grain := 3, phase := .storing 1 3 0 [1], readers := 0, waiters := [] }

/-- Volume 1 in a cut of this requester. -/
def inCut (r : CutRequester) : Device := withVol { vol with cut := some { cutRec with requester := r } }

theorem witness_PathResetAborts_engines (h : Obligations.PathResetAborts) :
    let gives (d : Device) (l : List (Nat × Txn)) : Prop := ∃ t, exec (.pathReset 0 0) (resetWith d l) = .next t
    let restoring (r : Restore) : Device := { withVol snapVol with copy.restores := [r] }
    gives slotWriting [] ∧ gives { withVol needing with pres.table := [(pendKey 1 3, storingEntry)] } []
    ∧ gives (inCut .schedule) [] ∧ gives (inCut (.command { port := 1, tag := 31 })) [(63, { cmd .cut [] with command := none })]
    ∧ gives { inCut .pass with dup.pass := some (cuttingPass false) } []
    ∧ gives (restoring { rec 1 .queued with current := none }) [] ∧ gives (restoring (rec 1 .running)) []
    ∧ gives (withPass (withVol snapVol) pass) [] := by
  have n : ∀ k, d0.slot? k = none := by decide
  have a := h (resetWith slotWriting []) 0 0 _ (resetIssued ⟨rfl, rfl⟩) rfl
  have b := h (resetWith { withVol needing with pres.table := [(pendKey 1 3, storingEntry)] } []) 0 0 _
    (resetIssued ⟨rfl, rfl⟩) rfl
  have c (r : CutRequester) (l : List (Nat × Txn)) := h (resetWith (inCut r) l) 0 0 _ (resetIssued ⟨rfl, rfl⟩) rfl
  have p := h (resetWith { inCut .pass with dup.pass := some (cuttingPass false) } []) 0 0 _ (resetIssued ⟨rfl, rfl⟩) rfl
  have r (x : Restore) := h (resetWith { withVol snapVol with copy.restores := [x] } []) 0 0 _
    (resetIssued ⟨rfl, rfl⟩) rfl
  have q := h (resetWith (withPass (withVol snapVol) pass) []) 0 0 _ (resetIssued ⟨rfl, rfl⟩) rfl
  refine ⟨?_, ⟨_, (b.2 rfl (by decide) (by decide) (by decide) (by decide) (.inl rfl)).2.2.1 [] _ [] 0 _ rfl (noCharge n)
      (by decide) (by decide) rfl rfl (.inr ⟨1, 3, [1], rfl⟩) (by intro _ m; cases m) rfl⟩,
    ⟨_, (((c _ _).2 rfl (by decide) (by decide) (by decide) (by decide) (.inl rfl)).2.2.2.1 1 _ _ rfl (noCharge n)
      (by intro _ m; cases m) (by decide) rfl rfl (by decide)).1 rfl rfl⟩,
    ⟨_, (((c _ _).2 rfl (by decide) (by decide) (by decide) (by decide) (.inl rfl)).2.2.2.1 1 _ _ rfl (noCharge n)
      (by intro _ m; cases m) (by decide) rfl rfl (by decide)).2.1 1 31 _ rfl rfl (by decide) rfl⟩, ?_,
    ⟨_, (((r _).2 rfl (by decide) (by decide) (by decide) (by decide) (.inl rfl)).2.2.2.2.1 [] _ [] _ rfl (noCharge n)
      (by decide) (by intro _ m; cases m) rfl rfl (by decide) (by decide) rfl).1 rfl⟩,
    ⟨_, ((((r _).2 rfl (by decide) (by decide) (by decide) (by decide) (.inl rfl)).2.2.2.2.1 [] _ [] _ rfl (noCharge n)
      (by decide) (by intro _ m; cases m) rfl rfl (by decide) (by decide) rfl).2 [] .running [] _ rfl rfl rfl).2 rfl⟩,
    ⟨_, (q.2 rfl (by decide) (by decide) (by decide) (by decide) (.inl rfl)).2.2.2.2.2 _ _ rfl (noCharge n)
      (by decide) (by intro _ m; cases m) (by decide) rfl rfl⟩⟩
  · obtain ⟨_, _, -, e⟩ := ((a.2 rfl (by decide) (by decide) (by decide) (by decide) (.inl rfl)).2.1 (writeBack 8) 8 _ rfl rfl
      (by decide) (by intro _ m; cases m) (by decide) rfl).2 15 _ none rfl rfl rfl (by
        intro l z i m hl hz
        have : ∀ l : SlotId, l ≠ 15 → slotWriting.slot? l = none := by decide
        have hz' : slotWriting.slot? l = some z := hz
        rw [this l hl] at hz'; cases hz')
    exact ⟨_, e⟩
  · rcases ((p.2 rfl (by decide) (by decide) (by decide) (by decide) (.inl rfl)).2.2.2.1 1 _ _ rfl (noCharge n)
      (by intro _ m; cases m) (by decide) rfl rfl (by decide)).2.2 _ rfl rfl rfl rfl with e | e <;> exact ⟨_, e⟩

/-! ### Ill-formed commands: each check of WellFormed refuses one -/

theorem test_wf_header :
    (Instr.read 0 hdr).wf = true
    ∧ (Instr.read 0 { hdr with delivered := 5 }).wf = false ∧ (Instr.read 0 { hdr with length := 4294967296 }).wf = false
    ∧ (Instr.read 0 { hdr with tag := 256 }).wf = false ∧ (Instr.read 0 { hdr with volume := 256 }).wf = false
    ∧ (Instr.read 0 { hdr with declared := 256 }).wf = false ∧ (Instr.read 0 { hdr with account := 65536 }).wf = false
    ∧ (Instr.read 0 { hdr with blocks := 65536 }).wf = false
    ∧ (Instr.release 0 { hdr with released := 65536 }).wf = false
    ∧ (Instr.release 0 { hdr with first := 18446744073709551616 }).wf = false := by decide

theorem test_wf_frames :
    (Instr.write 0 hdr [0]).wf = false ∧ (Instr.write 0 hdr []).wf = true
    ∧ (Instr.mgmtFrame 0 { hdr with delivered := 41 } (zeros 16) []).wf = false
    ∧ (Instr.mgmtFrame 0 { hdr with delivered := 41 } (zeros 15) [0]).wf = false
    ∧ (Instr.mgmtFrame 0 { hdr with delivered := 41 } (zeros 16) [0]).wf = true
    ∧ (Instr.runtFrame 0 (zeros 6)).wf = false ∧ (Instr.runtFrame 0 (zeros 5)).wf = true
    ∧ (Instr.malformedFrame 0 1 0).wf = false ∧ (Instr.malformedFrame 0 4 0).wf = false
    ∧ (Instr.malformedFrame 0 5 0).wf = true ∧ (Instr.malformedFrame 0 0 0).wf = true := by decide

theorem test_wf_ranges :
    (Instr.cut 0 32).wf = false ∧ (Instr.cut 0 31).wf = true ∧ (Instr.poolDone 0 .ok [0]).wf = false
    ∧ (Instr.poolDone 0 .refused []).wf = true ∧ (Instr.graceExpiry 65536).wf = false
    ∧ (Instr.mapFillEnd 0).wf = false ∧ (Instr.sweepVisit 65).wf = false ∧ (Instr.sweepVisit 64).wf = true
    ∧ (Instr.ack 256).wf = false ∧ (Instr.ackTimeout 256).wf = false ∧ (Instr.refuse 256 .data).wf = false
    ∧ (Instr.passAck 65536 0).wf = false ∧ (Instr.passAck 0 4294967296).wf = false
    ∧ (Instr.attentionFromPeer 65536).wf = false := by decide

theorem test_wf_pool_data : (Instr.poolDone 0 .mediaError block).wf = false := by decide +kernel

/-- 7 bytes, ACK's kind: the table of R187 gives it 6. -/
theorem test_wf_peer_frames :
    (Instr.unreadablePeerFrame [7, 0, 0, 0, 0x22, 1, 0]).wf = true
    ∧ (Instr.unreadablePeerFrame [6, 0, 0, 0, 0x22, 1]).wf = false := by decide

/-! ### What arrives (sections 11.1, 11.4, R185, R187) -/

theorem test_server_frames :
    decodeServerFrame 2 [24, 0, 0, 0, 3, 9, 5, 0, 0xC1, 0x4F, 0, 0, 0x28, 0x23, 0, 0, 0, 0, 0, 0, 0, 0, 0, 0]
      = .release 2 { delivered := 24, length := 24, tag := 9, volume := 5, declared := 0, account := 20417, blocks := 0
                     released := 9000, first := 0 }
    ∧ decodeServerFrame 0 [6, 0, 0, 0, 5, 9] = .malformedFrame 0 5 9
    ∧ decodeServerFrame 0 [6, 0, 0, 0, 1] = .runtFrame 0 [6, 0, 0, 0, 1] := by decide

theorem test_peer_frames :
    decodePeerFrame [6, 0, 0, 0, 0x21, 1] = .peerStatus true ∧ decodePeerFrame [6, 0, 0, 0, 0x22, 254] = .ack 254
    ∧ decodePeerFrame [7, 0, 0, 0, 0x23, 255, 1] = .refuse 255 .data
    ∧ decodePeerFrame [11, 0, 0, 0, 0x24, 0x31, 1, 233, 0, 0, 0] = .passAck 305 233
    ∧ decodePeerFrame [7, 0, 0, 0, 0x25, 0x34, 0x12] = .attentionFromPeer 0x1234 := by decide

/-! ### What is sent (sections 11.1 to 11.5) -/

/-- Section 11.5: the word of bytes 01h to 04h is 04030201h, and FFFFFFFFh takes 1 away. -/
theorem test_grain_check : grainCheck [1, 2, 3, 4, 255, 255, 255, 255] = 0x04030200 := by decide

/-- Section 11.5: a SHUT of one grain with batch check 0402E202h. -/
theorem test_shut_frame :
    (OffsiteFrame.shut 7 1 0x0402E202).bytes = [12, 0, 0, 0, 0x13, 7, 1, 0, 0x02, 0xE2, 0x02, 0x04] := by decide

/-- Section 8.14: the batch check of batch 255. -/
theorem test_batch_check : (0x12345678 ^^^ 0x0F0F0F0F ^^^ 0x00FF00FF : BitVec 32) = 0x1DC45988 := by decide

/-- Section 11.3: SNAPSHOT_RETIRED of (21, 37) with value 1, no time. -/
theorem test_notice_record :
    ({ kind := .snapshotRetired, time := none, subject := .snapshot 21 37, value := .number 1 } : Notice).bytes
      = [8, 0, 4, 0] ++ zeros 8 ++ [21, 37, 0, 0] ++ [1] ++ zeros 19 := by decide

/-- Section 11.1: a completion of 12 bytes with 9,000 released grains. -/
theorem test_completion_frame :
    ({ kind := 3, tag := 5, status := .ok, count := 9000, data := [] } : Completion).bytes
      = [12, 0, 0, 0, 3, 5, 0, 0, 0x28, 0x23, 0, 0] := by decide

/-! ### The calendar (chapter 3) -/

/-- R45: 2000-01-01 is a Saturday, number 6; section 2.11: 2031-02-26 is a Wednesday, number 3. -/
theorem test_weekday : CalTime.origin.weekday = 6
    ∧ ({ year := 2031, month := 2, day := 26, hour := 0, minute := 0, second := 0 } : CalTime).weekday = 3 := by
  decide +kernel

/-- The table of R51. -/
theorem test_deadlines :
    ({ year := 2031, month := 2, day := 26, hour := 21, minute := 40, second := 0 } : CalTime).addHours 168
      = { year := 2031, month := 3, day := 5, hour := 21, minute := 40, second := 0 }
    ∧ ({ year := 2032, month := 2, day := 26, hour := 21, minute := 40, second := 0 } : CalTime).addHours 168
      = { year := 2032, month := 3, day := 4, hour := 21, minute := 40, second := 0 }
    ∧ ({ year := 2100, month := 2, day := 27, hour := 10, minute := 0, second := 0 } : CalTime).addHours 72
      = { year := 2100, month := 3, day := 2, hour := 10, minute := 0, second := 0 }
    ∧ ({ year := 2031, month := 12, day := 30, hour := 20, minute := 0, second := 0 } : CalTime).addHours 30
      = { year := 2032, month := 1, day := 1, hour := 2, minute := 0, second := 0 }
    ∧ ({ year := 2199, month := 12, day := 20, hour := 12, minute := 0, second := 0 } : CalTime).addHours 2160
      = lastSecond := by decide +kernel

/-! ### One step -/

/-- The last frame sent as an answer on a server port: its status. -/
def mgmtStatus (s : State) : Option MgmtStatus :=
  match sentLast s with
  | some (.response _ r) => some r.status
  | _ => none

def status (s : State) : Option (Status × Nat) :=
  match sentLast s with
  | some (.completion _ c) => some (c.status, c.count)
  | _ => none

/-- Section 2.11: account 20417 and group 12 at the start. -/
def grace : Device := { withVol { vol with capacity := 2147483648 } with
  accounts := [(20417, { Account.initial with soft := 163840, hard := 196608, grace := 168, group := 12, usage := 163790
                                              held := 40 })]
  groups := [(12, { Group.initial with limit := 5000000, usage := 4900000, held := 1200 })]
  clock := { Clock.initial with
    valid := true, time := { year := 2031, month := 2, day := 26, hour := 21, minute := 40, second := 0 } } }

/-- Write A: 1,310,733 touches 4 grains, the declared 5 is clamped to 4. -/
theorem test_write_a : touchedCount 1310733 24 = 4 ∧ touchedCount 1310760 64 = 8 := by decide

/-- Write B's charge of 8 (here after A's 4): 163,842 is above S, so SOFT with the deadline of the case. -/
theorem test_grace_entry :
    let d := (Device.admission { grace with
      accounts := [(20417, { grace.account 20417 with held := 44 })] } 20417 8).1
    (d.account 20417).held = 52 ∧ (d.account 20417).state = .soft ∧ (d.group 12).held = 1208
    ∧ (d.account 20417).deadline = some { year := 2031, month := 3, day := 5, hour := 21, minute := 40, second := 0 }
    ∧ d.clock.graceList = [20417] ∧ d.mgmt.notices.map Notice.value = [.number 163842] := by decide

/-- Section 2.11, Clean-up: a RELEASE of 9,000 from the EXPIRED account. -/
theorem test_release :
    let x : Account := { Account.initial with soft := 163840, hard := 196608, grace := 168, group := 12, usage := 163802
                                              held := 40, state := .expired, hardArmed := false }
    let s := after (.release 0 { hdr with released := 9000, account := 20417 })
      (run { withVol vol with accounts := [(20417, x)], groups := [(12, { Group.initial with usage := 4900012 })] } [])
    (s.dev.account 20417).usage = 154802 ∧ (s.dev.account 20417).state = .under
    ∧ (s.dev.account 20417).hardArmed = true ∧ (s.dev.group 12).usage = 4891012 ∧ status s = some (.ok, 9000) := by decide

/-- Section 2.12: RELEASE of 10 with 6 used. -/
theorem test_release_underflow :
    let s := after (.release 0 { hdr with released := 10, account := 911 })
      (run { withVol vol with accounts := [(911, { Account.initial with group := 3, usage := 6, held := 2 })]
                              groups := [(3, { Group.initial with usage := 40, held := 2 })] } [])
    (s.dev.account 911).usage = 0 ∧ (s.dev.account 911).underflow = true ∧ (s.dev.group 3).usage = 34
    ∧ status s = some (.ok, 6) := by decide

/-- Section 2.12: ACCOUNT LOAD of group 7 and usage 50. -/
theorem test_account_load :
    let s := after (.accountLoad 0 0) (ask { d0 with
        accounts := [(911, { Account.initial with group := 3, held := 2, underflow := true })]
        groups := [(3, { Group.initial with usage := 34, held := 2 }), (7, { Group.initial with usage := 100 })] }
      .accountLoad (leBytes 2 911 ++ zeros 10 ++ leBytes 2 7 ++ [1] ++ leBytes 4 50))
    (s.dev.account 911).usage = 50 ∧ (s.dev.account 911).underflow = false ∧ (s.dev.group 3).held = 0
    ∧ (s.dev.group 7).usage = 150 ∧ (s.dev.group 7).held = 2 ∧ mgmtStatus s = some .ok := by decide

/-- Section 3.9: the tick to 21:40:00 expires 20417 and 30001, in that order, and stops at 512. -/
theorem test_second_tick :
    let at40 (h : Nat) : CalTime := { year := 2031, month := 3, day := 5, hour := h, minute := 40, second := 0 }
    let soft (h : Nat) : Account :=
      { Account.initial with soft := 1, usage := 2, state := .soft, deadline := some (at40 h) }
    let s := after .secondTick (run { d0 with
      accounts := [(512, soft 22), (20417, soft 21), (30001, soft 21)]
      clock := { Clock.initial with
        time := { year := 2031, month := 3, day := 5, hour := 21, minute := 39, second := 59 }
        valid := true, graceList := [20417, 30001, 512] } } [])
    s.dev.clock.time.minute = 40 ∧ s.dev.clock.graceList = [512]
    ∧ s.dev.mgmt.notices.map Notice.subject = [.account 20417, .account 30001] := by decide +kernel

/-- Section 3.10: the wrap carries account 600 into the undated set. -/
theorem test_wrap :
    let s := after .secondTick (run { d0 with
      accounts := [(600, { Account.initial with soft := 1, usage := 2, grace := 168, state := .soft
                                                deadline := some lastSecond })]
      clock := { Clock.initial with time := lastSecond, valid := true, graceList := [600] } } [])
    s.dev.clock.time = CalTime.origin ∧ s.dev.clock.valid = false ∧ s.dev.clock.undated = [600]
    ∧ s.dev.mgmt.notices.map Notice.value = [.number 1] := by decide +kernel

/-- Section 1.8, event 6: the streak is 3, so the freed tag 22 goes to COPY. -/
theorem test_arbiter_copy :
    let q (r : Requester) : PoolRequest := { requester := r, op := .read 0 8 }
    let s := after (.poolDone 22 .ok []) (run { tagsBusy d0 with
      pool.pathQ := [q (.server 0 1), q (.server 0 2)], pool.copyQ := [q (.slot 3), q (.slot 4)], pool.streak := 3 } [])
    s.dev.pool.tags[22] = .busy (.slot 3) 0 ∧ s.dev.pool.streak = 0 ∧ s.dev.pool.copyQ.length = 1 := by decide

/-- Section 1.9: the timeout of a write at T + 5 s, its charge of 2 given back. -/
theorem test_pool_timeout :
    let w := server .write (.forwarded 59) (some 2)
    let s := after (.poolTimeout 59) (run (withTxn (withTag { withVol { vol with inFlight := 1 } with
      accounts := [(7, { Account.initial with held := 2 })], groups := [(0, { Group.initial with held := 2 })] }
      (.busy (.server 1 31) 0)) w) [])
    status s = some (.timeout, 0) ∧ s.dev.pool.tags[59] = .quarantined 10000 ∧ (s.dev.account 7).held = 0
    ∧ (s.dev.account 7).usage = 0 ∧ (s.dev.volume? 1).map Volume.inFlight = some 0 := by decide

/-- Section 4.10, event 2: the record of an imported volume. -/
theorem test_volume_define :
    let s := after (.volumeDefine 0 0) (ask { d0 with area := some { base := 1000000, slots := 1000 } } .volumeDefine
      (leBytes 1 5 ++ leBytes 8 0 ++ leBytes 4 4096 ++ leBytes 4 400 ++ [1, 1]))
    (s.dev.volume? 5).map (fun x => (x.state, x.epoch, x.anchor, x.w 4095)) = some (.preparing, 2, 1, 1) := by decide

/-- Section 4.10, event 4: 400 + 700 is above 1,000. -/
theorem test_volume_define_full :
    mgmtStatus (after (.volumeDefine 0 0) (ask { d0 with
        area := some { base := 1000000, slots := 1000 }, volumes := [(5, { vol with capacity := 4096, reserve := 400 })] }
      .volumeDefine (leBytes 1 6 ++ leBytes 8 32768 ++ leBytes 4 8192 ++ leBytes 4 700 ++ [0, 0]))) = some .full := by
  decide

/-- Chapter 5, the examples of R76: E = 7, snapshots 4 and 6 ACTIVE, 5 RETIRING. -/
theorem test_needs :
    let x : Volume := { vol with
      epoch := 7, grains := [(3, 3), (5, 5), (7, 7)], snapshots := [snap 4, { snap 5 with state := .retiring }, snap 6] }
    x.needs 0 = false ∧ x.needs 3 = true ∧ x.needs 5 = true ∧ x.needs 7 = false
    ∧ Volume.needs { x with snapshots := [snap 4, { snap 5 with state := .retiring }] } 5 = false := by decide

/-- Section 5.11 after event 6: what grain 900 reads as of snapshots 6 and 4. -/
theorem test_resolve :
    let d : Device := { withVol { vol with epoch := 7, grains := [(900, 7)] } with
      pres.map := [{ volume := 1, grain := 900, first := 3, last := 4, slot := 88 }
                  , { volume := 1, grain := 900, first := 5, last := 6, slot := 212 }] }
    d.resolve 1 6 900 = .slot 212 5 ∧ d.resolve 1 4 900 = .slot 88 3 ∧ d.resolve 1 7 900 = .live 7
    ∧ d.resolve 1 7 901 = .unwritten := by decide

/-- Section 6.9: the sweep of 37 frees [35, 37] and keeps [37, 38], snapshot 38 ACTIVE. -/
theorem test_sweep_visit :
    let x : Volume := { vol with
      epoch := 41, slotsHeld := 4, sweeps := [37]
      snapshots := [snap 30, { snap 37 with state := .retiring }, snap 38, snap 39, snap 40] }
    let d : Device := { withVol x with
      pres.map := [{ volume := 1, grain := 5, first := 35, last := 37, slot := 1020 }
                  , { volume := 1, grain := 6, first := 37, last := 38, slot := 1041 }] }
    let s := after (.sweepVisit 1) (run d [])
    s.dev.pres.free = [0, 1, 2, 1020] ∧ (s.dev.volume? 1).map Volume.sweepFreed = some 1
    ∧ (after (.sweepVisit 1) s).dev.pres.map.length = 1 := by decide

/-- Section 6.10: a cut into a full list retires 181, the oldest unpinned SCHEDULED snapshot. -/
theorem test_cut_full_list :
    let n (k : Nat) : Snapshot := { snap (180 + k) with kind := .scheduled, pins := if k = 0 then 1 else 0 }
    let s := after (.cut 0 0) (ask (withVol { vol with
      epoch := 200, retention := 12, snapshots := (List.range 14).map n ++ [snap 195, snap 196] }) .cut
      (leBytes 1 1 ++ leBytes 2 0))
    (s.dev.volume? 1).map (fun x => (x.sweeps, x.cut.map CutRecord.room, x.cut.map CutRecord.drainEnds))
      = some ([181], some .waiting, some 2000) := by decide

/-- A cut of an idle volume completes at its acceptance, with E raised to 4. -/
theorem test_cut : mgmtStatus (after (.cut 0 0) (ask (withVol vol) .cut (leBytes 1 1 ++ leBytes 2 0))) = some .ok
    ∧ ((after (.cut 0 0) (ask (withVol vol) .cut (leBytes 1 1 ++ leBytes 2 0))).dev.volume? 1).map Volume.epoch = some 4 :=
  by decide

/-- Section 7.8, event 2: with the pass at its cap and the cursor 7, the freed slot goes to restore 9. -/
theorem test_restore_round :
    let d : Device := { d0 with copy.restores := [rec 7 .running, rec 9 .running], copy.cursor := 7 }
    d.chosenRestore.map Restore.id = some 9 := by decide

/-- Section 8.5: A = 210, d = 233. -/
theorem test_walk :
    let x : Volume := { vol with epoch := 250, grains := [(1, 150), (2, 225), (3, 240), (4, 240), (5, 240)] }
    let d : Device := { withVol x with
      pres.map := [{ volume := 1, grain := 3, first := 190, last := 236, slot := 0 }
                  , { volume := 1, grain := 4, first := 215, last := 236, slot := 1 }] }
    (List.range 6).map (fun g => (d.resolve 1 233 g).version) = [none, some 150, some 225, some 190, some 215, none] := by
  decide

/-- Section 8.14, T + 0.2: REFUSE(255, DATA) covers 255 and 0; the cursor goes back to 518. -/
theorem test_refuse :
    let b (n : Nat) (st : BatchState) (g : List Nat) (r : Nat) : Batch :=
      { batch n st with grains := g, resends := r }
    let p (g : Nat) : Place := { place .sweep (.reading 2) with grain := g }
    let s := after (.refuse 255 .data) (run (linkReady (withDup written
      { pass with cursor := 520, nextSeq := 1, sent := 9 } [p 518, p 519]
      [b 254 .shut [100, 101, 105, 230] 0, b 255 .shut [231, 400, 401] 1, b 0 .opened [402, 517] 0])) [])
    s.dev.dup.batches.map (fun x => (x.sequence, x.state, x.resends))
      = [(254, .shut, 0), (255, .resending, 2), (0, .resending, 1)]
    ∧ s.dev.dup.pass.map (fun q => (q.cursor, q.sent)) = some (518, 9) := by decide

/-- Section 8.14, T: ACK(254) frees batch 254 alone. -/
theorem test_ack :
    (after (.ack 254) (run (linkReady (withDup written pass [] [batch 254 .shut, batch 255 .shut])) [])).dev.dup.batches.map
      Batch.sequence = [255] := by decide

/-- R1, R163: KEEPALIVE loads the counter; R161: reload 40 is 10 s. -/
theorem test_keepalive :
    (((after (.keepalive 0 0) (ask { d0 with ports := d0.ports.set 0 { d0.port 0 with reload := 40, counter := 3 } }
      .keepalive [])).dev).port 0).counter = 40 := by decide

/-- R162: the quarter tick that brings a counter to 0 fences the port with LIVENESS. -/
theorem test_quarter_tick :
    (((after .quarterSecondTick (run { d0 with
      ports := d0.ports.set 1 { d0.port 1 with reload := 40, counter := 1 } } [])).dev).port 1).fence = some .liveness := by
  decide

/-- R176, R186: an IDENTIFY's codes and port. -/
theorem test_identify :
    (match sentLast (after (.identify 1 0) (askData .identify [])) with
      | some (.response p r) => (p.val, r.status, ((r.result.map Item.bytes).flatten).take 6)
      | _ => (9, .busy, [])) = (1, .ok, [0x17, 0x0A, 0x40, 0x06, 0x01, 0x01]) := by decide

/-- R182: with 64 notices and the overflow flag set, a read of 8 leaves 56 and clears the flag. -/
theorem test_notice_read :
    let s := after (.noticeRead 0 0) (ask { fullQueue with mgmt.overflow := true } .noticeRead [8])
    s.dev.mgmt.notices.length = 56 ∧ s.dev.mgmt.overflow = false ∧ s.dev.mgmt.attnLow = true := by decide

/-- R16, R66, R178: a PATH RESET with one WRITE FORWARDED ends it ABORTED and quarantines its pool tag. -/
theorem test_path_reset :
    let w : Txn := server .write (.forwarded 12) (some 0)
    let s := after (.pathReset 1 2) (run { withVol { vol with inFlight := 1 } with
      ports := d0.ports.set 1 { d0.port 1 with role := .manager }
      txns := [(34, cmd .pathReset []), (96, w)]
      pool.tags := (Vector.replicate 64 .free).set 12 (.busy (.server 3 0) 0) } [])
    (s.dev.mgmt.pathReset.map fun r => (r.left.map Fin.val, r.aborted, r.restores, r.passEnded)) = some ([12], 1, 0, false)
    ∧ s.dev.pool.tags[12] = .quarantined 5000 ∧ (s.dev.volume? 1).map Volume.inFlight = some 0 := by decide +kernel

/-- R179: RESET# low empties the notice queue and releases ATTN#. -/
theorem test_reset : (after .resetAssert (run fullQueue [])).dev.mgmt.attnLow = false
    ∧ (after .resetAssert (run fullQueue [])).dev.resetLow = true := by decide

end Sys2Proof.Tests
end

section
/-! ### Pool invariants (O7) -/

namespace Sys2Proof.Machine

/-- A tag of the pool after one tag has been set. -/
theorem tags_set (tags : Vector PoolTag 64) (t u : PoolTagId) (x : PoolTag) :
    (tags.set t.val x t.isLt)[u] = if u = t then x else tags[u] := by
  by_cases h : t = u
  · subst h; simp
  · have hv : t.val ≠ u.val := fun e => h (Fin.ext e)
    simp [hv, Ne.symm h]

/-- The pool interface of a full reset is idle (R17). -/
theorem Pool.initial_idle : Pool.initial.Idle where
  preserveQ := rfl
  pathQ := rfl
  copyQ := rfl
  tags t r m h := by simp [Pool.initial] at h

/-- An idle pool within the streak bound is orderly. -/
theorem Pool.Idle.orderly {p : Pool} (h : p.Idle) (hs : p.streak ≤ 3) : p.Orderly where
  preserveQ r hr := by simp [h.preserveQ] at hr
  pathQ r hr := by simp [h.pathQ] at hr
  copyQ r hr := by simp [h.copyQ] at hr
  reserved t r m _ hb := absurd hb (h.tags t r m)
  streak := hs

/-- R11, R12: a grant keeps the queue orderly: only a PRESERVE request takes a reserved tag. -/
theorem Grant.orderly {p p' : Pool} {t : PoolTagId} {r : PoolRequest} {now : Nat} (g : Grant p p' t r now)
    (h : p.Orderly) : p'.Orderly where
  preserveQ x hx := h.preserveQ x (g.preserveQ.subset hx)
  pathQ x hx := h.pathQ x (g.pathQ.subset hx)
  copyQ x hx := h.copyQ x (g.copyQ.subset hx)
  streak := g.streak h.streak
  reserved u x m hu hb := by
    rw [g.tags, tags_set] at hb
    split at hb
    · rename_i hut
      subst hut
      cases hb
      rcases g.waits with hw | ⟨-, hle⟩
      · exact h.preserveQ r hw
      · omega
    · exact h.reserved u x m hu hb

/-- R11: the requests that join and leave keep the queue orderly. -/
theorem Requests.orderly {p p' : Pool} (q : Requests p p') (h : p.Orderly) : p'.Orderly where
  preserveQ x hx := by
    rcases q.preserveQ x hx with hx | ⟨-, _, _, hr⟩
    · exact h.preserveQ x hx
    · rw [hr]; rfl
  pathQ x hx := by
    rcases q.pathQ x hx with hx | ⟨-, _, _, hr⟩
    · exact h.pathQ x hx
    · rw [hr]; rfl
  copyQ x hx := by
    rcases q.copyQ x hx with hx | ⟨-, _, hr⟩
    · exact h.copyQ x hx
    · rw [hr]; rfl
  reserved t r m ht hb := h.reserved t r m ht (q.tags ▸ hb)
  streak := by
    rcases q.streak with hs | hs
    · exact hs ▸ h.streak
    · omega

/-- Tags that are not set BUSY keep the queue orderly. -/
theorem Pool.Orderly.ofTags {p : Pool} (h : p.Orderly) {tags : Vector PoolTag 64}
    (ht : ∀ (t : PoolTagId) r m, tags[t] = .busy r m → p.tags[t] = .busy r m) :
    ({ p with tags := tags } : Pool).Orderly :=
  ⟨h.preserveQ, h.pathQ, h.copyQ, fun t r m hle hb => h.reserved t r m hle (ht t r m hb), h.streak⟩

theorem Pool.Idle.ofTags {p : Pool} (h : p.Idle) {tags : Vector PoolTag 64}
    (ht : ∀ (t : PoolTagId) r m, tags[t] = .busy r m → p.tags[t] = .busy r m) :
    ({ p with tags := tags } : Pool).Idle :=
  ⟨h.preserveQ, h.pathQ, h.copyQ, fun t r m hb => h.tags t r m (ht t r m hb)⟩

/-- A tag set to a state that is not BUSY makes no tag BUSY. -/
theorem busy_of_set {tags : Vector PoolTag 64} {t : PoolTagId} {x : PoolTag} (hx : ∀ r m, x ≠ .busy r m)
    (u : PoolTagId) (r : Requester) (m : Nat) (h : (tags.set t.val x t.isLt)[u] = .busy r m) :
    tags[u] = .busy r m := by
  rw [tags_set] at h
  split at h
  · exact absurd h (hx r m)
  · exact h

/-- Tags mapped to states that are not BUSY are not BUSY. -/
theorem not_busy_of_map {tags : Vector PoolTag 64} {f : PoolTag → PoolTag} (hf : ∀ x r m, f x ≠ .busy r m)
    (u : PoolTagId) (r : Requester) (m : Nat) : (tags.map f)[u] ≠ .busy r m := by
  simpa using hf (tags[u]) r m

/-- R14: no grant is made while no request waits. -/
theorem Grant.not_idle {p p' : Pool} {t : PoolTagId} {r : PoolRequest} {now : Nat} (g : Grant p p' t r now) :
    ¬ p.Idle := by
  intro h
  rcases g.waits with hw | ⟨hw | hw, -⟩
  · simp [h.preserveQ] at hw
  · simp [h.pathQ] at hw
  · simp [h.copyQ] at hw

/-- R14: no request joins an idle pool whose link is DOWN. -/
theorem Requests.idle {p p' : Pool} (q : Requests p p') (hl : p.link = .down) (h : p.Idle) : p'.Idle where
  preserveQ := List.eq_nil_iff_forall_not_mem.2 fun x hx => by
    rcases q.preserveQ x hx with hx | ⟨hu, -⟩
    · simp [h.preserveQ] at hx
    · simp [hl] at hu
  pathQ := List.eq_nil_iff_forall_not_mem.2 fun x hx => by
    rcases q.pathQ x hx with hx | ⟨hu, -⟩
    · simp [h.pathQ] at hx
    · simp [hl] at hu
  copyQ := List.eq_nil_iff_forall_not_mem.2 fun x hx => by
    rcases q.copyQ x hx with hx | ⟨hu, -⟩
    · simp [h.copyQ] at hx
    · simp [hl] at hu
  tags t r m hb := h.tags t r m (q.tags ▸ hb)

/-- The pool as the loss of its link leaves it is idle (R14). -/
theorem idle_of_lost {tags : Vector PoolTag 64} {f : PoolTag → PoolTag} (hf : ∀ x r m, f x ≠ .busy r m) (p : Pool) :
    ({ p with tags := tags.map f, preserveQ := [], pathQ := [], copyQ := [], link := .down } : Pool).Idle :=
  ⟨rfl, rfl, rfl, not_busy_of_map hf⟩

/-- R11, R12: every single change keeps the queue orderly. -/
theorem Prim.orderly {c c' : Core} (h : Prim c c') (hc : c.pool.Orderly) : c'.pool.Orderly := by
  cases h with
  | grant t r now p g => exact g.orderly hc
  | requests p q => exact q.orderly hc
  | tag t x hx => exact hc.ofTags (busy_of_set hx)
  | quarantine f hf => exact hc.ofTags fun t r m hb => absurd hb (not_busy_of_map hf t r m)
  | _ => exact hc

theorem Extra.orderly {allow : Special → Prop} {c c' : Core} (h : Extra allow c c') (hc : c.pool.Orderly) :
    c'.pool.Orderly := by
  cases h with
  | prim _ hp => exact hp.orderly hc
  | losePool f hf => exact (idle_of_lost hf c.pool).orderly hc.streak
  | poolUp => exact ⟨hc.preserveQ, hc.pathQ, hc.copyQ, hc.reserved, hc.streak⟩
  | _ => exact hc

/-- While the pool link is DOWN or RESET# low the pool is idle, said of the core (`Device.QuietWhenDown`). -/
def Core.Quiet (c : Core) : Prop := c.pool.link = .down ∨ c.resetLow = true → c.pool.Idle

/-- R14: every single change keeps the pool idle while its link is DOWN. -/
theorem Prim.quiet {c c' : Core} (h : Prim c c') (hl : c.resetLow = false) (hc : c.Quiet) : c'.Quiet := by
  have idle : c.pool.link = .down ∨ c.resetLow = true → c.pool.link = .down ∧ c.pool.Idle := fun hd =>
    ⟨hd.resolve_right (by simp [hl]), hc hd⟩
  cases h with
  | grant t r now p g => exact fun hd => absurd (idle (g.link ▸ hd)).2 g.not_idle
  | requests p q => exact fun hd => let ⟨hdown, hi⟩ := idle (q.link ▸ hd); q.idle hdown hi
  | tag t x hx => exact fun hd => (hc hd).ofTags (busy_of_set hx)
  | quarantine f hf => exact fun hd => (hc hd).ofTags fun t r m hb => absurd hb (not_busy_of_map hf t r m)
  | _ => exact hc

theorem Extra.quiet {allow : Special → Prop} {c c' : Core} (h : Extra allow c c') (hl : c.resetLow = false)
    (hc : c.Quiet) : c'.Quiet := by
  cases h with
  | prim _ hp => exact hp.quiet hl hc
  | losePool f hf => exact fun _ => idle_of_lost hf c.pool
  | poolUp => exact fun hd => hd.elim (by simp) (by simp [hl])
  | _ => exact hc

/-- Settles O7: each single change of the state keeps both, so every step does (`step_kept`). -/
theorem poolInvariantsKept : Obligations.PoolInvariantsKept := by
  refine ⟨fun s t hs ht => ?_, fun s t hs ht => ?_⟩
  · refine step_kept (fun c => c.pool.Orderly) (fun _ _ _ _ h => h.orderly) (fun d => ?_) (fun d l _ hd => ?_) hs ht
    · exact Pool.initial_idle.orderly (Nat.zero_le 3)
    · exact ⟨hd.preserveQ, hd.pathQ, hd.copyQ, hd.reserved, hd.streak⟩
  · refine step_kept Core.Quiet (fun _ _ _ hl h => h.quiet hl) (fun d _ => Pool.initial_idle) (fun d l hl hd _ => ?_) hs ht
    have hi := hd (.inr hl)
    exact ⟨hi.preserveQ, hi.pathQ, hi.copyQ, hi.tags⟩

end Sys2Proof.Machine
end

section
/-! ### The values after full reset, and the shapes of frames (O4, O5, O14) -/

namespace Sys2Proof.Machine

/-- The part right after a full reset, whatever the line of RESET# and the model's own logs say (R179). -/
def Device.AtReset (d : Device) : Prop :=
  d = { Device.reset with resetLow := d.resetLow, out := d.out, freeIndex := d.freeIndex }

theorem atReset_of_reset {d : Device} (h : d = State.reset.dev ∨ ∃ s t, exec .resetAssert s = .next t ∧ t.dev = d) :
    d.AtReset := by
  rcases h with rfl | ⟨s, t, hs, rfl⟩
  · rfl
  · cases hs; rfl

/-- Settles O4: every part at reset is `Device.reset` but for its logs, and the values are read off there. -/
theorem fullResetValues : Obligations.FullResetValues := by
  intro d hd
  have h := atReset_of_reset hd
  rw [Device.AtReset] at h
  generalize d.resetLow = low, d.out = out, d.freeIndex = i at h
  subst h
  refine ⟨⟨rfl, fun k => ?_, rfl, rfl, rfl, rfl⟩, fun p => ?_, fun a => rfl, fun g => rfl, ⟨rfl, rfl, rfl, rfl, rfl, fun i => ?_⟩,
    ⟨rfl, fun v => rfl, rfl, rfl, rfl, rfl, rfl⟩, ⟨fun k => ?_, rfl, rfl, rfl, rfl⟩,
    ⟨rfl, rfl, rfl, rfl, rfl, rfl, rfl, rfl⟩, rfl, rfl, rfl, rfl⟩
  case refine_1 => simp [Device.reset, Pool.initial]
  case refine_2 => fin_cases p <;> exact ⟨rfl, rfl, rfl, rfl⟩
  case refine_3 => simp [Device.reset, Clock.initial, SchedEntry.initial]
  case refine_4 => simp [Device.slot?, Device.reset, CopyEngine.initial]

/-- An account and a group after full reset are in range (R19, R21). -/
theorem Account.initial_sound : Account.initial.Sound :=
  ⟨Nat.zero_le _, Nat.zero_le _, Nat.zero_le _, Nat.zero_le _, Nat.zero_le _, fun h => absurd h (by decide)⟩

/-- Settles O5: a reset part has no notice, an idle pool, and no account, group or volume listed. -/
theorem invariantsAtReset : Obligations.InvariantsAtReset := by
  refine ⟨⟨Nat.zero_le _, by decide⟩, Pool.initial_idle.orderly (Nat.zero_le 3), fun _ => Pool.initial_idle, ?quota, ?usage, ?volumes,
    by decide⟩
  case quota =>
    exact ⟨Table.Wf.nil _, Table.Wf.nil _, fun _ => Account.initial_sound, rfl, fun _ => Nat.zero_le _⟩
  case usage => exact ⟨Table.Wf.nil _, fun _ => Nat.zero_le _, fun _ => rfl⟩
  case volumes => exact ⟨List.Pairwise.nil, fun v x h => by cases h⟩

/-- Settles O14: the conditions of R3 and R185 as the model checks them, clause by clause. -/
theorem malformedFrames : Obligations.MalformedFrames := by
  intro h payload
  refine ⟨?_, ?_, ?_, ?_⟩
  · simp [Header.badRead, Header.unreadable, Header.badAddress, Header.badBlocks, or_assoc]
  · simp [Header.badWrite, Header.unreadable, Header.badAddress, Header.badBlocks, or_assoc]
  · simp [Header.badRelease, Header.unreadable, Header.badAddress, or_assoc]
  · simp [Header.badMgmt, Header.unreadable, or_assoc]

end Sys2Proof.Machine
end

section
/-! ### Acceptance of server frames (O15, O16) -/

namespace Sys2Proof.Machine

section
variable {d : Device} {p : PortId} {h : Header} {bad : Bool}

/-! What each check of R4 answers. -/

theorem portRefusal_bad : d.portRefusal p h true = some .malformed := rfl

theorem portRefusal_busy (hb : bad = false) (ht : d.txn? p h.tag ≠ none) : d.portRefusal p h bad = some .tagBusy := by
  unfold Device.portRefusal
  rw [if_neg (by simp [hb]), if_pos (Option.isSome_iff_ne_none.2 ht)]

theorem portRefusal_fenced (hb : bad = false) (ht : d.txn? p h.tag = none) (hf : (d.port p).fence ≠ none) :
    d.portRefusal p h bad = some .fenced := by
  unfold Device.portRefusal
  rw [if_neg (by simp [hb]), if_neg (by simp [ht]), if_pos]
  exact Option.isSome_iff_ne_none.2 hf

theorem portRefusal_none (hb : bad = false) (ht : d.txn? p h.tag = none) (hf : (d.port p).fence = none) :
    d.portRefusal p h bad = none := by
  unfold Device.portRefusal
  rw [if_neg (by simp [hb]), if_neg (by simp [ht]), if_neg (by simp [Port.fenced, hf])]

theorem dataRefusal_of_port {r : Status} (hr : d.portRefusal p h bad = some r) : d.dataRefusal p h bad = some r := by
  unfold Device.dataRefusal
  rw [hr]

/-- With checks 1 to 4 passed, the volume decides (R4). -/
theorem dataRefusal_volume (hr : d.portRefusal p h bad = none) (hl : d.pool.link = .up) :
    d.dataRefusal p h bad = volumeRefusal (d.volume? h.volume) h := by
  unfold Device.dataRefusal
  rw [hr]
  exact if_neg (by simp [hl])

theorem dataRefusal_poolDown (hr : d.portRefusal p h bad = none) (hl : d.pool.link = .down) :
    d.dataRefusal p h bad = some .poolDown := by
  unfold Device.dataRefusal
  rw [hr]
  exact if_pos hl

theorem volumeRefusal_range {x : Volume} (hs : x.state = .ready) (hr : h.first + h.blocks > 8 * x.capacity) :
    volumeRefusal (some x) h = some .outOfRange := by
  unfold volumeRefusal
  dsimp only
  rw [hs]
  exact if_pos (by omega)

theorem volumeRefusal_none {x : Volume} (hs : x.state = .ready) (hr : h.first + h.blocks ≤ 8 * x.capacity) :
    volumeRefusal (some x) h = none := by
  unfold volumeRefusal
  dsimp only
  rw [hs]
  exact if_neg (by omega)

/-- A frame that passes the seven checks is accepted (R4). -/
theorem dataRefusal_none_of {x : Volume} (hb : bad = false) (ht : d.txn? p h.tag = none) (hf : (d.port p).fence = none)
    (hl : d.pool.link = .up) (hv : d.volume? h.volume = some x) (hs : x.state = .ready)
    (hr : h.first + h.blocks ≤ 8 * x.capacity) : d.dataRefusal p h bad = none := by
  rw [dataRefusal_volume (portRefusal_none hb ht hf) hl, hv, volumeRefusal_none hs hr]

end

section
variable {s : State} {p : PortId} (hl : s.dev.resetLow = false) (hu : (s.dev.port p).link = .up)
include hl hu

/-! What a frame on an UP port comes to, once its checks have decided (R4, R5, R6). -/

theorem exec_read_refused {h : Header} {st : Status} (hr : s.dev.dataRefusal p h h.badRead = some st) :
    exec (.read p h) s = .next { s with dev := s.dev.refuse p Kind.read.code h.tag st } := by
  simp only [exec, execRead, event_high _ hl, Device.onUpPort, hu, if_true, hr]

theorem exec_read_accepted {h : Header} (hr : s.dev.dataRefusal p h h.badRead = none) :
    exec (.read p h) s = .next { s with dev := s.dev.acceptRead p h } := by
  simp only [exec, execRead, event_high _ hl, Device.onUpPort, hu, if_true, hr]

theorem exec_write_refused {h : Header} {payload : List Byte} {st : Status}
    (hr : s.dev.dataRefusal p h (h.badWrite payload) = some st) :
    exec (.write p h payload) s = .next { s with dev := s.dev.refuse p Kind.write.code h.tag st } := by
  simp only [exec, execWrite, event_high _ hl, Device.onUpPort, hu, if_true, hr]

theorem exec_write_accepted {h : Header} {payload : List Byte}
    (hr : s.dev.dataRefusal p h (h.badWrite payload) = none) :
    exec (.write p h payload) s = .next { s with dev := settle (s.dev.acceptWrite p h payload) } := by
  simp only [exec, execWrite, event_high _ hl, Device.onUpPort, hu, if_true, hr]

theorem exec_release_refused {h : Header} {st : Status} (hr : s.dev.portRefusal p h h.badRelease = some st) :
    exec (.release p h) s = .next { s with dev := s.dev.refuse p Kind.release.code h.tag st } := by
  simp only [exec, execRelease, event_high _ hl, Device.onUpPort, hu, if_true, hr]

theorem exec_mgmt_refused {h : Header} {name area : List Byte} {st : MgmtStatus}
    (hr : s.dev.mgmtRefusal p h { name := name, area := area } = some st) :
    exec (.mgmtFrame p h name area) s = .next { s with dev := s.dev.refuseMgmt p h.tag st } := by
  simp only [exec, execMgmtFrame, event_high _ hl, Device.onUpPort, hu, if_true, hr]

theorem exec_mgmt_accepted {h : Header} {name area : List Byte}
    (hr : s.dev.mgmtRefusal p h { name := name, area := area } = none) :
    exec (.mgmtFrame p h name area) s = .next { s with
      dev := s.dev.openTxn p h .mgmt [] .command (some { name := name, area := area }) } := by
  simp only [exec, execMgmtFrame, event_high _ hl, Device.onUpPort, hu, if_true, hr]

end

/-- Settles O15: the checks of R4 in their order, each by its own lemma. -/
theorem dataFramesRefused : Obligations.DataFramesRefused := by
  intro s p h payload i kind bad hi hl hu
  have refused {st : Status} (hr : s.dev.dataRefusal p h bad = some st) :
      exec i s = .next { s with dev := s.dev.refuse p kind h.tag st } := by
    rcases hi with ⟨rfl, rfl, rfl⟩ | ⟨rfl, rfl, rfl⟩
    · exact exec_read_refused hl hu hr
    · exact exec_write_refused hl hu hr
  refine ⟨fun hb => ?_, fun hb ht => ?_, fun hb ht hf => ?_, fun hb ht hf => ?_⟩
  · exact refused (dataRefusal_of_port (hb ▸ portRefusal_bad))
  · exact refused (dataRefusal_of_port (portRefusal_busy hb ht))
  · exact refused (dataRefusal_of_port (portRefusal_fenced hb ht hf))
  · have hport := portRefusal_none (bad := bad) hb ht hf
    refine ⟨fun hd => refused (dataRefusal_poolDown hport hd), fun hup => ?_⟩
    have volume {v : Option Volume} {st : Status} (hv : s.dev.volume? h.volume = v) (hr : volumeRefusal v h = some st) :=
      refused ((dataRefusal_volume hport hup).trans (hv ▸ hr))
    refine ⟨fun hv => volume hv rfl, fun x hv => ⟨fun hs => ?_, fun hs => ?_, fun hs hr => ?_⟩⟩
    · exact volume hv (by simp [volumeRefusal, hs])
    · exact volume hv (by simp [volumeRefusal, hs])
    · exact volume hv (volumeRefusal_range hs hr)

/-! ### RELEASE and MGMT frames -/

/-- R169: some MANAGER port is UP and CLEAR. -/
theorem managerUpClear_iff (d : Device) : d.managerUpClear = true ↔
    ∃ q : PortId, (d.port q).role = .manager ∧ (d.port q).link = .up ∧ (d.port q).fence = none := by
  simp only [Device.managerUpClear, List.any_eq_true, Bool.and_eq_true, decide_eq_true_eq, and_assoc]
  constructor
  · rintro ⟨x, hx, h⟩
    obtain ⟨i, hi, rfl⟩ := Vector.mem_iff_getElem.1 (Vector.mem_toList_iff.1 hx)
    exact ⟨⟨i, hi⟩, h⟩
  · rintro ⟨q, h⟩
    exact ⟨d.ports[q], Vector.mem_toList_iff.2 (Vector.getElem_mem q.isLt), h⟩

theorem isNamed_iff (c : Command) (n : CommandName) : c.isNamed n = true ↔ upToZero c.name = ascii n.text :=
  decide_eq_true_iff

/-- R5, R169: what a FENCED port's MGMT frame may still bring. -/
theorem passesFence_iff (d : Device) (p : PortId) (name area : List Byte) :
    d.passesFence p { name := name, area := area } = true ↔
      upToZero name = ascii "IDENTIFY" ∨ (upToZero name = ascii "UNFENCE" ∧ area = leBytes 1 p.val
        ∧ (d.port p).role = .manager
        ∧ ∀ q : PortId, ¬ ((d.port q).role = .manager ∧ (d.port q).link = .up ∧ (d.port q).fence = none)) := by
  have hm : d.managerUpClear = false ↔
      ∀ q : PortId, ¬ ((d.port q).role = .manager ∧ (d.port q).link = .up ∧ (d.port q).fence = none) := by
    rw [← not_exists, ← managerUpClear_iff, Bool.not_eq_true]
  simp only [Device.passesFence, Device.mayUnfenceSelf, isNamed_iff, Bool.or_eq_true, Bool.and_eq_true,
    decide_eq_true_eq, hm, and_assoc]
  rfl

/-- Settles O16: `portRefusal` for a RELEASE, `mgmtRefusal` with `passesFence_iff` for a MGMT frame. -/
theorem releaseAndMgmtRefused : Obligations.ReleaseAndMgmtRefused := by
  intro s p h name area hl hu Refused Answered passes
  have answered {st : MgmtStatus} (hr : s.dev.mgmtRefusal p h { name := name, area := area } = some st) : Answered st :=
    exec_mgmt_refused hl hu hr
  have hp : s.dev.passesFence p { name := name, area := area } = true ↔ passes := passesFence_iff s.dev p name area
  refine ⟨fun hb => ?_, fun hb ht => ?_, fun hb ht hf => ?_, fun hb => ?_, fun hb ht => ?_, fun hb ht hf hn => ?_,
    fun hb ht hf => ?_⟩
  · exact exec_release_refused hl hu (hb ▸ portRefusal_bad)
  · exact exec_release_refused hl hu (portRefusal_busy hb ht)
  · exact exec_release_refused hl hu (portRefusal_fenced hb ht hf)
  · exact answered (by simp [Device.mgmtRefusal, hb])
  · exact answered (by simp [Device.mgmtRefusal, hb, Option.isSome_iff_ne_none, ht])
  · have hf' : (s.dev.port p).fenced = true := Option.isSome_iff_ne_none.2 hf
    have hn' : s.dev.passesFence p { name := name, area := area } = false := Bool.not_eq_true _ ▸ (hp.not.2 hn)
    exact answered (by simp [Device.mgmtRefusal, hb, ht, hf', hn'])
  · refine exec_mgmt_accepted hl hu ?_
    rcases hf with hf | hpass
    · simp [Device.mgmtRefusal, hb, ht, Port.fenced, hf]
    · simp [Device.mgmtRefusal, hb, ht, hp.2 hpass]

end Sys2Proof.Machine
end

section
/-! ### What the arbiter does: the issue of a request, and the one grant that an event makes (R11, R12, R13) -/

namespace Sys2Proof.Machine

section
variable (d : Device)

/-! #### The issue of a request, by its requester -/

theorem issue_server {p : PortId} {tag : Nat} {t : Txn} (k : PoolTagId) (op : PoolOp) (ht : d.txn? p tag = some t) :
    d.issue k { requester := .server p tag, op := op } = { d with
      pool.tags := d.pool.tags.set k.val (.busy (.server p tag) d.clock.now) k.isLt
      txns := d.txns.insert (txnKey p tag) { t with job := { t.job with stage := .forwarded k } }
      out := d.out ++ [.pool k op] } := by
  have ht' : (d.setTag k (.busy (.server p tag) d.clock.now)).txn? p tag = some t := ht
  simp only [Device.issue, Device.onTxn, ht']
  rfl

theorem issue_preserve (k : PoolTagId) (r : PoolRequest) (hr : r.requester.isPreserve = true) :
    d.issue k r = { d with
      pool.tags := d.pool.tags.set k.val (.busy r.requester d.clock.now) k.isLt, out := d.out ++ [.pool k r.op] } := by
  obtain ⟨q, op⟩ := r
  cases q with
  | preserve v g => rfl
  | server p tag => cases hr
  | slot j => cases hr

theorem issue_slot_reading {j : SlotId} {z : CopySlot} (k : PoolTagId) (op : PoolOp) (hz : d.slot? j = some z)
    (hp : z.phase = .reading) : d.issue k { requester := .slot j, op := op } = { d with
      pool.tags := d.pool.tags.set k.val (.busy (.slot j) d.clock.now) k.isLt, out := d.out ++ [.pool k op] } := by
  have hz' : (d.setTag k (.busy (.slot j) d.clock.now)).slot? j = some z := hz
  simp only [Device.issue, Device.onJob, hz', hp]
  rfl

theorem issue_slot_writing {j : SlotId} {z : CopySlot} {b : Job} {due : Option Nat} (k : PoolTagId) (op : PoolOp)
    (hz : d.slot? j = some z) (hp : z.phase = .writing b due) :
    d.issue k { requester := .slot j, op := op } = { d with
      pool.tags := d.pool.tags.set k.val (.busy (.slot j) d.clock.now) k.isLt
      copy.slots := d.copy.slots.set j.val
        (some { z with phase := .writing { b with stage := .forwarded k } due }) j.isLt
      out := d.out ++ [.pool k op] } := by
  have hz' : (d.setTag k (.busy (.slot j) d.clock.now)).slot? j = some z := hz
  simp only [Device.issue, Device.onJob, hz', hp]
  rfl

@[simp] theorem issue_tags (k : PoolTagId) (r : PoolRequest) :
    (d.issue k r).pool.tags = d.pool.tags.set k.val (.busy r.requester d.clock.now) k.isLt :=
  congrArg (fun c : Core => c.pool.tags) (core_issue d k r)

/-! #### Which request is granted -/

/-- R12: the head of class PRESERVE takes the lowest reserved tag, or else the lowest of the others. -/
theorem grantOne_preserve {r : PoolRequest} {rest : List PoolRequest} {t : PoolTagId} (hq : d.pool.preserveQ = r :: rest)
    (ht : (d.pool.freeReserved <|> d.pool.freeUnreserved) = some t) :
    d.grantOne = some ({ d with pool.preserveQ := rest }.issue t r) := by
  unfold Device.grantOne
  rw [hq]
  dsimp only
  rw [ht]

/-- R12: class PATH goes first while its streak is below 3 or no copy request waits. -/
theorem grantOne_pathHead {r : PoolRequest} {rest : List PoolRequest} {t : PoolTagId} (hp : d.pool.preserveQ = [])
    (ht : d.pool.freeUnreserved = some t) (hq : d.pool.pathQ = r :: rest) (hs : d.pool.copyQ = [] ∨ d.pool.streak < 3) :
    d.grantOne = some ({ d with
      pool.pathQ := rest, pool.streak := if d.pool.copyQ = [] then 0 else d.pool.streak + 1 }.issue t r) := by
  unfold Device.grantOne
  rw [hp, ht, hq]
  dsimp only
  cases hc : d.pool.copyQ with
  | nil => rw [if_pos rfl]
  | cons c crest =>
    have hs : d.pool.streak < 3 := hs.resolve_left (by simp [hc])
    rw [if_neg (by simp)]
    exact if_pos hs

/-- R12: class COPY is served with no path request waiting, or after three path grants. -/
theorem grantOne_copyHead {r : PoolRequest} {rest : List PoolRequest} {t : PoolTagId} (hp : d.pool.preserveQ = [])
    (ht : d.pool.freeUnreserved = some t) (hq : d.pool.copyQ = r :: rest) (hs : d.pool.pathQ = [] ∨ d.pool.streak ≥ 3) :
    d.grantOne = some ({ d with pool.copyQ := rest, pool.streak := 0 }.issue t r) := by
  unfold Device.grantOne
  rw [hp, ht, hq]
  dsimp only
  cases hc : d.pool.pathQ with
  | nil => rfl
  | cons c crest =>
    have hs : d.pool.streak ≥ 3 := hs.resolve_left (by simp [hc])
    exact if_neg (by omega)

/-- With an unreserved tag for no one and no PRESERVE request, no grant is made (R12). -/
theorem grantOne_noUnreserved (hp : d.pool.preserveQ = []) (hf : d.pool.freeUnreserved = none) : d.grantOne = none := by
  unfold Device.grantOne
  rw [hp, hf]

/-- One grant, after which none is possible, is all the arbiter makes (R12). -/
theorem grantPool_once {d d' : Device} (h : d.grantOne = some d') (h' : d'.grantOne = none) : d.grantPool = d' := by
  unfold Device.grantPool
  cases hw : d.pool.waiting with
  | zero =>
    simp only [Pool.waiting, Nat.add_eq_zero_iff, List.length_eq_zero_iff] at hw
    rw [grantOne_idle d hw.1.1 hw.1.2 hw.2] at h
    cases h
  | succ n =>
    rw [grantLoop, h]
    exact grantLoop_none d' h'

/-- A grant of the only FREE tag is the one grant made (R12). -/
theorem grantPool_sole {e : Device} {k : PoolTagId} {r : PoolRequest} (h : d.grantOne = some (e.issue k r))
    (hs : ∀ j, j ≠ k → e.pool.tags[j] ≠ .free) : d.grantPool = e.issue k r := by
  have hfull : ∀ j : PoolTagId, (e.issue k r).pool.tags[j] ≠ .free := fun j => by
    rw [issue_tags, tags_set]
    split
    · simp
    · exact hs j (by assumption)
  exact grantPool_once h (grantOne_full _ (.inr hfull) fun j _ => hfull j)

end

/-! ### An accepted READ (O18) -/

/-- R13: the pool transaction of a READ of a defined volume. -/
theorem jobOp_read {d : Device} {j : Job} {x : Volume} (hv : d.volume? j.volume = some x) :
    d.jobOp j true = .read (x.base + j.first) j.blocks := by
  simp [Device.jobOp, hv]

/-- Settles O18: the READ's request joins class PATH of the part with its tag taken (`joinPool_wait`, `joinPool_issue`). -/
theorem readAccepted : Obligations.ReadAccepted := by
  intro s p h x hl hu hb ht hf hpool hv hs hr record
  have hexec := exec_read_accepted hl hu (dataRefusal_none_of hb ht hf hpool hv hs hr)
  unfold Device.acceptRead at hexec
  rw [jobOp_read hv] at hexec
  refine ⟨fun hfull hq => ?_, fun k hk hfree hlow h1 h2 h3 => ?_⟩
  · rw [hexec, joinPool_wait (s.dev.openTxn p h .read [] .queued none) _ _ _ hq hfull]
    rfl
  · have hsome : s.dev.pool.freeUnreserved = some k := firstFree_some (Nat.zero_le _) hk hfree fun u _ hu => hlow u hu
    have htxn : ({ s.dev.openTxn p h .read [] .queued none with pool.streak := 0 } : Device).txn? p h.tag
        = some (record .queued) := Table.find_insert_same _ _ _
    rw [hexec, joinPool_issue (s.dev.openTxn p h .read [] .queued none) p h.tag _ h1 h2 h3 hsome, issue_server _ k _ htxn]
    simp only [Device.openTxn, Device.setTxn, Table.insert_insert]
    rfl

end Sys2Proof.Machine
end

section
/-! ### POOL DONE, timeouts and the end of a quarantine (O37) -/

namespace Sys2Proof.Machine

/-- The part once tag k has come to the state x, the reference oscillator having reached the moment m. -/
def Device.withTag (d : Device) (k : PoolTagId) (x : PoolTag) (m : Nat) : Device :=
  { d with pool.tags := d.pool.tags.set k.val x k.isLt, clock.now := max d.clock.now m }

theorem withTag_eq (d : Device) (k : PoolTagId) (x : PoolTag) (m : Nat) : d.withTag k x m = (d.reach m).setTag k x := rfl

/-- A tag set with no moment named. -/
theorem withTag_zero (d : Device) (k : PoolTagId) (x : PoolTag) : d.withTag k x 0 = d.setTag k x := by
  simp only [Device.withTag, Nat.max_zero]
  rfl

theorem withTag_other (d : Device) (k : PoolTagId) (x : PoolTag) (m : Nat) {j : PoolTagId} (hj : j ≠ k) :
    (d.withTag k x m).pool.tags[j] = d.pool.tags[j] := by
  rw [Device.withTag, tags_set, if_neg hj]

theorem withTag_same (d : Device) (k : PoolTagId) (x : PoolTag) (m : Nat) : (d.withTag k x m).pool.tags[k] = x := by
  simp [Device.withTag]

section
variable {d : Device} {k : PoolTagId}

/-! #### Events on a tag in another state change nothing (entry 4) -/

theorem donePool_other (h : ∀ r m, d.pool.tags[k] ≠ .busy r m) (st : PoolStatus) (data : List Byte) :
    d.donePool k st data = (d, []) := by
  unfold Device.donePool
  split
  · exact absurd (by assumption) (h _ _)
  · rfl

theorem timeoutPool_other (h : ∀ r m, d.pool.tags[k] ≠ .busy r m) : d.timeoutPool k = (d, []) := by
  unfold Device.timeoutPool
  split
  · exact absurd (by assumption) (h _ _)
  · rfl

theorem endQuarantine_other (h : ∀ m, d.pool.tags[k] ≠ .quarantined m) : d.endQuarantine k = d := by
  unfold Device.endQuarantine
  split
  · exact absurd (by assumption) (h _)
  · rfl

/-! #### Events on their own tag -/

theorem donePool_busy {r : Requester} {m : Nat} (h : d.pool.tags[k] = .busy r m) (hw : (d.setTag k .free).grantOne = none)
    (st : PoolStatus) (data : List Byte) :
    d.donePool k st data = (d.setTag k .free, [.poolEnd r (doneStatus st) data]) := by
  unfold Device.donePool
  rw [h]
  dsimp only
  rw [grantPool_none _ hw]

theorem timeoutPool_busy {r : Requester} {m : Nat} (h : d.pool.tags[k] = .busy r m) :
    d.timeoutPool k = (d.withTag k (.quarantined (max d.clock.now (m + 5000) + 5000)) (m + 5000), [.poolEnd r .timeout []]) := by
  unfold Device.timeoutPool
  rw [h]
  rfl

/-- R10, R178: with no PATH RESET pending, the freed tag is all there is to the end of a quarantine but the grants. -/
theorem endQuarantine_quiet {m : Nat} (h : d.pool.tags[k] = .quarantined m) (hr : d.mgmt.pathReset = none) :
    d.endQuarantine k = (d.withTag k .free m).grantPool := by
  have hleft : (d.withTag k .free m).leaveResetSet k = d.withTag k .free m := by
    have : (d.withTag k .free m).mgmt.pathReset = none := hr
    simp only [Device.leaveResetSet, this, Option.map_none]
    simp only [← this]
  have hdone : (d.withTag k .free m).completeReset = d.withTag k .free m := by
    have : (d.withTag k .free m).mgmt.pathReset = none := hr
    simp only [Device.completeReset, this]
  unfold Device.endQuarantine
  rw [h]
  dsimp only
  rw [← withTag_eq, hleft, hdone]

/-- R178: the end of a quarantine that a pending PATH RESET waits for, with other tags left. -/
theorem endQuarantine_left {m : Nat} {r : PendingReset} (h : d.pool.tags[k] = .quarantined m)
    (hr : d.mgmt.pathReset = some r) (hl : r.left.filter (fun j => j ≠ k) ≠ []) :
    d.endQuarantine k =
      Device.grantPool { d.withTag k .free m with mgmt.pathReset := some { r with left := r.left.filter fun j => j ≠ k } } := by
  have hr' : (d.withTag k .free m).mgmt.pathReset = some r := hr
  unfold Device.endQuarantine
  rw [h]
  dsimp only
  rw [← withTag_eq, Device.leaveResetSet, hr']
  simp only [Option.map_some, Device.completeReset]
  rw [if_neg (by simpa using hl)]

/-- R178: the end of the last quarantine that a pending PATH RESET waits for: it answers with its three counts. -/
theorem endQuarantine_last {m : Nat} {r : PendingReset} {u : Txn} (h : d.pool.tags[k] = .quarantined m)
    (hr : d.mgmt.pathReset = some r) (hl : r.left.filter (fun j => j ≠ k) = []) (hu : d.txn? r.txn.port r.txn.tag = some u) :
    d.endQuarantine k = (Device.answered { d.withTag k .free m with mgmt.pathReset := none } r.txn.port r.txn.tag u .ok none
      [.num 1 r.aborted, .num 1 r.restores, .num 1 (if r.passEnded then 1 else 0)]).grantPool := by
  have hr' : (d.withTag k .free m).mgmt.pathReset = some r := hr
  unfold Device.endQuarantine
  rw [h]
  dsimp only
  rw [← withTag_eq, Device.leaveResetSet, hr']
  simp only [Option.map_some, Device.completeReset]
  rw [if_pos (by simpa using hl)]
  exact congrArg Device.grantPool (reply_eq { d.withTag k .free m with mgmt.pathReset := none } (t := u) hu _ _ _)

/-! #### The one FREE tag -/

theorem freeUnreserved_sole (hk : k.val ≤ 59) (hf : d.pool.tags[k] = .free) (hs : ∀ j, j ≠ k → d.pool.tags[j] ≠ .free) :
    d.pool.freeUnreserved = some k :=
  firstFree_some (Nat.zero_le _) hk hf fun u _ hu => hs u fun e => by simp [e] at hu

theorem freeUnreserved_none_of_sole (hk : k.val ≥ 60) (hs : ∀ j, j ≠ k → d.pool.tags[j] ≠ .free) :
    d.pool.freeUnreserved = none :=
  firstFree_none.2 fun j _ hj => hs j fun e => by subst e; omega

/-- R12: a PRESERVE request is offered the one FREE tag, reserved or not. -/
theorem freeForPreserve_sole (hf : d.pool.tags[k] = .free) (hs : ∀ j, j ≠ k → d.pool.tags[j] ≠ .free) :
    (d.pool.freeReserved <|> d.pool.freeUnreserved) = some k := by
  by_cases hk : k.val ≤ 59
  · have hr : d.pool.freeReserved = none := firstFree_none.2 fun j hj _ => hs j fun e => by subst e; omega
    rw [hr, freeUnreserved_sole hk hf hs]
    rfl
  · have hr : d.pool.freeReserved = some k :=
      firstFree_some (by omega) (by omega) hf fun u _ hu => hs u fun e => by simp [e] at hu
    rw [hr]
    rfl

/-- R12: a PRESERVE request is offered the lowest FREE reserved tag, or else the lowest FREE one of the others. -/
theorem freeForPreserve_lowest {p : Pool} {t : PoolTagId}
    (h : (60 ≤ t.val ∧ t.val ≤ 63 ∧ p.tags[t] = .free ∧ ∀ j : PoolTagId, 60 ≤ j.val → j < t → p.tags[j] ≠ .free)
      ∨ ((0 ≤ t.val ∧ t.val ≤ 59 ∧ p.tags[t] = .free ∧ ∀ j : PoolTagId, 0 ≤ j.val → j < t → p.tags[j] ≠ .free)
        ∧ ∀ j : PoolTagId, 60 ≤ j.val → p.tags[j] ≠ .free)) :
    (p.freeReserved <|> p.freeUnreserved) = some t := by
  rcases h with ⟨h1, h2, hf, hl⟩ | ⟨⟨h1, h2, hf, hl⟩, hr⟩
  · have : p.freeReserved = some t := firstFree_some h1 h2 hf hl
    rw [this]
    rfl
  · have hnone : p.freeReserved = none := firstFree_none.2 fun j hj _ => hr j hj
    have : p.freeUnreserved = some t := firstFree_some h1 h2 hf hl
    rw [hnone, this]
    rfl

end

/-- R13: the outcome of a server READ is its completion. -/
theorem perform_poolEnd_read {d : Device} {p : PortId} {g : Nat} {y : Txn} (ht : d.txn? p g = some y) (hy : y.kind = .read)
    (st : Status) (data : List Byte) : perform (.poolEnd (.server p g) st data) d =
      (d.ended p g y st 0 (if st = .ok then data else []), []) := by
  show poolOutcome (.server p g) st data d = _
  simp only [poolOutcome, ht, hy, endTxn_eq d ht]

theorem settle_poolEnd_read {d : Device} {p : PortId} {g : Nat} {y : Txn} (ht : d.txn? p g = some y) (hy : y.kind = .read)
    (st : Status) (data : List Byte) :
    settle (d, [.poolEnd (.server p g) st data]) = d.ended p g y st 0 (if st = .ok then data else []) := by
  have h := perform_poolEnd_read ht hy st data
  rw [settle_one d (by rw [h]), h]

/-- Settles O37: each event by what it does to its tag, then the grant by the class whose turn it is. -/
theorem poolTransactionsEnd : Obligations.PoolTransactionsEnd := by
  intro s k hl noneWaits withTag
  have timeout {e : Effect} (he : s.dev.timeoutPool k = e) :
      exec (.poolTimeout k) s = .next { s with dev := settle e } := by
    simp only [exec, execPoolTimeout, event_high _ hl, he]
  have done (st : PoolStatus) (data : List Byte) {e : Effect} (he : s.dev.donePool k st data = e) :
      exec (.poolDone k st data) s = .next { s with dev := settle e } := by
    simp only [exec, execPoolDone, event_high _ hl, he]
  have quarantine {e : Device} (he : s.dev.endQuarantine k = e) :
      exec (.quarantineEnd k) s = .next { s with dev := e } := by
    simp only [exec, execQuarantineEnd, event_high _ hl, he]
  refine ⟨fun hb => ⟨?_, fun st data => ?_⟩, fun hq => ?_, fun p g m y hb ht hy => ⟨?_, fun hw st data => ?_⟩,
    fun m hq hw => ⟨fun hr => ?_, fun r hr => ⟨fun hleft => ?_, fun u hleft hu => ?_⟩⟩, fun m hq hr => ?_⟩
  · rw [timeout (timeoutPool_other hb), settle_nil]
  · rw [done st data (donePool_other hb st data), settle_nil]
  · exact quarantine (endQuarantine_other hq)
  · rw [timeout (timeoutPool_busy hb), settle_poolEnd_read (d := s.dev.withTag k _ _) (y := y) ht hy]
    rfl
  · have hidle : (s.dev.setTag k .free).grantOne = none := grantOne_idle _ hw.1 hw.2.1 hw.2.2
    rw [done st data (donePool_busy hb hidle st data), settle_poolEnd_read (d := s.dev.setTag k .free) (y := y) ht hy]
    have hz : withTag .free 0 = s.dev.setTag k .free := withTag_zero s.dev k .free
    rw [hz]
    cases st <;> rfl
  · exact quarantine ((endQuarantine_quiet hq hr).trans (grantPool_none _ (grantOne_idle _ hw.1 hw.2.1 hw.2.2)))
  · exact quarantine ((endQuarantine_left hq hr hleft).trans (grantPool_none _ (grantOne_idle _ hw.1 hw.2.1 hw.2.2)))
  · exact quarantine ((endQuarantine_last hq hr hleft hu).trans (grantPool_none _ (grantOne_idle _ hw.1 hw.2.1 hw.2.2)))
  · intro d sole Issues
    have hd : d = s.dev.withTag k .free m := rfl
    have hfree : d.pool.tags[k] = .free := withTag_same s.dev k .free m
    have hsole (hs : sole) : ∀ j, j ≠ k → d.pool.tags[j] ≠ .free := fun j hj => by
      rw [hd, withTag_other s.dev k .free m hj]
      exact hs j hj
    have granted {e : Device} (he : d.grantPool = e) := quarantine ((endQuarantine_quiet hq hr).trans he)
    refine ⟨fun r rest hs hp hpres => ?_, fun hs hp hk => ?_, fun r rest p g y hs hp hk hpath hreq ht hstreak => ?_,
      fun r rest j z hs hp hk hcopy hreq hz hstreak => ⟨fun hph => ?_, fun b due hph => ?_⟩,
      fun r t hp hpath hcopy hpres => ?_⟩
    · have hone := grantOne_preserve d hp (freeForPreserve_sole hfree (hsole hs))
      exact granted ((grantPool_sole d hone (hsole hs)).trans (issue_preserve _ k r hpres))
    · exact granted (grantPool_none d (grantOne_noUnreserved d hp (freeUnreserved_none_of_sole hk (hsole hs))))
    · have hone := grantOne_pathHead d hp (freeUnreserved_sole hk hfree (hsole hs)) hpath hstreak
      obtain ⟨q, op⟩ := r
      subst hreq
      exact granted ((grantPool_sole d hone (hsole hs)).trans (issue_server _ k op (t := y) ht))
    · have hone := grantOne_copyHead d hp (freeUnreserved_sole hk hfree (hsole hs)) hcopy hstreak
      obtain ⟨q, op⟩ := r
      subst hreq
      exact granted ((grantPool_sole d hone (hsole hs)).trans (issue_slot_reading _ k op (z := z) hz hph))
    · have hone := grantOne_copyHead d hp (freeUnreserved_sole hk hfree (hsole hs)) hcopy hstreak
      obtain ⟨q, op⟩ := r
      subst hreq
      exact granted ((grantPool_sole d hone (hsole hs)).trans (issue_slot_writing _ k op (z := z) hz hph))
    · intro Lowest hlow
      have hone := grantOne_preserve d hp (freeForPreserve_lowest hlow)
      have hidle : (({ d with pool.preserveQ := [] } : Device).issue t r).grantOne = none :=
        grantOne_idle _ (by simp) (by simpa using hpath) (by simpa using hcopy)
      exact granted ((grantPool_once hone hidle).trans (issue_preserve _ t r hpres))

end Sys2Proof.Machine
end

section
/-! ### Links that come UP, and the peer (O23) -/

namespace Sys2Proof.Machine

section
variable {d : Device}

/-! #### What PEER STATUS comes to, by the link's state (R156) -/

theorem peerStatus_down (h : d.dup.link = .down) (r : Bool) : d.peerStatus r = (d, []) := by
  simp only [Device.peerStatus, h]

theorem peerStatus_up_notReady (h : d.dup.link = .up) : d.peerStatus false = (d, []) := by
  simp only [Device.peerStatus, h]

theorem peerStatus_up_ready (h : d.dup.link = .up) :
    d.peerStatus true = (d.setOffsite (.ready (d.clock.now + 3000)), [.transmit]) := by
  simp only [Device.peerStatus, h]
  rfl

theorem peerStatus_ready_ready {m : Nat} (h : d.dup.link = .ready m) :
    d.peerStatus true = ({ d with dup.link := .ready (d.clock.now + 3000) }, []) := by
  simp only [Device.peerStatus, h]
  rfl

theorem peerStatus_ready_notReady {m : Nat} (h : d.dup.link = .ready m) :
    d.peerStatus false = (d.losePeer .up .notReady, []) := by
  simp only [Device.peerStatus, h]

/-- R145: with no frame waiting the transmitter takes none. -/
theorem transmit_nothing (ha : d.dup.attention = none) (hb : ∀ b ∈ d.dup.batches, b.shutWaits = false)
    (hp : d.dup.pass = none) : perform .transmit d = (d, []) := by
  show transmit d = _
  have hf : d.dup.batches.find? (fun b => b.shutWaits) = none := List.find?_eq_none.2 fun b h => by simp [hb b h]
  unfold transmit
  split
  · rfl
  · simp only [ha, hf, hp]

/-- R156: the link leaves READY; the frame in transmission is lost and PEER_LOST carries the reason. -/
theorem losePeer_eq (l : OffsiteLink) (hl : l.isReady = false) (why : Name) : d.losePeer l why =
    { d.noted .peerLost .absent (.name why) with dup := { d.dup with link := l, transmitting := none } } := by
  unfold Device.losePeer
  rw [notify_eq, Device.setOffsite, hl]
  rfl

end

section
variable {s : State} (hl : s.dev.resetLow = false)
include hl

theorem exec_peerStatus (r : Bool) {e : Effect} (he : s.dev.peerStatus r = e) :
    exec (.peerStatus r) s = .next { s with dev := settle e } := by
  simp only [exec, execPeerStatus, event_high _ hl, he]

theorem exec_offsiteLinkDown {e : Device} (he : s.dev.loseOffsite = e) :
    exec .offsiteLinkDown s = .next { s with dev := e } := by
  simp only [exec, execOffsiteLinkDown, event_high _ hl, he]

theorem exec_silenceTimeout {e : Device} (he : s.dev.silence = e) :
    exec .silenceTimeout s = .next { s with dev := e } := by
  simp only [exec, execSilenceTimeout, event_high _ hl, he]

theorem exec_attentionFromPeer (c : Nat) {e : Device} (he : s.dev.takeAttention c = e) :
    exec (.attentionFromPeer c) s = .next { s with dev := e } := by
  simp only [exec, execAttentionFromPeer, event_high _ hl, he]

end

/-- A link that is not READY, when its line is lost (R156). -/
theorem loseOffsite_notReady {d : Device} (h : d.dup.link.isReady = false) : d.loseOffsite = d.setOffsite .down := by
  simp [Device.loseOffsite, h]

/-- Settles O23: each event by the state of its link. -/
theorem linksAndPeer : Obligations.LinksAndPeer := by
  refine ⟨fun s p hl => ?links, fun s hl => ?peer⟩
  case links =>
    intro x
    refine ⟨fun hd => ?_, ?_, fun hd ht => ?_⟩
    · have hd' : (s.dev.port p).link = .down := hd
      simp only [exec, execServerLinkUp, event_high _ hl, hd', if_true]
      rfl
    · simp only [exec, execPoolLinkUp, event_high _ hl]
    · simp only [exec, execOffsiteLinkUp, event_high _ hl, hd, if_true, Device.setOffsite, ht]
      rfl
  intro u linked lost
  refine ⟨fun hd => ?down, fun hup => ?up, fun m hr => ?ready, fun hne c => ?attention⟩
  case down =>
    refine ⟨fun r => ?_, ?_, ?_, fun c => ?_⟩
    · rw [exec_peerStatus hl r (peerStatus_down hd r), settle_nil]
    · exact exec_silenceTimeout hl (by simp only [Device.silence, show s.dev.dup.link = .down from hd])
    · exact exec_offsiteLinkDown hl (loseOffsite_notReady (by rw [show s.dev.dup.link = .down from hd]; rfl))
    · exact exec_attentionFromPeer hl c (if_pos hd)
  case up =>
    refine ⟨?_, ?_, ?_, fun ha hb hp ht => ?_⟩
    · rw [exec_peerStatus hl false (peerStatus_up_notReady hup), settle_nil]
    · exact exec_silenceTimeout hl (by simp only [Device.silence, show s.dev.dup.link = .up from hup])
    · exact exec_offsiteLinkDown hl (loseOffsite_notReady (by rw [show s.dev.dup.link = .up from hup]; rfl))
    · have hq := transmit_nothing (d := s.dev.setOffsite (.ready (s.dev.clock.now + 3000))) ha hb hp
      rw [exec_peerStatus hl true (peerStatus_up_ready hup), settle_one _ (by rw [hq]), hq]
      simp only [Device.setOffsite, linked, show s.dev.dup.transmitting = none from ht, ite_self]
      rfl
  case ready =>
    have hready : s.dev.dup.link.isReady = true := by rw [show s.dev.dup.link = .ready m from hr]; rfl
    refine ⟨?_, ?_, ?_, ?_⟩
    · rw [exec_peerStatus hl true (peerStatus_ready_ready hr), settle_nil]
    · rw [exec_peerStatus hl false (peerStatus_ready_notReady hr), settle_nil, losePeer_eq .up rfl]
    · refine exec_offsiteLinkDown hl ((if_pos hready).trans (losePeer_eq .down rfl .link))
    · refine exec_silenceTimeout hl ?_
      simp only [Device.silence, show s.dev.dup.link = .ready m from hr]
      rw [losePeer_eq .up rfl]
      rfl
  case attention => exact exec_attentionFromPeer hl c ((if_neg hne).trans (notify_eq _ _ _ _))

end Sys2Proof.Machine
end

section
/-! ### A WRITE that is held or refused on the write path (O19) -/

namespace Sys2Proof.Machine

/-- The record of an accepted WRITE as it enters the write path (R8). -/
def writeRecord (h : Header) (payload : List Byte) : Txn :=
  { kind := .write, owed := true, job := h.job payload .admitting, command := none }

section
variable {d : Device} {p : PortId} {tag : Nat} {t : Txn}

@[simp] theorem txn_setTxn (d : Device) (p : PortId) (tag : Nat) (t : Txn) : (d.setTxn p tag t).txn? p tag = some t :=
  Table.find_insert_same _ _ _

/-- A tag taken and freed again within an event: only the completion is left (R6). -/
theorem endTxn_opened (hn : d.txn? p tag = none) (ho : t.owed = true) (hl : (d.port p).link = .up) (st : Status) (n : Nat)
    (data : List Byte) : (d.setTxn p tag t).endTxn p tag st n data = { d with
      out := d.out ++ [.completion p { kind := t.kind.code, tag := tag, status := st, count := n, data := data }] } := by
  rw [endTxn_up _ (txn_setTxn d p tag t) ho hl]
  simp only [Device.setTxn, Table.erase_insert]
  rw [Table.erase_of_find_none d.txns _ hn]

theorem job_server (ht : d.txn? p tag = some t) (hk : t.kind = .write) : d.job? (.server p tag) = some t.job := by
  simp only [Device.job?, ht, hk, if_true]

/-- An update of an open server WRITE's job. -/
theorem onJob_server (ht : d.txn? p tag = some t) (f : Job → Job) :
    d.onJob (.server p tag) f = d.setTxn p tag { t with job := f t.job } := by
  simp only [Device.onJob, Device.onTxn, ht]

theorem setTxn_setTxn (d : Device) (p : PortId) (tag : Nat) (t u : Txn) :
    (d.setTxn p tag t).setTxn p tag u = d.setTxn p tag u := by
  simp only [Device.setTxn, Table.insert_insert]

/-! #### The refusals of admission (R24, R25) -/

theorem refuseQuota_setTxn (a : Nat) : (d.setTxn p tag t).refuseQuota a = (d.refuseQuota a).setTxn p tag t := by
  simp only [Device.refuseQuota, notify_eq]
  show (if (d.account a).hardArmed = true then _ else _) = Device.setTxn (if (d.account a).hardArmed = true then _ else _) p tag t
  split <;> rfl

theorem refuseGroup_setTxn (g : Nat) : (d.setTxn p tag t).refuseGroup g = (d.refuseGroup g).setTxn p tag t := by
  simp only [Device.refuseGroup, notify_eq]
  show (if (d.group g).fullArmed = true then _ else _) = Device.setTxn (if (d.group g).fullArmed = true then _ else _) p tag t
  split <;> rfl

/-- The refusals touch no transaction and no port. -/
theorem refuseQuota_frame (a : Nat) : (d.refuseQuota a).txns = d.txns ∧ (d.refuseQuota a).ports = d.ports := by
  simp only [Device.refuseQuota, notify_eq]
  split <;> exact ⟨rfl, rfl⟩

theorem refuseGroup_frame (g : Nat) : (d.refuseGroup g).txns = d.txns ∧ (d.refuseGroup g).ports = d.ports := by
  simp only [Device.refuseGroup, notify_eq]
  split <;> exact ⟨rfl, rfl⟩

theorem admission_quota {a c : Nat} (hc : 0 < c) (h : (d.account a).usage + (d.account a).held + c > (d.account a).limit) :
    d.admission a c = (d.refuseQuota a, some .quota) := by
  have ho : d.overQuota a c = true := decide_eq_true h
  rw [Device.admission, if_neg (by omega), if_pos ho]

theorem admission_group {a c : Nat} (hc : 0 < c) (h : (d.account a).usage + (d.account a).held + c ≤ (d.account a).limit)
    (hz : (d.account a).group ≠ 0) (hg : (d.group (d.account a).group).limit ≠ 0)
    (hover : (d.group (d.account a).group).usage + (d.group (d.account a).group).held + c
      > (d.group (d.account a).group).limit) :
    d.admission a c = (d.refuseGroup (d.account a).group, some .groupQuota) := by
  have ho : ¬ d.overQuota a c = true := by simpa [Device.overQuota] using h
  have hog : d.overGroup a c = true := by simp [Device.overGroup, hz, hg, hover]
  rw [Device.admission, if_neg (by omega), if_neg ho, if_pos hog]

end

section
variable {d : Device} {p : PortId} {h : Header} {payload : List Byte} {x : Volume}

/-- R101: a WRITE of a CUTTING volume with a place in the cut-hold queue is held. -/
theorem acceptWrite_held (hv : d.volume? h.volume = some x) (hc : x.cut ≠ none) (hlen : d.cutHold.length < 256) :
    d.acceptWrite p h payload = ({ d with
      txns := d.txns.insert (txnKey p h.tag)
        { kind := .write, owed := true, job := h.job payload .held, command := none }
      cutHold := d.cutHold ++ [.server p h.tag] }, []) := by
  have hcut : (d.openTxn p h .write payload .admitting none).cutting h.volume = true := by
    simp only [Device.cutting, show (d.openTxn p h .write payload .admitting none).volume? h.volume = some x from hv]
    exact Option.isSome_iff_ne_none.2 hc
  have hheld : (d.openTxn p h .write payload .admitting none).joinHold (.server p h.tag) = some
      (({ d with cutHold := d.cutHold ++ [.server p h.tag] } : Device).setTxn p h.tag
        { kind := .write, owed := true, job := h.job payload .held, command := none }) := by
    have hj := onJob_server (txn_setTxn ({ d with cutHold := d.cutHold ++ [.server p h.tag] } : Device) p h.tag
      (writeRecord h payload)) fun j => { j with stage := .held }
    rw [setTxn_setTxn] at hj
    exact (if_pos hlen).trans (congrArg some hj)
  unfold Device.acceptWrite enterWritePath
  rw [if_pos hcut, hheld]
  rfl

/-- R101: with the cut-hold queue full it is refused with RETRY. -/
theorem acceptWrite_retry (hv : d.volume? h.volume = some x) (hc : x.cut ≠ none) (hlen : d.cutHold.length ≥ 256)
    (hn : d.txn? p h.tag = none) (hl : (d.port p).link = .up) :
    d.acceptWrite p h payload = (d.refuse p 2 h.tag .retry, []) := by
  have hcut : (d.openTxn p h .write payload .admitting none).cutting h.volume = true := by
    simp only [Device.cutting, show (d.openTxn p h .write payload .admitting none).volume? h.volume = some x from hv]
    exact Option.isSome_iff_ne_none.2 hc
  have hfull : (d.openTxn p h .write payload .admitting none).joinHold (.server p h.tag) = none :=
    if_neg (Nat.not_lt.2 hlen)
  unfold Device.acceptWrite enterWritePath
  rw [if_pos hcut, hfull]
  exact congrArg (·, []) (endTxn_opened (t := writeRecord h payload) hn rfl hl .retry 0 [])

/-- R8: a WRITE of a volume that is not CUTTING goes to admission. -/
theorem acceptWrite_admission (hv : d.volume? h.volume = some x) (hc : x.cut = none) :
    d.acceptWrite p h payload = (d.setTxn p h.tag (writeRecord h payload), [.admission (.server p h.tag)]) := by
  have hcut : ¬ (d.openTxn p h .write payload .admitting none).cutting h.volume = true := by
    simp only [Device.cutting, show (d.openTxn p h .write payload .admitting none).volume? h.volume = some x from hv]
    simp [Volume.cutting, hc]
  unfold Device.acceptWrite enterWritePath
  rw [if_neg hcut]
  rfl

/-- R24, R25: a WRITE that admission refuses: the refusal's own changes are kept, and its tag is free again. -/
theorem settle_admission_refused {e : Device} {st : Status} (hn : e.txn? p h.tag = none) (hl : (e.port p).link = .up)
    (ha : (d.setTxn p h.tag (writeRecord h payload)).admission h.account (h.job payload .admitting).chargeOf
      = (e.setTxn p h.tag (writeRecord h payload), some st)) :
    settle (d.setTxn p h.tag (writeRecord h payload), [.admission (.server p h.tag)]) = e.refuse p 2 h.tag st := by
  have hp : perform (.admission (.server p h.tag)) (d.setTxn p h.tag (writeRecord h payload))
      = (e.refuse p 2 h.tag st, []) := by
    have hj : (d.setTxn p h.tag (writeRecord h payload)).job? (.server p h.tag) = some (h.job payload .admitting) :=
      job_server (txn_setTxn d p h.tag _) rfl
    show admitWrite (.server p h.tag) _ = _
    unfold admitWrite
    simp only [hj]
    rw [show (h.job payload .admitting).account = h.account from rfl, ha]
    exact congrArg (·, []) (endTxn_opened (t := writeRecord h payload) hn rfl hl st 0 [])
  rw [settle_one _ (by rw [hp]), hp]

end

/-- Settles O19: held or refused by the cut-hold queue, or refused by admission (`admission_quota`, `admission_group`). -/
theorem writeHeldOrRefused : Obligations.WriteHeldOrRefused := by
  refine ⟨fun s p h payload x hl hu hb ht hf hpool hv hs hr hc => ?hold, fun s p h payload x hl hu hb ht hf hpool hv hs hr hc => ?quota⟩
  all_goals have hexec := exec_write_accepted (payload := payload) hl hu (dataRefusal_none_of hb ht hf hpool hv hs hr)
  case hold =>
    refine ⟨fun hlen => ?_, fun hlen => ?_⟩
    · rw [hexec, acceptWrite_held hv hc hlen, settle_nil]
    · rw [hexec, acceptWrite_retry hv hc hlen ht hu, settle_nil]
      rfl
  case quota =>
    intro c a g limit Refused
    rw [acceptWrite_admission hv hc] at hexec
    refine ⟨fun hpos hover => ?_, fun hpos hle hz hg hover => ?_⟩
    · have ha := admission_quota (d := s.dev.setTxn p h.tag (writeRecord h payload)) (a := h.account) hpos hover
      obtain ⟨htxns, hports⟩ := refuseQuota_frame (d := s.dev) h.account
      rw [refuseQuota_setTxn] at ha
      refine hexec.trans ?_
      rw [settle_admission_refused (by rw [Device.txn?, htxns]; exact ht) (by rw [Device.port, hports]; exact hu) ha]
      simp only [Device.refuseQuota, notify_eq]
      rfl
    · have ha := admission_group (d := s.dev.setTxn p h.tag (writeRecord h payload)) (a := h.account) hpos hle hz hg hover
      obtain ⟨htxns, hports⟩ := refuseGroup_frame (d := s.dev) a.group
      rw [show ((s.dev.setTxn p h.tag (writeRecord h payload)).account h.account).group = a.group from rfl,
        refuseGroup_setTxn] at ha
      refine hexec.trans ?_
      rw [settle_admission_refused (by rw [Device.txn?, htxns]; exact ht) (by rw [Device.port, hports]; exact hu) ha]
      simp only [Device.refuseGroup, notify_eq]
      rfl

end Sys2Proof.Machine
end

section
/-! ### A WRITE that admission lets through (O20) -/

namespace Sys2Proof.Machine

/-- A key set twice keeps the second record, the first not being the default. -/
theorem put_put {α : Type} [DecidableEq α] {dflt : α} (t : Table α) (k : Nat) {v : α} (w : α) (hv : v ≠ dflt) :
    Table.put dflt (Table.put dflt t k v) k w = Table.put dflt t k w := by
  simp only [Table.put, if_neg hv, Table.erase_insert, Table.insert_insert]

theorem setAccount_setAccount (d : Device) (n : Nat) {a : Account} (b : Account) (ha : a ≠ Account.initial) :
    (d.setAccount n a).setAccount n b = d.setAccount n b := by
  simp only [Device.setAccount, put_put _ _ _ ha]

/-- An item put before the first item it comes before: what stands before it, and what after. -/
theorem insertBefore_split {α : Type} (f : α → α → Bool) (x : α) (l : List α) :
    ∃ before after, l = before ++ after ∧ insertBefore f x l = before ++ x :: after
      ∧ (∀ y ∈ before, f x y = false) ∧ ∀ y, after.head? = some y → f x y = true := by
  induction l with
  | nil => exact ⟨[], [], rfl, rfl, by simp, by simp⟩
  | cons y ys ih =>
    by_cases h : f x y = true
    · exact ⟨[], y :: ys, rfl, if_pos h, by simp, by simpa using h⟩
    · obtain ⟨before, after, hl, hi, hb, ha⟩ := ih
      refine ⟨y :: before, after, by rw [hl]; rfl, ?_, ?_, ha⟩
      · rw [insertBefore, if_neg h, hi]
        rfl
      · intro z hz
        rcases List.mem_cons.1 hz with rfl | hz
        · exact Bool.not_eq_true _ ▸ h
        · exact hb z hz

theorem graceBefore_iff (d : Device) (a b : Nat) : d.graceBefore a b = true ↔ d.earlier a b := by
  simp only [Device.graceBefore, Device.earlier, Bool.or_eq_true, Bool.and_eq_true, decide_eq_true_eq]

/-- R52: an account joins the grace list at its place. -/
theorem joinedGrace_insertBefore (d : Device) (n : Nat) (l : List Nat) :
    d.JoinedGrace n l (insertBefore d.graceBefore n (l.filter (· ≠ n))) := by
  obtain ⟨before, after, hl, hi, hb, ha⟩ := insertBefore_split d.graceBefore n (l.filter (· ≠ n))
  refine ⟨before, after, hl, hi, fun b h => ?_, fun b h => (graceBefore_iff d n b).1 (ha b h)⟩
  rw [← graceBefore_iff, hb b h]
  exact Bool.false_ne_true

/-- R53: an account joins the undated set at its place in rising order. -/
theorem joinedUndated_insertBefore (n : Nat) (l : List Nat) :
    ∃ before after, l.filter (· ≠ n) = before ++ after ∧ (∀ k ∈ before, k < n) ∧ (∀ k, after.head? = some k → n < k)
      ∧ insertBefore (fun x y => decide (x < y)) n (l.filter (· ≠ n)) = before ++ n :: after := by
  obtain ⟨before, after, hl, hi, hb, ha⟩ := insertBefore_split (fun x y => decide (x < y)) n (l.filter (· ≠ n))
  refine ⟨before, after, hl, fun k hk => ?_, fun k hk => of_decide_eq_true (ha k hk), hi⟩
  have hne : k ≠ n := by
    have : k ∈ l.filter (· ≠ n) := hl ▸ List.mem_append_left _ hk
    simpa using (List.mem_filter.1 this).2
  have hle : ¬ n < k := of_decide_eq_false (hb k hk)
  omega

/-- R27: an account enters grace from UNDER: its notices, its new state, and its place in the grace list or in the undated
set. -/
theorem enterGrace_eq (d : Device) (n : Nat) {x : Account} (hx : d.account n = x) :
    let e := d.noted .quotaSoft (.account n) (.number (x.usage + x.held))
    d.enterGrace n =
      if x.grace = 0 then
        (e.setAccount n { x with state := .expired, deadline := none }).noted .quotaExpired (.account n) (.number x.soft)
      else if d.clock.valid then
        (e.setAccount n { x with state := .soft, deadline := some (d.clock.time.addHours x.grace) }).joinGrace n
      else (e.setAccount n { x with state := .soft, deadline := none }).joinUndated n := by
  intro e
  have hne : ({ x with state := .soft } : Account) ≠ Account.initial := fun h => by
    have := congrArg Account.state h
    cases this
  have hset (b : Account) : ((d.setAccount n { x with state := .soft }).notify .quotaSoft (.account n)
      (.number (x.usage + x.held))).setAccount n b = e.setAccount n b := by
    rw [notify_eq]
    exact setAccount_setAccount e n b hne
  unfold Device.enterGrace
  rw [hx]
  dsimp only
  rw [hset, hset, hset, valid_notify, notify_eq]
  rfl

/-! #### The charge, with its soft check (R26, R27) -/

/-- R26: account n stands at b with a charge of c held, and its group holds it too. -/
def Device.charged (d : Device) (n c : Nat) (b : Account) : Device :=
  (d.setAccount n { b with held := (d.account n).held + c }).setGroup (d.account n).group
    { d.group (d.account n).group with held := (d.group (d.account n).group).held + c }

section
variable {d : Device} {n c : Nat}

/-- R26: the charge carries the account above its soft limit. -/
def Device.Enters (d : Device) (n c : Nat) : Prop :=
  (d.account n).soft > 0 ∧ (d.account n).state = .under
    ∧ (d.account n).usage + (d.account n).held + c > (d.account n).soft

theorem charge_plain (h : ¬ d.Enters n c) : d.charge n c = d.charged n c (d.account n) := if_neg h

theorem charge_enters (h : d.Enters n c) : d.charge n c = (d.charged n c (d.account n)).enterGrace n := if_pos h

theorem charged_account (b : Account) : (d.charged n c b).account n = { b with held := (d.account n).held + c } := by
  unfold Device.charged
  rw [account_setGroup, account_setAccount]

/-- The account of a charge above 0 set again. -/
theorem charged_setAccount (hc : 0 < c) (b b' : Account) :
    (d.charged n c b).setAccount n { b' with held := (d.account n).held + c } = d.charged n c b' := by
  have hne : ({ b with held := (d.account n).held + c } : Account) ≠ Account.initial := fun h => by
    have := congrArg Account.held h
    simp only [Account.initial] at this
    omega
  show Device.setGroup ((d.setAccount n { b with held := (d.account n).held + c }).setAccount n
    { b' with held := (d.account n).held + c }) _ _ = _
  rw [setAccount_setAccount _ _ _ hne]
  rfl

/-- The QUOTA_SOFT notice of a charged account that enters grace (R27). -/
def Device.softNoted (d : Device) (e : Device) (n c : Nat) : Device :=
  e.noted .quotaSoft (.account n) (.number ((d.account n).usage + (d.account n).held + c))

/-- R27, R52, R53: a charged account enters grace: EXPIRED at once, or SOFT with its place in the grace list or in the
undated set. -/
theorem enterGrace_charged (hc : 0 < c) :
    let a := d.account n
    (d.charged n c a).enterGrace n =
      if a.grace = 0 then
        (d.softNoted (d.charged n c { a with state := .expired, deadline := none }) n c).noted .quotaExpired (.account n)
          (.number a.soft)
      else if d.clock.valid then
        (d.softNoted (d.charged n c { a with state := .soft, deadline := some (d.clock.time.addHours a.grace) }) n c).joinGrace n
      else (d.softNoted (d.charged n c { a with state := .soft, deadline := none }) n c).joinUndated n := by
  intro a
  have hagain (b : Account) : ((d.charged n c a).noted .quotaSoft (.account n) (.number (a.usage + (a.held + c)))).setAccount n
      { b with held := a.held + c } = d.softNoted (d.charged n c b) n c := by
    rw [Device.softNoted, ← charged_setAccount hc a b, Nat.add_assoc]
    rfl
  rw [enterGrace_eq _ n (charged_account a)]
  dsimp only
  rw [hagain { a with state := .expired, deadline := none }, hagain { a with state := .soft, deadline := none },
    hagain { a with state := .soft, deadline := some _ }]
  rfl

theorem enterGrace_setTxn (p : PortId) (tag : Nat) (t : Txn) :
    (d.setTxn p tag t).enterGrace n = (d.enterGrace n).setTxn p tag t := by
  rw [enterGrace_eq _ n rfl, enterGrace_eq d n rfl, apply_ite (Device.setTxn · p tag t), apply_ite (Device.setTxn · p tag t)]
  rfl

/-- The charge touches no transaction. -/
theorem charge_setTxn (p : PortId) (tag : Nat) (t : Txn) :
    (d.setTxn p tag t).charge n c = (d.charge n c).setTxn p tag t := by
  by_cases h : d.Enters n c
  · rw [charge_enters (d := d.setTxn p tag t) h, charge_enters h]
    exact enterGrace_setTxn (d := d.charged n c (d.account n)) p tag t
  · rw [charge_plain (d := d.setTxn p tag t) h, charge_plain h]
    rfl

theorem enterGrace_frame : (d.enterGrace n).txns = d.txns ∧ (d.enterGrace n).volumes = d.volumes
    ∧ (d.enterGrace n).pres = d.pres ∧ (d.enterGrace n).pool = d.pool := by
  rw [enterGrace_eq d n rfl]
  generalize d.account n = x
  split
  · exact ⟨rfl, rfl, rfl, rfl⟩
  · split <;> exact ⟨rfl, rfl, rfl, rfl⟩

/-- The charge touches neither transactions nor volumes, entries or the pool. -/
theorem charge_frame : (d.charge n c).txns = d.txns ∧ (d.charge n c).volumes = d.volumes ∧ (d.charge n c).pres = d.pres
    ∧ (d.charge n c).pool = d.pool := by
  by_cases h : d.Enters n c
  · rw [charge_enters h]
    exact enterGrace_frame (d := d.charged n c (d.account n))
  · rw [charge_plain h]
    exact ⟨rfl, rfl, rfl, rfl⟩

/-- R23 to R26: a charge within the limits of the account and its group is taken. -/
theorem admission_passes (hc : 0 < c) (ha : (d.account n).usage + (d.account n).held + c ≤ (d.account n).limit)
    (hg : (d.account n).group = 0 ∨ (d.group (d.account n).group).limit = 0
      ∨ (d.group (d.account n).group).usage + (d.group (d.account n).group).held + c ≤ (d.group (d.account n).group).limit) :
    d.admission n c = (d.charge n c, none) := by
  have ho : ¬ d.overQuota n c = true := by simpa [Device.overQuota] using ha
  have hog : ¬ d.overGroup n c = true := by
    simp only [Device.overGroup, Bool.and_eq_true, decide_eq_true_eq, not_and]
    omega
  rw [Device.admission, if_neg (by omega), if_neg ho, if_neg hog]

theorem admission_free (h : c = 0) : d.admission n c = (d, none) := if_pos h

end

/-! #### The walk over the touched grains (R68, R79) -/

/-- The volume with each of these grains at its current epoch (R68). -/
def Volume.walked (x : Volume) (gs : List Nat) : Volume :=
  { x with grains := gs.foldl (fun m k => Table.put x.fill m k x.epoch) x.grains }

/-- A grain at the current epoch needs no preservation (R76). -/
theorem needs_setW {x : Volume} {g k : Nat} (h : x.needs k = false) : (x.setW g x.epoch).needs k = false := by
  by_cases hk : k = g
  · subst hk
    have hw : (x.setW k x.epoch).w k = x.epoch := Table.get_put_same _ _ _ _
    simp only [Volume.needs, hw, show (x.setW k x.epoch).epoch = x.epoch from rfl, lt_irrefl, decide_false, Bool.and_false,
      Bool.false_and]
  · have hw : (x.setW g x.epoch).w k = x.w k := Table.get_put_other _ _ _ hk
    have hn : (x.setW g x.epoch).needs k = x.needs k := by
      simp only [Volume.needs, hw]
      rfl
    rw [hn, h]

theorem setVolume_setVolume (d : Device) (v : Nat) (x y : Volume) :
    (d.setVolume v x).setVolume v y = d.setVolume v y := by
  simp only [Device.setVolume, Table.insert_insert]

theorem setCurrent_setVolume (d : Device) (v g : Nat) (x : Volume) :
    (d.setVolume v x).setCurrent v g = d.setVolume v (x.setW g x.epoch) := by
  unfold Device.setCurrent Device.onVolume
  rw [volume_setVolume]
  exact setVolume_setVolume d v x _

/-- R79: a touched grain that needs no preservation and has no entry is set to the current epoch. -/
theorem walk_step {d : Device} {w : WriteId} {j : Job} {c v g : Nat} {gs : List Nat} {x : Volume}
    (hj : d.job? w = some j) (hc : j.charge = some c) (hv : j.volume = v) (hx : x.needs g = false)
    (he : d.entry? v g = none) : perform (.walk w (g :: gs)) (d.setVolume v x) =
      (d.setVolume v (x.setW g x.epoch), [.walk w gs]) := by
  subst hv
  have hj' : (d.setVolume j.volume x).job? w = some j := by
    rw [← hj]
    cases w <;> rfl
  have he' : (d.setVolume j.volume x).entry? j.volume g = none := he
  have hn : (d.setVolume j.volume x).needs j.volume g = false := by rw [Device.needs, volume_setVolume]; exact hx
  show walkGrains w (g :: gs) _ = _
  unfold walkGrains
  simp only [hj', hc, he', hn, setCurrent_setVolume]
  rfl

theorem walk_runs {d d' : Device} {w : WriteId} {j : Job} {c v b : Nat} (gs : List Nat) (x : Volume)
    (hj : d.job? w = some j) (hc : j.charge = some c) (hv : j.volume = v)
    (hx : ∀ k ∈ gs, x.needs k = false ∧ d.entry? v k = none)
    (h : Runs b [.handOn w] (d.setVolume v (x.walked gs)) d') : Runs (b + 1 + gs.length) [.walk w gs] (d.setVolume v x) d' := by
  induction gs generalizing x with
  | nil =>
    refine Runs.task ?_ h
    have hj' : (d.setVolume v x).job? w = some j := by
      rw [← hj]
      cases w <;> rfl
    show walkGrains w [] _ = _
    unfold walkGrains
    simp only [hj', hc]
    rfl
  | cons g gs ih =>
    obtain ⟨hg, he⟩ := hx g List.mem_cons_self
    have hrest : ∀ k ∈ gs, (x.setW g x.epoch).needs k = false ∧ d.entry? v k = none := fun k hk =>
      have := hx k (List.mem_cons_of_mem _ hk)
      ⟨needs_setW this.1, this.2⟩
    exact Runs.task (walk_step hj hc hv hg he) (ih (x.setW g x.epoch) hrest h)

/-! #### Admission, stamp and hand-over -/

/-- R66: the record of an admitted WRITE: charged, stamped with the volume's epoch, waiting on no entry. -/
def admittedRecord (h : Header) (payload : List Byte) (stage : Stage) (c e : Nat) : Txn :=
  { kind := .write, owed := true, command := none
    job := { h.job payload stage with charge := some c, epoch := some e } }

section
variable {D : Device} {p : PortId} {h : Header} {payload : List Byte} {x : Volume} {c : Nat}

theorem stampWrite_server (hv : D.volume? h.volume = some x) (j : Job) (hj : j.volume = h.volume) :
    (D.setTxn p h.tag (writeRecord h payload)).stampWrite (.server p h.tag) j c =
      (D.setTxn p h.tag (admittedRecord h payload .admitting c x.epoch)).setVolume h.volume
        { x with inFlight := x.inFlight + 1 } := by
  have hv' : (D.setTxn p h.tag (writeRecord h payload)).volume? j.volume = some x := hj ▸ hv
  unfold Device.stampWrite
  simp only [hv', onJob_server (txn_setTxn D p h.tag (writeRecord h payload)), setTxn_setTxn]
  unfold Device.onVolume
  rw [hj]
  have hv2 (t : Txn) : (D.setTxn p h.tag t).volume? h.volume = some x := hv
  rw [hv2]
  rfl

/-- R78: with no touched grain in need of preservation a WRITE needs no new entry. -/
theorem newEntries_nil {d : Device} {j : Job} (hn : ∀ k ∈ j.touched, d.needs j.volume k = false) : d.newEntries j = [] :=
  List.filter_eq_nil_iff.2 fun k hk => by simp [hn k hk]

/-- R8, R66: an admitted WRITE that waits on no entry joins the pool request queue. -/
theorem handOn_server {c e : Nat} {d : Device} {y : Volume} (hl : d.pool.link = .up)
    (ht : d.txn? p h.tag = some (admittedRecord h payload .admitting c e)) (hv : d.volume? h.volume = some y) :
    perform (.handOn (.server p h.tag)) d =
      ((d.setTxn p h.tag (admittedRecord h payload .queued c e)).joinPool
        { requester := .server p h.tag, op := .write (y.base + h.first) h.blocks payload }, []) := by
  have hj := job_server ht rfl
  show handOnWrite (.server p h.tag) d = _
  unfold handOnWrite
  rw [hj]
  dsimp only
  rw [if_pos ⟨by simp [admittedRecord], rfl, rfl⟩, if_neg (by simp [hl]), onJob_server ht]
  have hop : (d.setTxn p h.tag (admittedRecord h payload .queued c e)).jobOp (admittedRecord h payload .admitting c e).job false
      = .write (y.base + h.first) h.blocks payload := by
    have hv' : (d.setTxn p h.tag (admittedRecord h payload .queued c e)).volume?
        (admittedRecord h payload .admitting c e).job.volume = some y := hv
    simp only [Device.jobOp, hv']
    rfl
  exact congrArg (fun op => (Device.joinPool _ { requester := .server p h.tag, op := op }, [])) hop

/-- R8, R66, R68, R79: a WRITE that admission lets through, none of its touched grains in need of preservation or with an
entry. -/
theorem settle_admission_admitted {d : Device} (hfr : D.txns = d.txns ∧ D.volumes = d.volumes ∧ D.pres = d.pres ∧ D.pool = d.pool)
    (hadm : (d.setTxn p h.tag (writeRecord h payload)).admission h.account (h.job payload .admitting).chargeOf
      = (D.setTxn p h.tag (writeRecord h payload), none))
    (hv : d.volume? h.volume = some x) (hl : d.pool.link = .up) (hb : h.blocks ≤ 256) (ht : d.pres.table.length ≤ 256)
    (hg : ∀ k ∈ (h.job payload .admitting).touched, x.needs k = false ∧ d.entry? h.volume k = none) :
    settle (d.setTxn p h.tag (writeRecord h payload), [.admission (.server p h.tag)]) =
      Device.joinPool { D with
          volumes := d.volumes.insert h.volume
            ({ x with inFlight := x.inFlight + 1 }.walked (h.job payload .admitting).touched)
          txns := d.txns.insert (txnKey p h.tag)
            (admittedRecord h payload .queued (h.job payload .admitting).chargeOf x.epoch) }
        { requester := .server p h.tag, op := .write (x.base + h.first) h.blocks payload } := by
  obtain ⟨htx, hvo, hpr, hpo⟩ := hfr
  generalize hj : h.job payload .admitting = j at hadm hg ⊢
  let up : Volume := { x with inFlight := x.inFlight + 1 }
  let stamped : Device := D.setTxn p h.tag (admittedRecord h payload .admitting j.chargeOf x.epoch)
  have hvD : D.volume? h.volume = some x := by rw [Device.volume?, hvo]; exact hv
  have hadmit : perform (.admission (.server p h.tag)) (d.setTxn p h.tag (writeRecord h payload)) =
      (stamped.setVolume h.volume up, [.walk (.server p h.tag) j.touched]) := by
    have hjob : (d.setTxn p h.tag (writeRecord h payload)).job? (.server p h.tag) = some j :=
      hj ▸ job_server (txn_setTxn d p h.tag _) rfl
    have hacc : j.account = h.account := hj ▸ rfl
    have hvol : j.volume = h.volume := hj ▸ rfl
    show admitWrite (.server p h.tag) _ = _
    unfold admitWrite
    simp only [hjob, hacc, hadm]
    rw [stampWrite_server hvD j hvol, newEntries_nil, if_neg]
    · show ¬ 0 + D.pres.table.length > 256
      rw [hpr]
      omega
    · intro k hk
      rw [hvol, Device.needs, volume_setVolume]
      exact (hg k hk).1
  have hhand : Runs 1 [.handOn (.server p h.tag)] (stamped.setVolume h.volume (up.walked j.touched)) _ :=
    Runs.one (handOn_server (y := up.walked j.touched) (c := j.chargeOf) (e := x.epoch) (by show D.pool.link = .up; rw [hpo]; exact hl)
      (txn_setTxn D p h.tag _) (volume_setVolume _ _ _))
  have hent (k : Nat) : stamped.entry? h.volume k = d.entry? h.volume k := by
    show Table.find D.pres.table _ = _
    rw [hpr]
    rfl
  have hwalk := walk_runs (d := stamped) (w := .server p h.tag) (c := j.chargeOf) j.touched up
    (job_server (txn_setTxn D p h.tag _) rfl) rfl (hj ▸ rfl) (fun k hk => ⟨(hg k hk).1, (hent k).trans (hg k hk).2⟩) hhand
  have hlen : j.touched.length ≤ 33 := by
    rw [← hj]
    simp only [Job.touched, List.length_map, List.length_range, touchedCount, Header.job]
    omega
  rw [(Runs.task hadmit hwalk).settle (by omega)]
  simp only [stamped, Device.setVolume, Device.setTxn, Table.insert_insert, htx, hvo]
  rfl

end

/-- A WRITE that is not MALFORMED has at most 256 blocks (R3). -/
theorem blocks_le_of_badWrite {h : Header} {payload : List Byte} (hb : h.badWrite payload = false) : h.blocks ≤ 256 := by
  simp only [Header.badWrite, Header.badBlocks, Bool.or_eq_false_iff, decide_eq_false_iff_not] at hb
  omega

/-- Settles O20: admission by the state of the account (`enterGrace_charged`), then the walk to the pool queue. -/
theorem writeAdmitted : Obligations.WriteAdmitted := by
  intro s p h payload x hl hu hb ht hf hpool hv hs hr hc count touched c a g n hgrains hlim htable Admits enters charged soft
  have hexec := exec_write_accepted (payload := payload) hl hu (dataRefusal_none_of hb ht hf hpool hv hs hr)
  rw [acceptWrite_admission hv hc] at hexec
  have admits {D : Device} (hfr : D.txns = s.dev.txns ∧ D.volumes = s.dev.volumes ∧ D.pres = s.dev.pres ∧ D.pool = s.dev.pool)
      (hadm : (s.dev.setTxn p h.tag (writeRecord h payload)).admission n c = (D.setTxn p h.tag (writeRecord h payload), none)) :
      Admits D := by
    refine hexec.trans ?_
    rw [settle_admission_admitted hfr hadm hv hpool (blocks_le_of_badWrite hb) htable hgrains]
    rfl
  have charges (hpos : 0 < c) : (s.dev.setTxn p h.tag (writeRecord h payload)).admission n c
      = ((s.dev.charge n c).setTxn p h.tag (writeRecord h payload), none) := by
    obtain ⟨hlimit, hgroup⟩ := hlim.resolve_left (by omega)
    rw [← charge_setTxn]
    exact admission_passes (d := s.dev.setTxn p h.tag (writeRecord h payload)) hpos hlimit hgroup
  have admitsCharge (hpos : 0 < c) : Admits (s.dev.charge n c) := admits charge_frame (charges hpos)
  have grace (he : enters) : s.dev.charge n c = (s.dev.charged n c a).enterGrace n := charge_enters he.2
  refine ⟨fun h0 => admits ⟨rfl, rfl, rfl, rfl⟩ (admission_free h0), fun hpos hne => ?_, fun he hgr => ?_, fun he hgr hvalid => ?_,
    fun he hgr hvalid => ?_⟩
  · have := admitsCharge hpos
    rwa [charge_plain fun he => hne ⟨hpos, he⟩] at this
  · have := admitsCharge he.1
    rwa [grace he, enterGrace_charged he.1, if_pos hgr] at this
  · intro d
    have := admitsCharge he.1
    rw [grace he, enterGrace_charged he.1, if_neg (Nat.ne_of_gt hgr), if_pos hvalid] at this
    exact ⟨_, joinedGrace_insertBefore d n s.dev.clock.graceList, this⟩
  · intro d
    have := admitsCharge he.1
    rw [grace he, enterGrace_charged he.1, if_neg (Nat.ne_of_gt hgr), if_neg (by simp [hvalid])] at this
    obtain ⟨before, after, hsplit, hb, ha, hins⟩ := joinedUndated_insertBefore n s.dev.clock.undated
    refine ⟨before, after, hsplit, hb, ha, ?_⟩
    rw [← hins]
    exact this

end Sys2Proof.Machine
end

section
/-! ### The end of an admitted write, and the loss of the pool link (O38, O39) -/

namespace Sys2Proof.Machine

/-! #### The end of an admitted write -/

/-- The end of an admitted write touches accounts, groups and the clock's lists alone (R28, R29). -/
theorem settleCharge_frame (d : Device) (n c : Nat) (ok : Bool) :
    let e := d.settleCharge n c ok
    e = { d with accounts := e.accounts, groups := e.groups, clock := e.clock } := by
  by_cases hc : 0 < c
  · exact (settleCharge_spec d hc ok).1
  · have : d.settleCharge n c ok = d := if_pos (by omega)
    intro e
    rw [show e = d from this]

/-- The checks of a write's end read nothing that a notice changes. -/
theorem settleCharge_noted (d : Device) (n c : Nat) (ok : Bool) (k : NoticeKind) (x : Subject) (v : NoticeValue) :
    (d.noted k x v).settleCharge n c ok = (d.settleCharge n c ok).noted k x v := by
  have hre (e : Device) : (e.noted k x v).recheckState n = (e.recheckState n).noted k x v := by
    unfold Device.recheckState
    rw [show (e.noted k x v).account n = e.account n from rfl]
    dsimp only
    split <;> rfl
  have hq (e : Device) : (e.noted k x v).quotaChecks n = (e.quotaChecks n).noted k x v := by
    unfold Device.quotaChecks
    rw [hre]
    rfl
  unfold Device.settleCharge
  split
  · rfl
  · rw [← hq]
    cases ok <;> rfl

section
variable {d : Device} {p : PortId} {g c : Nat} {y : Txn} {z : Volume}

/-- R66: the count of a defined volume's writes in flight falls. -/
theorem lowerInFlight_eq {v : Nat} (hv : d.volume? v = some z) :
    d.lowerInFlight v = d.setVolume v { z with inFlight := z.inFlight - 1 } := by
  simp only [Device.lowerInFlight, Device.onVolume, hv]

/-- The part after the end of an admitted server WRITE that waits on no entry (R9, R28, R29, R66). -/
def Device.writeEnded (d : Device) (p : PortId) (g : Nat) (y : Txn) (c : Nat) (z : Volume) (st : Status) : Device :=
  Device.ended { d.settleCharge y.job.account c (decide (st = .ok)) with
    volumes := d.volumes.insert y.job.volume { z with inFlight := z.inFlight - 1 } } p g y st (if st = .ok then c else 0) []

/-- R9, R28, R29, R66: the pool's outcome for a WRITE ends it; here its volume is neither CUTTING nor REMOVING. -/
theorem runs_poolEnd_write (ht : d.txn? p g = some y) (hk : y.kind = .write) (hc : y.job.charge = some c)
    (hw : y.job.waits = []) (hv : d.volume? y.job.volume = some z) (hcut : z.cut = none) (hs : z.state ≠ .removing)
    (st : Status) (data : List Byte) : Runs 3 [.poolEnd (.server p g) st data] d (d.writeEnded p g y c z st) := by
  have hout : perform (.poolEnd (.server p g) st data) d = (d, [.writeEnd (.server p g) st]) := by
    show poolOutcome (.server p g) st data d = _
    simp only [poolOutcome, ht, hk]
  have hend : perform (.writeEnd (.server p g) st) d = (d.writeEnded p g y c z st, [.volumeCheck y.job.volume]) := by
    have hleave : d.leaveWaits (.server p g) y.job = d := by rw [Device.leaveWaits, hw]; rfl
    have hframe := settleCharge_frame d y.job.account c (decide (st = .ok))
    have hvol : (d.settleCharge y.job.account c (decide (st = .ok))).volume? y.job.volume = some z := by
      rw [hframe]
      exact hv
    have htxn : (d.settleCharge y.job.account c (decide (st = .ok))).txn? p g = some y := by
      rw [hframe]
      exact ht
    show endWrite (.server p g) st d = _
    unfold endWrite
    simp only [job_server ht hk, hc, hleave, hw, lowerInFlight_eq hvol]
    refine Prod.ext ((endTxn_eq ((d.settleCharge y.job.account c (decide (st = .ok))).setVolume y.job.volume
      { z with inFlight := z.inFlight - 1 }) (t := y) htxn _ _ _).trans ?_) rfl
    have hvols : (d.settleCharge y.job.account c (decide (st = .ok))).volumes = d.volumes := by rw [hframe]
    rw [Device.writeEnded, ← hvols]
    rfl
  have hcheck : perform (.volumeCheck y.job.volume) (d.writeEnded p g y c z st) = (d.writeEnded p g y c z st, []) :=
    volumeCheck_quiet (x := { z with inFlight := z.inFlight - 1 }) (Table.find_insert_same _ _ _) hcut hs
  exact Runs.task hout (Runs.task hend (Runs.one hcheck))

end

/-- Accounts, groups and clock are all that `Device.Settled` looks at. -/
theorem Device.Settled.congr {d d' e e' : Device} {n c u : Nat} (h : d.Settled e n c u) (ha : d'.accounts = d.accounts)
    (hg : d'.groups = d.groups) (hc : d'.clock = d.clock) (ha' : e'.accounts = e.accounts) (hg' : e'.groups = e.groups)
    (hc' : e'.clock = e.clock) : d'.Settled e' n c u := by
  have hacc (b : Nat) : d'.account b = d.account b := by rw [Device.account, ha]; rfl
  have hacc' (b : Nat) : e'.account b = e.account b := by rw [Device.account, ha']; rfl
  have hgrp (b : Nat) : d'.group b = d.group b := by rw [Device.group, hg]; rfl
  have hgrp' (b : Nat) : e'.group b = e.group b := by rw [Device.group, hg']; rfl
  refine ⟨?_, ?_, fun b hb => ?_, fun b hb => ?_, ?_⟩
  · rw [hacc, hacc', h.account]
  · rw [hacc, hgrp, hgrp', h.group]
  · rw [hacc, hacc', h.accounts b hb]
  · rw [hgrp, hgrp', h.groups b (hacc n ▸ hb)]
  · rw [hacc, hc, hc', h.clock]

/-- Settles O38: the freed tag makes no grant, and the outcome ends the WRITE (`runs_poolEnd_write`). -/
theorem writeEndSettlesCharge : Obligations.WriteEndSettlesCharge := by
  intro s k p g m c y z st data hl hb ht hk hc hpos hw hv hcut hs h1 h2 h3 a u
  let d : Device := s.dev.setTag k .free
  have hruns := runs_poolEnd_write (d := d) (c := c) ht hk hc hw hv hcut hs (doneStatus st) data
  have hexec : exec (.poolDone k st data) s = .next { s with dev := d.writeEnded p g y c z (doneStatus st) } := by
    simp only [exec, execPoolDone, event_high _ hl]
    rw [donePool_busy hb (grantOne_idle _ h1 h2 h3) st data, hruns.settle (by omega)]
  have hok : decide (doneStatus st = .ok) = decide (st = .ok) := by cases st <;> rfl
  obtain ⟨hframe, hsettled⟩ := settleCharge_spec d hpos (decide (doneStatus st = .ok)) (n := y.job.account)
  refine ⟨_, hexec, ?_, ?_⟩
  · have hst : doneStatus st = if st = .ok then .ok else .mediaError := by cases st <;> rfl
    have hcount : (if doneStatus st = .ok then c else 0) = if st = .ok then c else 0 := by cases st <;> rfl
    rw [Device.writeEnded, hcount, hframe, ← hst]
    rfl
  · have hu : u = if decide (doneStatus st = .ok) = true then min ((d.account y.job.account).usage + c) Config.accountMax
        else (d.account y.job.account).usage := by
      rw [hok]
      simp only [decide_eq_true_eq]
      rfl
    rw [hu]
    exact hsettled.congr rfl rfl rfl rfl rfl rfl

/-! #### The loss of the pool link -/

/-- R69, R71: a volume that holds one slot less, with the re-arm check. -/
def Volume.slotBack (x : Volume) : Volume := { x with
  slotsHeld := x.slotsHeld - 1
  reserveArmed := x.reserveArmed || decide (x.slotsHeld - 1 ≤ x.reserve - x.reserve / 4) }

/-- R86: a slot goes back to the tail of the free queue, and its volume holds one less. -/
theorem returnSlot_eq {d : Device} {v : Nat} {x : Volume} (hv : d.volume? v = some x) (slot : Nat) :
    d.returnSlot v slot = { d with
      pres.free := d.pres.free ++ [slot], volumes := d.volumes.insert v x.slotBack } := by
  have hv' : ({ d with pres.free := d.pres.free ++ [slot] } : Device).volume? v = some x := hv
  unfold Device.returnSlot Device.reserveRearm Device.onVolume
  simp only [hv', volume_setVolume, setVolume_setVolume]
  unfold Device.setVolume Volume.slotBack
  cases ha : x.reserveArmed
  · by_cases hle : x.slotsHeld - 1 ≤ x.reserve - x.reserve / 4
    · simp [hle]
    · simp [hle]
  · simp

section
variable {d : Device}

/-- R86: a preservation fails; here its grain has no reader, no waiter and no copy read waits for its place. -/
theorem runs_poolEnd_preserve {v g slot : Nat} {e : Pending} {x : Volume} (he : d.entry? v g = some e) (hr : e.readers = 0)
    (hw : e.waiters = []) (hp : (∃ b q, e.phase = .preserving b q slot) ∨ ∃ b q data, e.phase = .storing b q slot data)
    (hv : d.volume? v = some x) (hs : x.state ≠ .removing) (hsw : x.slotWait = []) (hrw : d.pres.readerWait = []) :
    Runs 7 [.poolEnd (.preserve v g) .poolDown []] d { d with
      volumes := d.volumes.insert v x.slotBack
      pres.free := d.pres.free ++ [slot]
      pres.table := d.pres.table.erase (pendKey v g) } := by
  have hout : perform (.poolEnd (.preserve v g) .poolDown []) d = (d, [.preservationFailed v g]) := by
    show poolOutcome (.preserve v g) .poolDown [] d = _
    rcases hp with ⟨b, q, hp⟩ | ⟨b, q, data, hp⟩ <;> simp only [poolOutcome, he, hp] <;> rfl
  let back : Device := d.returnSlot v slot
  have hback : back = _ := returnSlot_eq hv slot
  have hbe : back.entry? v g = some e := by rw [hback]; exact he
  let failed : Device := { back with
    pres.table := back.pres.table.insert (pendKey v g) { e with phase := .reading, waiters := [] } }
  have hfail : perform (.preservationFailed v g) d = (failed, [.serveSlots v, .dropEntry v g]) := by
    have hon : back.onEntry v g (fun e => { e with phase := .reading, waiters := [] }) = failed := by
      simp only [Device.onEntry, hbe, failed]
    show preservationFailed v g d = _
    rcases hp with ⟨b, q, hp⟩ | ⟨b, q, data, hp⟩
    all_goals
      simp only [preservationFailed, he, hp, hw]
      rw [← hon]
      rfl
  have hfv : failed.volume? v = some x.slotBack := by
    show back.volume? v = _
    rw [hback]
    exact Table.find_insert_same _ _ _
  have hserve : perform (.serveSlots v) failed = (failed, []) := serveSlots_quiet hfv hsw
  have hdrop : Runs 4 [.dropEntry v g] failed (failed.removeEntry v g) :=
    dropEntry_runs (e := { e with phase := .reading, waiters := [] }) (Table.find_insert_same _ _ _) rfl hr rfl
      (by show back.pres.readerWait = []; rw [hback]; exact hrw) hfv hs
  have hgone : failed.removeEntry v g = { back with pres.table := back.pres.table.erase (pendKey v g) } := by
    simp only [Device.removeEntry, failed, Table.erase_insert]
  rw [hgone, hback] at hdrop
  exact Runs.task hout (Runs.task hfail ((Runs.one hserve).cons hdrop))

/-- R124: a restore read fails; here other copies of its restore are in flight and nothing else asks for a slot. -/
theorem runs_poolEnd_slot {j : SlotId} {z : CopySlot} {n v id i : Nat} {r : Restore} {before after : List Restore}
    (hz : d.slot? j = some z) (hp : z.phase = .reading) (hi : z.image = .slot n v) (hst : z.stream = .restore id)
    (hrs : d.copy.restores = before ++ r :: after) (hid : r.id = id)
    (ho : ∀ q ∈ before ++ after, q.id ≠ id ∧ q.state ≠ .running) (hca : r.cancel = false)
    (hcur : r.current = some i) (hout : r.outcomes[i]? = some .running) (hfl : r.inFlight ≥ 2) (hpass : d.dup.pass = none) :
    Runs 5 [.poolEnd (.slot j) .poolDown []] d { d with
      copy.slots := d.copy.slots.set j.val none j.isLt
      copy.restores := before ++
        { r with inFlight := r.inFlight - 1, outcomes := r.outcomes.set i (.failed .poolDown) } :: after } := by
  let r' : Restore := { r with inFlight := r.inFlight - 1, outcomes := r.outcomes.set i (.failed .poolDown) }
  let d' : Device := { d with
    copy.slots := d.copy.slots.set j.val none j.isLt, copy.restores := before ++ r' :: after }
  have hpool : perform (.poolEnd (.slot j) .poolDown []) d = (d, [.readEnd j .poolDown []]) := by
    show poolOutcome (.slot j) .poolDown [] d = _
    simp only [poolOutcome, hz, hp]
  have hread : perform (.readEnd j .poolDown []) d = (d, [.readOutcome j .poolDown []]) := by
    show endRead j .poolDown [] d = _
    simp only [endRead, hz, hi]
  have hr' : r.copyEnded .poolDown = r' := by
    have hco : r.currentOutcome = some .running := by simp [Restore.currentOutcome, hcur, hout]
    simp [Restore.copyEnded, hco, hca, hcur, r']
  have hmap (l : List Restore) (hl : ∀ q ∈ l, q.id ≠ id) :
      l.map (fun x => if x.id = id then x.copyEnded .poolDown else x) = l :=
    (List.map_congr_left fun q hq => if_neg (hl q hq)).trans (List.map_id' l)
  have hback : perform (.readOutcome j .poolDown []) d = (d', [.extentCheck id, .grant]) := by
    have hon : (d.setSlot j none).onRestore id (fun x => x.copyEnded .poolDown) = d' := by
      have hall : d.copy.restores.map (fun x => if x.id = id then x.copyEnded .poolDown else x) = before ++ r' :: after := by
        rw [hrs, List.map_append, List.map_cons, if_pos hid, hr',
          hmap before fun q hq => (ho q (List.mem_append_left _ hq)).1,
          hmap after fun q hq => (ho q (List.mem_append_right _ hq)).1]
      exact congrArg (fun l => ({ d.setSlot j none with copy.restores := l } : Device)) hall
    show readOutcome j .poolDown [] d = _
    simp only [readOutcome, hz, hst, Device.finishCopy, hon]
    rfl
  have hfind : d'.restore? id = some r' := by
    show (before ++ r' :: after).find? (fun x => x.id = id) = some r'
    rw [List.find?_append, List.find?_eq_none.2 fun q hq => by simp [(ho q (List.mem_append_left _ hq)).1]]
    simp [r', hid]
  have hextent : perform (.extentCheck id) d' = (d', []) := by
    have hover : r'.extentOver = false := by
      have : r'.inFlight ≠ 0 := by show r.inFlight - 1 ≠ 0; omega
      simp [Restore.extentOver, this]
    show extentCheck id d' = _
    simp only [extentCheck, hfind, show r'.current = some i from hcur, hover]
    rfl
  have hgrant : perform .grant d' = (d', []) := by
    refine grant_none (fun q hq => ?_) (passEligible_none hpass)
    rcases List.mem_append.1 (show q ∈ before ++ r' :: after from hq) with hq | hq
    · exact Restore.not_eligible (ho q (List.mem_append_left _ hq)).2
    · rcases List.mem_cons.1 hq with rfl | hq
      · have : r'.currentOutcome ≠ some .running := by
          have hlt : i < r.outcomes.length := (List.getElem?_eq_some_iff.1 hout).1
          simp [Restore.currentOutcome, r', hcur, hlt]
        simp [Restore.eligible, this]
      · exact Restore.not_eligible (ho q (List.mem_append_right _ hq)).2
  exact Runs.task hpool (Runs.task hread (Runs.task hback ((Runs.one hextent).cons (Runs.one hgrant))))

theorem runs_poolEnd_read {p : PortId} {g : Nat} {y : Txn} (ht : d.txn? p g = some y) (hy : y.kind = .read) :
    Runs 1 [.poolEnd (.server p g) .poolDown []] d (d.ended p g y .poolDown 0 []) :=
  Runs.one (perform_poolEnd_read ht hy .poolDown [])

/-- R14: the loss of the link hands over its notice. -/
theorem runs_notePoolDown (n : Nat) (d : Device) :
    Runs 1 [.notePoolDown n] d (d.noted .poolDown .absent (.number n)) :=
  Runs.one (congrArg (·, []) (notify_eq _ _ _ _))

end

/-- R180, entry 10: two consequences that come to one state in either order, do so in every open order. -/
theorem settle_either {d e f g : Device} {b c : Nat} {t u : Task} {order : List Task} (ho : order.Perm [t, u])
    (h1 : Runs b [t] d e) (h2 : Runs c [u] e g) (h3 : Runs c [u] d f) (h4 : Runs b [t] f g) (hbc : b + c ≤ 4294967296) :
    settle (d, order) = g := by
  have : order = [t, u] ∨ order = [u, t] := by
    obtain ⟨a, as, rfl⟩ := List.exists_cons_of_length_eq_add_one ho.length_eq
    obtain ⟨b, rfl⟩ := List.length_eq_one_iff.1 (Nat.succ_injective ho.length_eq)
    have hab := ho.mem_iff (a := a)
    by_cases hat : a = t
    · subst hat
      left
      have := (List.perm_cons a).1 ho
      rw [List.singleton_perm_singleton.1 this]
    · have hau : a = u := by simpa [hat] using hab
      subst hau
      right
      have := (List.perm_cons a).1 (ho.trans (List.Perm.swap a t []))
      rw [List.singleton_perm_singleton.1 this]
  rcases this with rfl | rfl
  · exact (h1.cons h2).settle hbc
  · exact (h3.cons h4).settle (by omega)

/-- The part once its pool link is lost, n ends still to come (R14). -/
def Device.poolLost (d : Device) (n : Nat) : Device :=
  { ({ d with pool.link := .down } : Device).quarantineBusy.withdrawAll with freeIndex := d.freeIndex + n }

theorem losePool_eq (d : Device) : d.losePool = (d.poolLost d.pool.openWork.length,
    openOrder d.pool.openWork.length d.freeIndex
      (.notePoolDown d.pool.openWork.length :: d.pool.openWork.map fun r => .poolEnd r .poolDown [])) := rfl

/-- Settles O39: the ends come in some order (`openOrder_perm`); where there is one, it and the notice come to one state in
either order (`settle_either`). -/
theorem poolLinkLost : Obligations.PoolLinkLost := by
  intro s hl busy waiting work lost told To
  have hwork : s.dev.pool.openWork = work := by
    show List.map _ (List.filterMap _ _) ++ _ = List.filterMap _ _ ++ _
    rw [List.map_filterMap]
    congr 1
    refine List.filterMap_congr fun t _ => ?_
    cases s.dev.pool.tags[t] <;> rfl
  have hlost : s.dev.poolLost work.length = lost := by
    have htags : (s.dev.poolLost work.length).pool.tags = lost.pool.tags := by
      refine Vector.map_congr_left fun t _ => ?_
      cases t <;> rfl
    exact congrArg (fun ts => ({ lost with pool.tags := ts } : Device)) htags
  refine ⟨fun hd => ?_, fun hup => ?_⟩
  · simp only [exec, execPoolLinkDown, event_high _ hl, hd]
    rfl
  let order : List Task := openOrder work.length s.dev.freeIndex
    (.notePoolDown work.length :: work.map fun r => .poolEnd r .poolDown [])
  have hperm : order.Perm (.notePoolDown work.length :: work.map fun r => .poolEnd r .poolDown []) := openOrder_perm _ _ _
  have hexec : To (settle (lost, order)) := by
    show exec .poolLinkDown s = _
    simp only [exec, execPoolLinkDown, event_high _ hl, hup, if_true]
    rw [losePool_eq, hwork, hlost]
  have alone {r : Requester} {e f : Device} {c : Nat} (hw : work = [r]) (hc : c ≤ 7)
      (h1 : Runs c [.poolEnd r .poolDown []] told e) (h2 : Runs c [.poolEnd r .poolDown []] lost f)
      (hf : e = f.noted .poolDown .absent (.number work.length)) : To e := by
    have hp : order.Perm [.notePoolDown work.length, .poolEnd r .poolDown []] := by
      rw [hw] at hperm ⊢
      exact hperm
    have := settle_either hp (runs_notePoolDown _ lost) h1 h2 (hf ▸ runs_notePoolDown _ f) (by omega)
    exact this ▸ hexec
  refine ⟨⟨order, hperm, hexec⟩, fun hw => ?_, fun p g y hw ht hy => ?_, fun p g y c z hw ht hy hc hwt hv hcut hs => ?_,
    fun v g e x b q slot hw he hr hwt hp hv hs hsw hrw => ?_,
    fun j z n v id r before after i hw hz hp hi hst hrs hid ho _ hca hcur hout hfl hpass => ?_⟩
  · have : order = [.notePoolDown work.length] := List.perm_singleton.1 (by rw [hw] at hperm ⊢; exact hperm)
    rw [this] at hexec
    rw [(runs_notePoolDown _ lost).settle (by omega)] at hexec
    exact hexec
  · exact alone hw (by omega) (runs_poolEnd_read (d := told) ht hy) (runs_poolEnd_read (d := lost) ht hy) rfl
  · have h1 := runs_poolEnd_write (d := told) ht hy hc hwt hv hcut hs .poolDown []
    have h2 := runs_poolEnd_write (d := lost) ht hy hc hwt hv hcut hs .poolDown []
    have hnoted : told.settleCharge y.job.account c false
        = (lost.settleCharge y.job.account c false).noted .poolDown .absent (.number work.length) := settleCharge_noted _ _ _ _ _ _ _
    refine ⟨told.settleCharge y.job.account c false, settleCharge_frame told y.job.account c false, fun h0 => if_pos h0, fun hpos => ?_,
      alone hw (by omega) h1 h2 ?_⟩
    · exact (settleCharge_spec told hpos false).2.congr rfl rfl rfl rfl rfl rfl
    · unfold Device.writeEnded
      rw [show decide (Status.poolDown = .ok) = false from rfl, hnoted]
      rfl
  · intro m
    have hp' : (∃ b q, e.phase = .preserving b q slot) ∨ ∃ b q data, e.phase = .storing b q slot data :=
      hp.imp (fun h => ⟨b, q, h⟩) fun ⟨data, h⟩ => ⟨b, q, data, h⟩
    exact alone hw (by omega) (runs_poolEnd_preserve (d := told) he hr hwt hp' hv hs hsw hrw)
      (runs_poolEnd_preserve (d := lost) he hr hwt hp' hv hs hsw hrw) rfl
  · exact alone hw (by omega)
      (runs_poolEnd_slot (d := told) hz hp hi hst hrs hid ho hca hcur hout hfl hpass)
      (runs_poolEnd_slot (d := lost) hz hp hi hst hrs hid ho hca hcur hout hfl hpass) rfl

end Sys2Proof.Machine
end

section
/-! ### What each stage of a PATH RESET comes to (R16, R95, R114, R133, R160, R177) -/

namespace Sys2Proof.Machine

/-! #### Tables -/

section
variable {α : Type}

theorem find_of_mem {t : Table α} (h : t.Sorted) {k : Nat} {v : α} (hm : (k, v) ∈ t) : t.find k = some v := by
  induction t with
  | nil => cases hm
  | cons e t ih =>
    obtain ⟨a, b⟩ := e
    obtain ⟨hlt, ht⟩ := List.pairwise_cons.1 h
    rcases List.mem_cons.1 hm with hm | hm
    · cases hm
      exact if_pos rfl
    · exact (if_neg (Nat.ne_of_lt (hlt _ hm))).trans (ih ht hm)

/-- The keys of a table in order are all different. -/
theorem nodup_keys {t : Table α} (h : t.Sorted) : (t.map Prod.fst).Nodup :=
  List.pairwise_map.2 (h.imp Nat.ne_of_lt)

theorem find_map (f : α → α) (t : Table α) (k : Nat) : Table.find (t.map fun e => (e.1, f e.2)) k = (t.find k).map f := by
  induction t with
  | nil => rfl
  | cons e t ih =>
    obtain ⟨a, b⟩ := e
    simp only [List.map_cons, Table.find]
    split
    · rfl
    · exact ih

theorem map_insert (f : α → α) (t : Table α) (k : Nat) (v : α) :
    (t.insert k v).map (fun e => (e.1, f e.2)) = Table.insert (t.map fun e => (e.1, f e.2)) k (f v) := by
  induction t with
  | nil => rfl
  | cons e t ih =>
    obtain ⟨a, b⟩ := e
    simp only [Table.insert, List.map_cons]
    split
    · rfl
    · split
      · rfl
      · simp only [List.map_cons, ih]

theorem length_insert_le (t : Table α) (k : Nat) (v : α) : (t.insert k v).length ≤ t.length + 1 := by
  induction t with
  | nil => exact le_rfl
  | cons e t ih =>
    obtain ⟨a, b⟩ := e
    simp only [Table.insert]
    split
    · simp
    · split
      · simp
      · simpa using ih

/-- A record set, neither it nor the one it replaces being looked for. -/
theorem filter_insert (t : Table α) (k : Nat) (v : α) (P : α → Bool) (hv : P v = false)
    (ho : ∀ w, t.find k = some w → P w = false) : (t.insert k v).filter (fun e => P e.2) = t.filter fun e => P e.2 := by
  induction t with
  | nil => simp [Table.insert, hv]
  | cons e t ih =>
    obtain ⟨a, b⟩ := e
    simp only [Table.insert]
    split
    · simp [hv]
    · split
      · rename_i hak
        have hb : P b = false := ho b (if_pos hak)
        simp [hv, hb]
      · rename_i hak
        have := ih fun w hw => ho w ((if_neg hak).trans hw)
        simp [List.filter_cons, this]

end

/-! #### Keys of transactions -/

theorem keyPort_txnKey (p : PortId) {g : Nat} (h : g < 32) : keyPort (txnKey p g) = p := by
  apply Fin.ext
  show (p.val * 32 + g) / 32 % 4 = p.val
  have := p.isLt
  omega

theorem txnKey_mod (p : PortId) {g : Nat} (h : g < 32) : txnKey p g % 32 = g := by
  show (p.val * 32 + g) % 32 = g
  omega

/-! #### Open orders and notices -/

theorem openOrder_map {α β : Type} (f : α → β) (n i : Nat) (l : List α) :
    openOrder n i (l.map f) = (openOrder n i l).map f := by
  induction n generalizing i l with
  | zero => rfl
  | succ n ih =>
    simp only [openOrder, List.length_map, List.getElem?_map]
    cases l[Config.endTurn i % l.length]? with
    | none => rfl
    | some x => simp only [Option.map_some, List.map_cons, List.eraseIdx_map, ih]

/-- R177: with one list of notices alone, they are handed over in its order. -/
theorem interleave_one (l : List Notice) (i : Nat) (ls : List (List Notice))
    (h : ls.filter (fun l => l ≠ []) = [l].filter fun l => l ≠ []) : interleave l.length i ls = l := by
  induction l generalizing i ls with
  | nil => rfl
  | cons x rest ih =>
    have hf : [x :: rest].filter (fun l => decide (l ≠ [])) = [x :: rest] := by simp
    simp only [List.length_cons, interleave, h, hf, List.length_nil, Nat.zero_add, Nat.mod_one]
    exact congrArg (x :: ·) (ih _ _ rfl)

/-- R177: two lists of one notice each come in one order or the other. -/
theorem interleave_two (a b : Notice) (i : Nat) (ls : List (List Notice))
    (h : ls.filter (fun l => l ≠ []) = [[a], [b]]) : interleave 2 i ls = [a, b] ∨ interleave 2 i ls = [b, a] := by
  have hlt : Config.noticeTurn i % 2 < 2 := Nat.mod_lt _ (by omega)
  have hk : Config.noticeTurn i % 2 = 0 ∨ Config.noticeTurn i % 2 = 1 := by omega
  rcases hk with hk | hk
  · left
    simp only [interleave, h, List.length_cons, List.length_nil, hk]
    exact congrArg (a :: ·) (interleave_one [b] (i + 1) [[], [b]] (by simp))
  · right
    simp only [interleave, h, List.length_cons, List.length_nil, hk]
    exact congrArg (b :: ·) (interleave_one [a] (i + 1) [[a], []] (by simp))

theorem queueNotice_noticeOf (d : Device) {e : Device} (h : e.clock.stamp = d.clock.stamp) (k : NoticeKind) (x : Subject)
    (v : NoticeValue) : e.queueNotice (d.noticeOf k x v) = e.noted k x v := by
  rw [← notify_eq, Device.notify, ← h.symm]
  rfl

theorem handOverAll_of {d : Device} {ls : List (List Notice)} {l : List Notice}
    (h : interleave ls.flatten.length d.freeIndex ls = l) :
    d.handOverAll ls = { l.foldl Device.queueNotice d with
      freeIndex := (l.foldl Device.queueNotice d).freeIndex + ls.flatten.length } := by
  simp only [Device.handOverAll, h]

/-! #### Copy slots (R133) -/

/-- Each of these slots FREE. -/
def freeSlots (l : List SlotId) (v : Vector (Option CopySlot) 16) : Vector (Option CopySlot) 16 :=
  l.foldl (fun v k => v.set k.val none k.isLt) v

theorem freeSlots_get (l : List SlotId) (v : Vector (Option CopySlot) 16) (k : SlotId) :
    (freeSlots l v)[k] = if k ∈ l then none else v[k] := by
  induction l generalizing v with
  | nil => simp [freeSlots]
  | cons j l ih =>
    have hset : (v.set j.val none j.isLt)[k] = if k = j then none else v[k] := by
      by_cases h : j = k
      · subst h; simp
      · have hv : j.val ≠ k.val := fun e => h (Fin.ext e)
        simp [hv, Ne.symm h]
    have : freeSlots (j :: l) v = freeSlots l (v.set j.val none j.isLt) := rfl
    rw [this, ih, hset]
    by_cases hkl : k ∈ l <;> by_cases hkj : k = j <;> simp [hkl, hkj]

theorem freeSlots_all (v : Vector (Option CopySlot) 16) : freeSlots (List.finRange 16) v = Vector.replicate 16 none := by
  ext1 i hi
  have := freeSlots_get (List.finRange 16) v ⟨i, hi⟩
  simpa using this

/-- A write of a copy slot that holds no charge ends without more (R133). -/
def Device.Uncharged (d : Device) (k : SlotId) : Prop :=
  ∀ z j n, d.slot? k = some z → z.phase = .writing j n → j.charge = none

theorem abortSlot_uncharged {d : Device} {k : SlotId} (h : d.Uncharged k) : d.abortSlot k = d.setSlot k none := by
  unfold Device.abortSlot
  cases hz : d.slot? k with
  | none =>
    have hk : d.copy.slots[k] = none := hz
    have : d.copy.slots.set k.val none k.isLt = d.copy.slots := by
      rw [← hk]
      exact Vector.set_getElem_self _
    exact (congrArg (fun v => ({ d with copy.slots := v } : Device)) this).symm
  | some z =>
    dsimp only
    split
    · rename_i j n hp
      rw [Device.abortJob, h z j n hz hp]
    · rfl

theorem foldl_abortSlot_uncharged (l : List SlotId) (d : Device) (h : ∀ k ∈ l, d.Uncharged k) :
    l.foldl Device.abortSlot d = { d with copy.slots := freeSlots l d.copy.slots } := by
  induction l generalizing d with
  | nil => rfl
  | cons k l ih =>
    rw [List.foldl_cons, abortSlot_uncharged (h k List.mem_cons_self), ih (d.setSlot k none)]
    · rfl
    · intro j hj z b n hz hp
      have hget : (d.setSlot k none).slot? j = if j = k then none else d.slot? j := by
        exact (freeSlots_get [k] d.copy.slots j).trans (by simp [Device.slot?])
      rw [hget] at hz
      split at hz
      · cases hz
      · exact h j (List.mem_cons_of_mem _ hj) z b n hz hp

/-- The slots as a PATH RESET leaves them. -/
def Device.slotsAborted (d : Device) : Device := (List.finRange 16).foldl Device.abortSlot d

/-- R133: with no admitted write in a copy slot, all slots become FREE and that is all. -/
theorem slotsAborted_uncharged {d : Device} (h : ∀ k, d.Uncharged k) :
    d.slotsAborted = { d with copy.slots := Vector.replicate 16 none } := by
  rw [Device.slotsAborted, foldl_abortSlot_uncharged _ d fun k _ => h k, freeSlots_all]

/-- R29, R66: the failed end of an admitted write releases its charge and leaves the writes in flight. -/
theorem abortJob_eq {d : Device} {j : Job} {c : Nat} {z : Volume} (hc : j.charge = some c) (hv : d.volume? j.volume = some z) :
    d.abortJob j = { d.settleCharge j.account c false with
      volumes := d.volumes.insert j.volume { z with inFlight := z.inFlight - 1 } } := by
  have hframe := settleCharge_frame d j.account c false
  have hv' : (d.settleCharge j.account c false).volume? j.volume = some z := by
    rw [hframe]
    exact hv
  have hvols : (d.settleCharge j.account c false).volumes = d.volumes := by rw [hframe]
  unfold Device.abortJob
  rw [hc]
  dsimp only
  rw [lowerInFlight_eq hv', ← hvols]
  rfl

/-- The end of an admitted write reads nothing of the copy slots. -/
theorem abortJob_slots {d : Device} {j : Job} {c : Nat} {z : Volume} (hc : j.charge = some c)
    (hv : d.volume? j.volume = some z) (v : Vector (Option CopySlot) 16) :
    Device.abortJob { d with copy.slots := v } j = { d.abortJob j with copy.slots := v } := by
  have hset : Device.settleCharge { d with copy.slots := v } j.account c false =
      { d.settleCharge j.account c false with copy.slots := v } := by
    unfold Device.settleCharge
    split
    · rfl
    · simp only [Bool.false_eq_true, if_false]
      unfold Device.quotaChecks Device.recheckState
      rw [show (Device.releaseCharge { d with copy.slots := v } j.account c).account j.account
        = (d.releaseCharge j.account c).account j.account from rfl]
      dsimp only
      split <;> rfl
  rw [abortJob_eq (d := { d with copy.slots := v }) hc hv, abortJob_eq hc hv, hset]

/-- R133: one admitted write of a copy slot ends failed as its slot becomes FREE; the others hold no charge. -/
theorem slotsAborted_charged {d : Device} {k : SlotId} {w : CopySlot} {j : Job} {n : Option Nat} {c : Nat} {z : Volume}
    (hw : d.slot? k = some w) (hp : w.phase = .writing j n) (hc : j.charge = some c) (hv : d.volume? j.volume = some z)
    (ho : ∀ l, l ≠ k → d.Uncharged l) :
    d.slotsAborted = { d.abortJob j with copy.slots := Vector.replicate 16 none } := by
  obtain ⟨as, bs, hsplit⟩ := List.append_of_mem (List.mem_finRange k)
  have hnd : (as ++ k :: bs).Nodup := hsplit ▸ List.nodup_finRange 16
  have hka : k ∉ as := fun h => (List.nodup_append.1 hnd).2.2 k h k List.mem_cons_self rfl
  have hkb : k ∉ bs := (List.nodup_cons.1 (List.nodup_append.1 hnd).2.1).1
  let u : Vector (Option CopySlot) 16 := freeSlots as d.copy.slots
  have hfirst : as.foldl Device.abortSlot d = { d with copy.slots := u } :=
    foldl_abortSlot_uncharged as d fun l hl => ho l fun e => hka (e ▸ hl)
  have hslot (l : SlotId) : ({ d with copy.slots := u } : Device).slot? l = if l ∈ as then none else d.slot? l :=
    freeSlots_get as d.copy.slots l
  have hmid : Device.abortSlot { d with copy.slots := u } k
      = { d.abortJob j with copy.slots := u.set k.val none k.isLt } := by
    unfold Device.abortSlot
    rw [hslot k, if_neg hka, hw]
    dsimp only
    rw [hp]
    dsimp only
    rw [abortJob_slots hc hv]
    rfl
  have hlast := foldl_abortSlot_uncharged bs { d.abortJob j with copy.slots := u.set k.val none k.isLt } fun l hl => by
    intro z b m hz hph
    have hget : (u.set k.val none k.isLt)[l] = if l = k then none else u[l] := by
      exact (freeSlots_get [k] u l).trans (by simp)
    have hne : l ≠ k := fun e => hkb (e ▸ hl)
    rw [Device.slot?, hget, if_neg hne] at hz
    have hz' : ({ d with copy.slots := u } : Device).slot? l = some z := hz
    rw [hslot l] at hz'
    split at hz'
    · cases hz'
    · exact ho l hne z b m hz' hph
  have hall : freeSlots bs (u.set k.val none k.isLt) = Vector.replicate 16 none := by
    rw [← freeSlots_all d.copy.slots, hsplit]
    simp only [freeSlots, List.foldl_append, List.foldl_cons, u]
  rw [Device.slotsAborted, hsplit, List.foldl_append, List.foldl_cons, hfirst, hmid, hlast, hall]

end Sys2Proof.Machine
end

section
/-! ### PATH RESET (O58) -/

namespace Sys2Proof.Machine

/-! #### The stages, named -/

/-- R177: the pool's part of a PATH RESET. -/
def Device.poolCleared (d : Device) : Device := { d.quarantineBusy.withdrawAll with pool.streak := 0 }

/-- R133: every restore not yet ENDED ends. -/
def Device.restoresReset (d : Device) : Device := d.openRestores.foldl Device.resetRestore d

/-- R177: the copy engine's fairness state is cleared. -/
def Device.fairnessCleared (d : Device) : Device := { d with copy.lastServed := none, copy.cursor := 0 }

/-- R160: the running pass fails. -/
def Device.passReset (d : Device) : Device :=
  match d.dup.pass with
  | some p => d.closePass p .failed (some .reset)
  | none => d

/-- What follows the ends of the transactions, cuts and copy slots. -/
def Device.afterSlots (d : Device) : Device :=
  d.poolCleared.resetPending.restoresReset.fairnessCleared.passReset

theorem clearWork_eq (d : Device) : d.clearWork = d.endWork.slotsAborted.afterSlots := by
  unfold Device.clearWork
  extract_lets ended freed _ _ cleared removed restored _ fair
  have hslots : d.endWork.slotsAborted = freed := rfl
  clear_value freed
  have hpool : freed.poolCleared = cleared := rfl
  clear_value cleared
  have hpending : cleared.resetPending = removed := rfl
  clear_value removed
  have hrestores : removed.restoresReset = restored := rfl
  clear_value restored
  have hfair : restored.fairnessCleared = fair := rfl
  rw [Device.afterSlots, hslots, hpool, hpending, hrestores, hfair]
  rfl

/-- R95: a volume with no grain in its slot-wait queue. -/
def Volume.bare (x : Volume) : Volume := { x with slotWait := [] }

/-- The pool, the pending entries, the slot waits and the fairness state as every PATH RESET leaves them. -/
def Device.drained (d : Device) : Device := { d with
  volumes := d.volumes.map fun e => (e.1, e.2.bare)
  pool := { d.pool with
    tags := d.pool.tags.map fun x => match x with
      | .busy _ _ => .quarantined (d.clock.now + 5000)
      | y => y
    preserveQ := [], pathQ := [], copyQ := [], streak := 0 }
  pres := { d.pres with table := [], readerWait := [] }
  copy := { d.copy with lastServed := none, cursor := 0 } }

/-- R177: the part with no WRITE held for a cut. -/
def Device.unheld (d : Device) : Device := { d with cutHold := [] }

/-- The part with no WRITE held for a cut and no copy slot in use. -/
def Device.emptied (d : Device) : Device := { d.unheld with copy.slots := Vector.replicate 16 none }

section
variable {d : Device}

/-! #### Transactions and cuts -/

theorem endWork_none (hc : d.cuttingVolumes = []) (ho : d.openData = []) : d.endWork = d.unheld := by
  simp [Device.endWork, Device.resetEnds, hc, ho, openOrder, Device.unheld]

theorem endWork_cut {e : Nat × CutRecord} (hc : d.cuttingVolumes = [e]) (ho : d.openData = []) :
    d.endWork = d.unheld.resetCut e := by
  simp [Device.endWork, Device.resetEnds, hc, ho, openOrder, Device.unheld]

/-- R16: with no cut to abandon, the READs and WRITEs end in some order. -/
theorem endWork_data (hc : d.cuttingVolumes = []) :
    d.endWork = (openOrder (d.openData.length - 1) d.freeIndex d.openData).foldl Device.abortTxn
      { d.unheld with freeIndex := d.freeIndex + (d.openData.length - 1) } := by
  simp only [Device.endWork, Device.resetEnds, hc, List.map_nil, List.nil_append, List.length_map, openOrder_map,
    List.foldl_map]
  rfl

theorem cuttingVolumes_none (h : ∀ e ∈ d.volumes, e.2.cut = none) : d.cuttingVolumes = [] :=
  List.filterMap_eq_nil_iff.2 fun e he => by rw [h e he]; rfl

theorem cuttingVolumes_one {v : Nat} {x : Volume} {c : CutRecord} (hs : d.volumes.Sorted) (hv : d.volume? v = some x)
    (hc : x.cut = some c) (ho : ∀ e ∈ d.volumes, e.1 ≠ v → e.2.cut = none) : d.cuttingVolumes = [(v, c)] := by
  obtain ⟨as, bs, hsplit⟩ := List.append_of_mem (Table.mem_of_find d.volumes hv)
  have hnd := nodup_keys hs
  rw [hsplit, List.map_append, List.map_cons] at hnd
  have hall (l : List (Nat × Volume)) (hl : ∀ e ∈ l, e ∈ d.volumes ∧ e.1 ≠ v) :
      (l.filterMap fun e => e.2.cut.map fun c => (e.1, c)) = [] :=
    List.filterMap_eq_nil_iff.2 fun e he => by rw [ho e (hl e he).1 (hl e he).2]; rfl
  have hbefore := hall as fun e he => ⟨by rw [hsplit]; simp [he], fun h =>
    (List.nodup_append.1 hnd).2.2 e.1 (List.mem_map_of_mem he) v List.mem_cons_self h⟩
  have hafter := hall bs fun e he => ⟨by rw [hsplit]; simp [he], fun h =>
    (List.nodup_cons.1 (List.nodup_append.1 hnd).2.1).1 (List.mem_map.2 ⟨e, he, h⟩)⟩
  simp only [Device.cuttingVolumes, hsplit, List.filterMap_append, List.filterMap_cons, hbefore, hafter, hc,
    Option.map_some, List.nil_append]

/-- R114: a cut that no command waits for is abandoned. -/
theorem resetCut_silent {v : Nat} {x : Volume} {c : CutRecord} (hv : d.volume? v = some x)
    (hr : c.requester = .schedule ∨ c.requester = .pass) :
    d.resetCut (v, c) = { d with volumes := d.volumes.insert v { x with cut := none } } := by
  unfold Device.resetCut Device.onVolume
  simp only [hv]
  rcases hr with hr | hr
  all_goals simp only [hr, Device.setVolume]

/-- R114: a cut that a CUT waits for is abandoned, and the CUT answered. -/
theorem resetCut_command {v g : Nat} {x : Volume} {c : CutRecord} {q : PortId} {u : Txn} (hv : d.volume? v = some x)
    (hr : c.requester = .command { port := q, tag := g }) (hu : d.txn? q g = some u) :
    d.resetCut (v, c) = Device.answered { d with volumes := d.volumes.insert v { x with cut := none } } q g u .aborted
      (some .reset) [] := by
  unfold Device.resetCut Device.onVolume
  simp only [hv, hr]
  exact reply_eq (d.setVolume v { x with cut := none }) (t := u) hu _ _ _

/-- R16: a transaction that holds no charge ends with nothing more. -/
theorem abortTxn_uncharged {q : PortId} {g : Nat} {y : Txn} (hg : g < 32) (hy : d.txn? q g = some y)
    (hc : y.job.charge = none) : d.abortTxn (txnKey q g, y) = d.ended q g y .aborted 0 [] := by
  simp only [Device.abortTxn, Device.abortJob, hc, keyPort_txnKey q hg, txnKey_mod q hg]
  exact endTxn_eq d hy _ _ _

/-- R16, R29, R66: an admitted WRITE ends: its charge is released. -/
theorem abortTxn_charged {q : PortId} {g c : Nat} {y : Txn} {z : Volume} (hg : g < 32) (hy : d.txn? q g = some y)
    (hc : y.job.charge = some c) (hv : d.volume? y.job.volume = some z) :
    d.abortTxn (txnKey q g, y) = (d.abortJob y.job).ended q g y .aborted 0 [] := by
  simp only [Device.abortTxn, keyPort_txnKey q hg, txnKey_mod q hg]
  refine endTxn_eq (d.abortJob y.job) (t := y) ?_ _ _ _
  rw [abortJob_eq hc hv, settleCharge_frame]
  exact hy

/-- The key of a transaction in the list of those that end. -/
def endKey (x : PortId × Nat × Txn) : Nat := txnKey x.1 x.2.1

/-- R1, R16: the completion of a transaction that ends ABORTED, or nothing. -/
def Device.abortFrames (d : Device) (x : PortId × Nat × Txn) : List Output :=
  if x.2.2.owed = true ∧ (d.port x.1).link = .up then
    [.completion x.1 { kind := x.2.2.kind.code, tag := x.2.1, status := .aborted, count := 0, data := [] }]
  else []

/-- The transactions of a list end ABORTED in its order. -/
def Device.endAll (d : Device) (l : List (PortId × Nat × Txn)) : Device :=
  l.foldl (fun e x => e.ended x.1 x.2.1 x.2.2 .aborted 0 []) d

theorem endAll_eq (d : Device) (l : List (PortId × Nat × Txn)) :
    d.endAll l = { d with
      txns := l.foldl (fun ts x => ts.erase (endKey x)) d.txns
      out := d.out ++ l.flatMap d.abortFrames } := by
  induction l generalizing d with
  | nil => simp [Device.endAll]
  | cons x l ih =>
    have hstep : d.endAll (x :: l) = (d.ended x.1 x.2.1 x.2.2 .aborted 0 []).endAll l := rfl
    rw [hstep, ih]
    simp only [List.foldl_cons, List.flatMap_cons, ← List.append_assoc]
    rfl

theorem find_foldl_erase (l : List (PortId × Nat × Txn)) (ts : Table Txn) {k : Nat} (h : ∀ x ∈ l, endKey x ≠ k) :
    (l.foldl (fun ts x => ts.erase (endKey x)) ts).find k = ts.find k := by
  induction l generalizing ts with
  | nil => rfl
  | cons x l ih =>
    rw [List.foldl_cons, ih _ fun y hy => h y (List.mem_cons_of_mem _ hy), Table.find_erase,
      if_neg (h x List.mem_cons_self).symm]

/-- R16: open transactions that hold no charge end one by one. -/
theorem foldl_abortTxn (l : List (PortId × Nat × Txn)) (d : Device) (hl : ∀ x ∈ l, x.2.1 < 32 ∧ x.2.2.job.charge = none)
    (hn : (l.map endKey).Nodup) (ho : ∀ x ∈ l, d.txn? x.1 x.2.1 = some x.2.2) :
    l.foldl (fun e x => e.abortTxn (endKey x, x.2.2)) d = d.endAll l := by
  induction l generalizing d with
  | nil => rfl
  | cons x l ih =>
    obtain ⟨hg, hc⟩ := hl x List.mem_cons_self
    obtain ⟨hx, hn⟩ := List.nodup_cons.1 hn
    rw [List.foldl_cons, endKey, abortTxn_uncharged hg (ho x List.mem_cons_self) hc,
      ih _ (fun y hy => hl y (List.mem_cons_of_mem _ hy)) hn]
    · rfl
    · intro y hy
      have hne : endKey y ≠ endKey x := fun h => hx (h ▸ List.mem_map_of_mem hy)
      exact (Table.find_erase _ _ _).trans ((if_neg hne).trans (ho y (List.mem_cons_of_mem _ hy)))

/-! #### Pending entries, restores and the pass -/

theorem resetPending_stored (h : d.unstoredSlots = []) :
    d.resetPending = { d with
      pres.table := [], pres.readerWait := [], volumes := d.volumes.map fun e => (e.1, e.2.bare) } := by
  unfold Device.resetPending
  rw [h]
  rfl

/-- R95: the one slot whose preservation had not stored goes back. -/
theorem resetPending_one {v slot : Nat} {x : Volume} (h : d.unstoredSlots = [(v, slot)]) (hv : d.volume? v = some x) :
    d.resetPending = { d with
      pres := { d.pres with free := d.pres.free ++ [slot], table := [], readerWait := [] }
      volumes := Table.insert (d.volumes.map fun e => (e.1, e.2.bare)) v x.slotBack.bare } := by
  unfold Device.resetPending
  rw [h, List.foldl_cons, List.foldl_nil, returnSlot_eq hv, ← map_insert]
  rfl

/-- An entry in PRESERVING or STORING, with its slot. -/
def Pending.Unstored (e : Pending) (s : Nat) : Prop :=
  (∃ b n, e.phase = .preserving b n s) ∨ ∃ b n o, e.phase = .storing b n s o

/-- The slot an entry in PRESERVING or STORING has, with its volume. -/
def Pending.unstored (e : Pending) : Option (Nat × Nat) :=
  match e.phase with
  | .preserving _ _ s => some (e.volume, s)
  | .storing _ _ s _ => some (e.volume, s)
  | _ => none

theorem unstored_none {e : Pending} (h : ∀ s, ¬ e.Unstored s) : e.unstored = none := by
  unfold Pending.unstored
  split
  · rename_i b n s hp
    exact absurd (.inl ⟨b, n, hp⟩) (h s)
  · rename_i b n s o hp
    exact absurd (.inr ⟨b, n, o, hp⟩) (h s)
  · rfl

theorem unstored_some {e : Pending} {s : Nat} (h : e.Unstored s) : e.unstored = some (e.volume, s) := by
  unfold Pending.unstored
  obtain ⟨b, n, hp⟩ | ⟨b, n, o, hp⟩ := h
  all_goals rw [hp]

theorem unstoredSlots_eq (d : Device) :
    d.unstoredSlots = sortBy (fun a b => decide (a.2 < b.2)) (d.pres.table.filterMap fun e => e.2.unstored) := rfl

theorem unstoredSlots_nil (h : ∀ e ∈ d.pres.table, ∀ s, ¬ e.2.Unstored s) : d.unstoredSlots = [] := by
  rw [unstoredSlots_eq, List.filterMap_eq_nil_iff.2 fun e he => unstored_none (h e he)]
  rfl

theorem unstoredSlots_one {before after : Table Pending} {e : Nat × Pending} {s : Nat}
    (ht : d.pres.table = before ++ e :: after) (he : e.2.Unstored s)
    (h : ∀ f ∈ before ++ after, ∀ s, ¬ f.2.Unstored s) : d.unstoredSlots = [(e.2.volume, s)] := by
  have hb : before.filterMap (fun e => e.2.unstored) = [] :=
    List.filterMap_eq_nil_iff.2 fun f hf => unstored_none (h f (List.mem_append_left _ hf))
  have ha : after.filterMap (fun e => e.2.unstored) = [] :=
    List.filterMap_eq_nil_iff.2 fun f hf => unstored_none (h f (List.mem_append_right _ hf))
  rw [unstoredSlots_eq, ht, List.filterMap_append, List.filterMap_cons, unstored_some he, hb, ha]
  rfl

theorem openRestores_nil (h : ∀ r ∈ d.copy.restores, r.state = .ended) : d.openRestores = [] := by
  rw [Device.openRestores, List.filter_eq_nil_iff.2 fun r hr => by simp [h r hr]]
  rfl

theorem openRestores_one {before after : List Restore} {r : Restore} (hr : d.copy.restores = before ++ r :: after)
    (hs : r.state ≠ .ended) (ho : ∀ q ∈ before ++ after, q.id ≠ r.id ∧ q.state = .ended) : d.openRestores = [r] := by
  have hnil (l : List Restore) (hl : ∀ q ∈ l, q ∈ before ++ after) :
      l.filter (fun x => decide (x.state ≠ .ended)) = [] :=
    List.filter_eq_nil_iff.2 fun q hq => by simp [(ho q (hl q hq)).2]
  rw [Device.openRestores, hr, List.filter_append, List.filter_cons_of_pos (by simpa using hs),
    hnil before fun q => List.mem_append_left _, hnil after fun q => List.mem_append_right _]
  rfl

/-- R133: a restore that a PATH RESET has ended. -/
def Restore.reset (r : Restore) : Restore := { r with
  state := .ended, current := none, cursor := none, inFlight := 0, outcomes := r.resetOutcomes
  outcome := some .cancelled, reason := some .reset }

/-- R153: snapshot n of a volume is pinned once less. -/
def Volume.unpinned (x : Volume) (n : Nat) : Volume := { x with
  snapshots := x.snapshots.map fun m => if m.number = n then { m with pins := m.pins - 1 } else m }

theorem resetRestore_eq {before after : List Restore} {r : Restore} {x : Volume}
    (hr : d.copy.restores = before ++ r :: after) (ho : ∀ q ∈ before ++ after, q.id ≠ r.id)
    (hv : d.volume? r.source = some x) :
    d.resetRestore r = { d with
      copy := { d.copy with restores := before ++ r.reset :: after, endedOrder := d.copy.endedOrder ++ [r.id] }
      volumes := d.volumes.insert r.source (x.unpinned r.snapshot) } := by
  have hid (f : Restore → Restore) (l : List Restore) (hl : ∀ q ∈ l, q ∈ before ++ after) :
      l.map (fun y => if y.id = r.id then f y else y) = l :=
    (List.map_congr_left fun q hq => if_neg (ho q (hl q hq))).trans (List.map_id l)
  have hmap (f : Restore → Restore) (y : Restore) (hy : y.id = r.id) :
      (before ++ y :: after).map (fun y => if y.id = r.id then f y else y) = before ++ f y :: after := by
    rw [List.map_append, List.map_cons, hid f before fun q => List.mem_append_left _,
      hid f after fun q => List.mem_append_right _, if_pos hy]
  have hfirst : d.onRestore r.id (fun x => { x with outcomes := x.resetOutcomes, inFlight := 0 }) = { d with
      copy.restores := before ++ { r with outcomes := r.resetOutcomes, inFlight := 0 } :: after } := by
    rw [Device.onRestore, hr, hmap _ r rfl]
  unfold Device.resetRestore Device.endRestore Device.unpin Device.onVolume
  rw [hfirst]
  simp only [Device.onRestore, hmap, Device.volume?] at hv ⊢
  rw [hv]
  rfl

theorem foldl_releasePassSlot (l : List SlotId) (h : ∀ k, d.slot? k = none) :
    l.foldl (fun d k => d.releasePassSlot k) d = d := by
  induction l with
  | nil => rfl
  | cons k l ih =>
    have : d.releasePassSlot k = d := by
      unfold Device.releasePassSlot
      rw [h k]
    rw [List.foldl_cons, this, ih]

/-- R153: the end of a pass none of whose grains is in a copy slot. -/
theorem closePass_eq {q : Pass} {x : Volume} (hs : d.copy.slots = Vector.replicate 16 none)
    (hv : d.volume? q.volume = some x) (o : PassOutcome) (r : Option PassReason) :
    d.closePass q o r = d.passClosed q x o r := by
  have hslot (e : Device) (he : e.copy = d.copy) (k : SlotId) : e.slot? k = none := by
    rw [Device.slot?, he, hs]
    exact Vector.getElem_replicate _
  unfold Device.closePass Device.passClosed
  cases hn : q.snapshot with
  | none =>
    dsimp only
    rw [foldl_releasePassSlot _ (hslot d rfl)]
    have hv' : ({ d with dup.staging := [], dup.batches := [] } : Device).volume? q.volume = some x := hv
    simp only [Device.onVolume, hv', reduceCtorEq, if_false, List.map_id', Pass.report, hn]
    rfl
  | some n =>
    have hu : d.unpin q.volume n = d.setVolume q.volume (x.unpinned n) := by
      simp only [Device.unpin, Device.onVolume, hv, Volume.unpinned]
    dsimp only
    rw [hu, foldl_releasePassSlot (d := d.setVolume q.volume (x.unpinned n)) _ (hslot _ rfl)]
    have hv' : ({ d.setVolume q.volume (x.unpinned n) with dup.staging := [], dup.batches := [] } : Device).volume?
        q.volume = some (x.unpinned n) := Table.find_insert_same _ _ _
    simp only [Device.onVolume, hv']
    simp only [Option.some.injEq, Pass.report, hn, Device.setVolume, Table.insert_insert, Volume.unpinned,
      eq_comm (a := n)]
    rfl

/-! #### What follows the ends, in each case -/

theorem passReset_none (h : d.dup.pass = none) : d.passReset = d := by
  unfold Device.passReset
  split
  · rename_i q hq
    exact absurd (hq.symm.trans h) (by simp)
  · rfl

theorem restoresReset_none (h : d.openRestores = []) : d.restoresReset = d := by
  rw [Device.restoresReset, h]
  rfl

/-- With no slot to give back and no restore to end, the part is drained as the pass is looked at. -/
theorem beforePass_quiet (hu : d.unstoredSlots = []) (hr : d.openRestores = []) :
    d.poolCleared.resetPending.restoresReset.fairnessCleared = d.drained := by
  have hpending := resetPending_stored (d := d.poolCleared) hu
  rw [hpending, restoresReset_none]
  · rfl
  · exact hr

theorem afterSlots_quiet (hu : d.unstoredSlots = []) (hr : d.openRestores = []) (hp : d.dup.pass = none) :
    d.afterSlots = d.drained := by
  rw [Device.afterSlots, beforePass_quiet hu hr, passReset_none]
  exact hp

theorem afterSlots_slot {v slot : Nat} {x : Volume} (hu : d.unstoredSlots = [(v, slot)]) (hv : d.volume? v = some x)
    (hr : d.openRestores = []) (hp : d.dup.pass = none) :
    d.afterSlots = { d.drained with
      pres := { d.drained.pres with free := d.pres.free ++ [slot] }
      volumes := d.drained.volumes.insert v x.slotBack.bare } := by
  have hpending := resetPending_one (d := d.poolCleared) hu hv
  rw [Device.afterSlots, hpending, restoresReset_none, passReset_none]
  · rfl
  · exact hp
  · exact hr

/-- R95: the volumes after a PATH RESET, each with no grain waiting for a slot. -/
theorem volume_drained {v : Nat} {x : Volume} (hv : d.volume? v = some x) : d.drained.volume? v = some x.bare :=
  (find_map Volume.bare d.volumes v).trans (congrArg (Option.map Volume.bare) hv)

theorem afterSlots_restore {before after : List Restore} {r : Restore} {x : Volume} (hu : d.unstoredSlots = [])
    (hr : d.copy.restores = before ++ r :: after) (hs : r.state ≠ .ended)
    (ho : ∀ q ∈ before ++ after, q.id ≠ r.id ∧ q.state = .ended) (hv : d.volume? r.source = some x)
    (hp : d.dup.pass = none) :
    d.afterSlots = { d.drained with
      copy := { d.drained.copy with
        restores := before ++ r.reset :: after, endedOrder := d.copy.endedOrder ++ [r.id] }
      volumes := d.drained.volumes.insert r.source (x.bare.unpinned r.snapshot) } := by
  have hpending := resetPending_stored (d := d.poolCleared) hu
  have hopen := openRestores_one (d := d) hr hs ho
  have hrestore := resetRestore_eq (d := d.poolCleared.resetPending) (x := x.bare)
    (by rw [hpending]; exact hr) (fun q hq => (ho q hq).1) (by rw [hpending]; exact volume_drained hv)
  rw [Device.afterSlots, Device.restoresReset,
    show d.poolCleared.resetPending.openRestores = [r] from by rw [hpending]; exact hopen, List.foldl_cons,
    List.foldl_nil, hrestore, hpending, passReset_none]
  · rfl
  · exact hp

theorem afterSlots_pass {q : Pass} {x : Volume} (hu : d.unstoredSlots = []) (hr : d.openRestores = [])
    (hp : d.dup.pass = some q) (hs : d.copy.slots = Vector.replicate 16 none) (hv : d.volume? q.volume = some x) :
    d.afterSlots = d.drained.passClosed q x.bare .failed (some .reset) := by
  rw [Device.afterSlots, beforePass_quiet hu hr, Device.passReset]
  split
  · rename_i q' hq
    obtain rfl : q' = q := Option.some.inj (hq.symm.trans hp)
    exact closePass_eq (d := d.drained) hs (volume_drained hv) _ _
  · rename_i hq
    exact absurd (hp.symm.trans hq) (by simp)

/-! #### The end of the command -/

/-- R73: no volume has a cut or is REMOVING, so that no removal ends. -/
def CalmVolumes (t : Table Volume) : Prop := ∀ v x, t.find v = some x → x.cut = none ∧ x.state ≠ .removing

/-- R177, R178: an answer at once, or a record that waits for the tags in quarantine. -/
def Device.resetFinished (e : Device) (p : PortId) (tag : Nat) (t : Txn) (left : List PoolTagId) (aborted restores : Nat)
    (passEnded : Bool) : Device :=
  if left = [] then
    e.answered p tag t .ok none [.num 1 aborted, .num 1 restores, .num 1 (if passEnded then 1 else 0)]
  else
    { e with mgmt.pathReset := some { txn := { port := p, tag := tag }, left := left, aborted := aborted
                                      restores := restores, passEnded := passEnded } }

/-- What the last step of a PATH RESET asks of the part: no other reset waits, its own transaction is open, no removal
may end and no pass may start. -/
structure Device.ResetSettled (e : Device) (p : PortId) (tag : Nat) (t : Txn) : Prop where
  alone : e.mgmt.pathReset = none
  txn : e.txn? p tag = some { t with command := none }
  calm : CalmVolumes e.volumes
  few : e.volumes.length ≤ 65
  idle : e.startable = none

theorem completeReset_settled {e : Device} {p : PortId} {tag : Nat} {t : Txn} (h : e.ResetSettled p tag t)
    (left : List PoolTagId) (n m : Nat) (b : Bool) :
    Device.completeReset { e with mgmt.pathReset := some {
      txn := { port := p, tag := tag }, left := left, aborted := n, restores := m, passEnded := b } }
      = e.resetFinished p tag t left n m b := by
  unfold Device.completeReset Device.resetFinished
  dsimp only
  split
  · have hmgmt : { e.mgmt with pathReset := none } = e.mgmt := by rw [← h.alone]
    rw [hmgmt]
    exact reply_changed (d' := e) _ _ _ h.txn
  · rfl

theorem resetFinished_volumes (e : Device) (p : PortId) (tag : Nat) (t : Txn) (left : List PoolTagId) (n m : Nat) (b : Bool) :
    (e.resetFinished p tag t left n m b).volumes = e.volumes := by
  unfold Device.resetFinished
  split <;> rfl

theorem resetFinished_startable (e : Device) (p : PortId) (tag : Nat) (t : Txn) (left : List PoolTagId) (n m : Nat)
    (b : Bool) : (e.resetFinished p tag t left n m b).startable = e.startable := by
  unfold Device.resetFinished
  split <;> rfl

theorem volumeCheck_undefined {e : Device} {v : Nat} (h : e.volume? v = none) : perform (.volumeCheck v) e = (e, []) := by
  show volumeCheck v e = _
  unfold volumeCheck removalCheck
  rw [h]

/-- R73, R160: no removal ends and no pass starts. -/
theorem settle_resetFinished {e : Device} {p : PortId} {tag : Nat} {t : Txn} (h : e.ResetSettled p tag t)
    (left : List PoolTagId) (n m : Nat) (b : Bool) :
    let f := e.resetFinished p tag t left n m b
    settle (f, f.volumes.map (fun e => Task.volumeCheck e.1) ++ [.passStart]) = f := by
  intro f
  have hvol : f.volumes = e.volumes := resetFinished_volumes ..
  refine (Runs.quiet fun u hu => ?_).settle ?_
  · rcases List.mem_append.1 hu with hu | hu
    · obtain ⟨x, -, rfl⟩ := List.mem_map.1 hu
      cases hx : f.volume? x.1 with
      | none => exact volumeCheck_undefined hx
      | some z =>
        obtain ⟨hc, hs⟩ := h.calm x.1 z (hvol ▸ hx)
        exact volumeCheck_quiet hx hc hs
    · obtain rfl := List.mem_singleton.1 hu
      exact passStart_quiet (.inr ((resetFinished_startable ..).trans h.idle))
  · rw [List.length_append, List.length_map, List.length_singleton, hvol]
    exact (Nat.add_le_add_right h.few 1).trans (by decide)

/-- R177: a PATH RESET that is carried out, its work in every block and its notices being known. -/
theorem pathReset_becomes {s : State} {p : PortId} {tag : Nat} {t : Txn} {f e : Device}
    (h : s.Issued p tag .pathReset t []) (hp : s.dev.mgmt.pathReset = none)
    (hf : (s.dev.taken p tag t).clearWork = f) (he : f.handOverAll (s.dev.taken p tag t).resetNotices = e)
    (hs : e.ResetSettled p tag t) :
    exec (.pathReset p tag) s = .next { s with
      dev := e.resetFinished p tag t (s.dev.pool.busyTags.map Prod.fst) (s.dev.taken p tag t).openData.length
        (s.dev.taken p tag t).openRestores.length s.dev.dup.pass.isSome } := by
  have hbody : (s.dev.taken p tag t).pathResetCommand p tag = (s.dev.taken p tag t).resetPath p tag :=
    if_neg (by simp [hp])
  have hpath : (s.dev.taken p tag t).resetPath p tag =
      let g := e.resetFinished p tag t (s.dev.pool.busyTags.map Prod.fst)
        (s.dev.taken p tag t).openData.length (s.dev.taken p tag t).openRestores.length s.dev.dup.pass.isSome
      (g, g.volumes.map (fun e => Task.volumeCheck e.1) ++ [.passStart]) := by
    unfold Device.resetPath
    dsimp only
    rw [hf, he, Device.resetRecord, completeReset_settled hs]
    rfl
  simp only [exec, execPathReset, event_high _ h.high, takeThen_issued h, hbody]
  rw [hpath, settle_resetFinished hs]

end

end Sys2Proof.Machine
end

section
/-! ### What a PATH RESET ends, one kind of work at a time (O58) -/

namespace Sys2Proof.Machine

/-- The part with all that every PATH RESET clears cleared. -/
def Device.cleared (d : Device) : Device := d.emptied.drained

/-- A PATH RESET that can be carried out while no removal may end and no pass start. -/
structure State.Resets (s : State) (p : PortId) (tag : Nat) (t : Txn) : Prop where
  issued : s.Issued p tag .pathReset t []
  kind : t.kind = .mgmt
  alone : s.dev.mgmt.pathReset = none
  txns : s.dev.txns.Sorted
  volumes : s.dev.volumes.Sorted
  few : s.dev.volumes.length ≤ 64
  standing : ∀ e ∈ s.dev.volumes, e.2.state ≠ .removing
  idle : s.dev.startable = none

/-! #### Volumes without cuts -/

theorem calm_insert {t : Table Volume} {v : Nat} {x : Volume}
    (ho : ∀ k y, k ≠ v → t.find k = some y → y.cut = none ∧ y.state ≠ .removing) (hc : x.cut = none)
    (hs : x.state ≠ .removing) : CalmVolumes (t.insert v x) := by
  intro k y hk
  rw [Table.find_insert] at hk
  split at hk
  · cases hk
    exact ⟨hc, hs⟩
  · rename_i hne
    exact ho k y hne hk

theorem bare_find {t : Table Volume} {k : Nat} {y : Volume} (h : Table.find (t.map fun e => (e.1, e.2.bare)) k = some y) :
    ∃ x, (k, x) ∈ t ∧ y = x.bare := by
  rw [find_map] at h
  obtain ⟨x, hx, rfl⟩ := Option.map_eq_some_iff.1 h
  exact ⟨x, Table.mem_of_find t hx, rfl⟩

section
variable {s : State} {p : PortId} {tag : Nat} {t : Txn}

theorem openData_eq (d : Device) :
    d.openData = d.txns.filter fun e => decide (e.2.kind = .read ∨ e.2.kind = .write) := by
  simp only [Device.openData, Bool.decide_or]

/-- R16: the taking of the command leaves the open READs and WRITEs. -/
theorem State.Resets.openData (h : s.Resets p tag t) : (s.dev.taken p tag t).openData = s.dev.openData := by
  refine filter_insert s.dev.txns (txnKey p tag) _ (fun u => u.kind = .read || u.kind = .write) ?_ fun w hw => ?_
  · simp [h.kind]
  · have hwt : w = t := Option.some.inj (hw.symm.trans h.issued.txn)
    subst hwt
    simp [h.kind]

/-- R16: a READ or WRITE that is open is not the command's transaction. -/
theorem State.Resets.data_open (h : s.Resets p tag t) {k : Nat} {y : Txn} (hm : (k, y) ∈ s.dev.openData) :
    k ≠ txnKey p tag ∧ (s.dev.taken p tag t).txns.find k = some y := by
  rw [openData_eq] at hm
  obtain ⟨hmem, hkind⟩ := List.mem_filter.1 hm
  have hfind := find_of_mem h.txns hmem
  have hne : k ≠ txnKey p tag := by
    rintro rfl
    have hyt : y = t := Option.some.inj (hfind.symm.trans h.issued.txn)
    subst hyt
    simp [h.kind] at hkind
  exact ⟨hne, (Table.find_insert_other _ _ hne).trans hfind⟩

/-- What the last step asks holds of a part that differs in nothing it reads. -/
theorem State.Resets.settled (h : s.Resets p tag t) {e : Device} (hm : e.mgmt.pathReset = none)
    (ht : e.txn? p tag = some { t with command := none }) (hv : CalmVolumes e.volumes) (hl : e.volumes.length ≤ 65)
    (hq : e.dup.queue = s.dev.dup.queue) (hw : e.clock.window = s.dev.clock.window) : e.ResetSettled p tag t :=
  ⟨hm, ht, hv, hl, by
    have := h.idle
    unfold Device.startable at this ⊢
    rw [hq, hw]
    exact this⟩

theorem State.Resets.length_cleared (h : s.Resets p tag t) : (s.dev.taken p tag t).cleared.volumes.length ≤ 65 :=
  (List.length_map _).trans_le (h.few.trans (by decide))

theorem State.Resets.length_insert (h : s.Resets p tag t) (v : Nat) (x : Volume) :
    ((s.dev.taken p tag t).cleared.volumes.insert v x).length ≤ 65 :=
  (length_insert_le _ _ _).trans (Nat.succ_le_succ ((List.length_map _).trans_le h.few))

theorem State.Resets.calm_cleared (h : s.Resets p tag t) (hc : ∀ e ∈ s.dev.volumes, e.2.cut = none) :
    CalmVolumes (s.dev.taken p tag t).cleared.volumes := by
  intro k y hk
  obtain ⟨x, hx, rfl⟩ := bare_find hk
  exact ⟨hc _ hx, h.standing _ hx⟩

/-- One volume whose record a PATH RESET writes again. -/
theorem State.Resets.calm_insert (h : s.Resets p tag t) {v : Nat} {x y : Volume}
    (ho : ∀ e ∈ s.dev.volumes, e.1 ≠ v → e.2.cut = none) (hx : s.dev.volume? v = some x) (hs : y.state = x.state)
    (hc : y.cut = none) : CalmVolumes ((s.dev.taken p tag t).cleared.volumes.insert v y) := by
  refine Machine.calm_insert (fun k z hk hz => ?_) hc (hs ▸ h.standing _ (Table.mem_of_find _ hx))
  obtain ⟨w, hw, rfl⟩ := bare_find hz
  exact ⟨ho _ hw hk, h.standing _ hw⟩

theorem txn_cleared :
    (s.dev.taken p tag t).cleared.txn? p tag = some { t with command := none } :=
  txn_taken s.dev p tag t

end

/-! #### Notices -/

@[simp] theorem joined_pathReset (m : Management) (n : Notice) : (m.joined n).pathReset = m.pathReset := by
  unfold Management.joined
  split <;> rfl

theorem Device.ResetSettled.noted {e : Device} {p : PortId} {tag : Nat} {t : Txn} (h : e.ResetSettled p tag t)
    (k : NoticeKind) (x : Subject) (v : NoticeValue) : (e.noted k x v).ResetSettled p tag t :=
  ⟨(joined_pathReset _ _).trans h.alone, h.txn, h.calm, h.few, h.idle⟩

theorem Device.ResetSettled.moved {e : Device} {p : PortId} {tag : Nat} {t : Txn} (h : e.ResetSettled p tag t) (i : Nat) :
    Device.ResetSettled { e with freeIndex := i } p tag t :=
  ⟨h.alone, h.txn, h.calm, h.few, h.idle⟩

theorem Device.ResetSettled.answered {e : Device} {p q : PortId} {tag g : Nat} {t : Txn} (h : e.ResetSettled p tag t)
    (hne : txnKey q g ≠ txnKey p tag) (u : Txn) (st : MgmtStatus) (r : Option MgmtReason) (l : List Item) :
    (e.answered q g u st r l).ResetSettled p tag t :=
  ⟨h.alone, (Table.find_erase _ _ _).trans ((if_neg hne.symm).trans h.txn), h.calm, h.few, h.idle⟩

theorem resetNotices_eq (d : Device) {cuts : List (Nat × CutRecord)} {restores : List Restore}
    (hc : d.cuttingVolumes = cuts) (hr : d.openRestores = restores) :
    d.resetNotices = (cuts.map fun e => [d.noticeOf .cutFailed (.volume e.1) (.name .reset)])
      ++ [(restores.map d.resetRestoreNotices).flatten]
      ++ d.dup.pass.toList.map (fun p => [d.noticeOf .passFailed (.volume p.volume) (.name .reset)]) := by
  rw [Device.resetNotices, hc, hr]
  cases d.dup.pass <;> rfl

theorem resetNotices_none {d : Device} (hc : d.cuttingVolumes = []) (hr : d.openRestores = []) (hp : d.dup.pass = none) :
    d.resetNotices = [[]] := by
  rw [resetNotices_eq d hc hr, hp]
  rfl

theorem handOverAll_none (d : Device) : d.handOverAll [[]] = d := rfl

/-- R177: the notices of one list alone. -/
theorem handOverAll_one {d : Device} {ls : List (List Notice)} (l : List Notice)
    (h : ls.filter (fun l => l ≠ []) = [l].filter fun l => l ≠ []) (hl : ls.flatten.length = l.length) :
    d.handOverAll ls = { l.foldl Device.queueNotice d with
      freeIndex := (l.foldl Device.queueNotice d).freeIndex + l.length } := by
  rw [handOverAll_of (l := l) (by rw [hl]; exact interleave_one l _ ls h), hl]

section
variable {d e : Device} (hs : e.clock.stamp = d.clock.stamp) {ls : List (List Notice)} {k k' : NoticeKind} {x x' : Subject}
  {v v' : NoticeValue}

include hs

theorem handOverAll_noted (hf : ls.filter (fun l => l ≠ []) = [[d.noticeOf k x v]]) (hl : ls.flatten.length = 1) :
    e.handOverAll ls = { e.noted k x v with freeIndex := e.freeIndex + 1 } := by
  rw [handOverAll_one [d.noticeOf k x v] (by rw [hf]; simp) hl, List.foldl_cons, List.foldl_nil, queueNotice_noticeOf d hs]
  rfl

theorem foldl_queueNotice_pair : [d.noticeOf k x v, d.noticeOf k' x' v'].foldl Device.queueNotice e
    = (e.noted k x v).noted k' x' v' := by
  rw [List.foldl_cons, List.foldl_cons, List.foldl_nil, queueNotice_noticeOf d hs]
  exact queueNotice_noticeOf d (e := e.noted k x v) hs k' x' v'

theorem handOverAll_noted_noted (hf : ls.filter (fun l => l ≠ []) = [[d.noticeOf k x v, d.noticeOf k' x' v']])
    (hl : ls.flatten.length = 2) :
    e.handOverAll ls = { (e.noted k x v).noted k' x' v' with freeIndex := e.freeIndex + 2 } := by
  rw [handOverAll_one [d.noticeOf k x v, d.noticeOf k' x' v'] (by rw [hf]; simp) hl, foldl_queueNotice_pair hs]
  rfl

/-- R177: two lists of one notice each come in an order that is open (entry 11). -/
theorem handOverAll_either (hf : ls.filter (fun l => l ≠ []) = [[d.noticeOf k x v], [d.noticeOf k' x' v']])
    (hl : ls.flatten.length = 2) :
    e.handOverAll ls = { (e.noted k x v).noted k' x' v' with freeIndex := e.freeIndex + 2 }
      ∨ e.handOverAll ls = { (e.noted k' x' v').noted k x v with freeIndex := e.freeIndex + 2 } := by
  refine (interleave_two _ _ e.freeIndex ls hf).imp (fun h => ?_) fun h => ?_
  · rw [← hl] at h
    rw [handOverAll_of h, hl, foldl_queueNotice_pair hs]
    rfl
  · rw [← hl] at h
    rw [handOverAll_of h, hl, foldl_queueNotice_pair hs]
    rfl

end

/-! #### The end of admitted writes -/

/-- The end of a write moves neither the time nor the window (R28). -/
theorem Device.Settled.time {d e : Device} {n c u : Nat} (h : d.Settled e n c u) :
    e.clock.now = d.clock.now ∧ e.clock.window = d.clock.window := by
  rw [h.clock]
  split <;> exact ⟨rfl, rfl⟩

theorem settleCharge_clock (d : Device) (n c : Nat) (ok : Bool) :
    (d.settleCharge n c ok).clock.now = d.clock.now ∧ (d.settleCharge n c ok).clock.window = d.clock.window := by
  by_cases hc : 0 < c
  · exact (settleCharge_spec d hc ok).2.time
  · rw [show d.settleCharge n c ok = d from if_pos (by omega)]
    exact ⟨rfl, rfl⟩

/-- R29: accounts, groups and clock after the charge of a write is released. -/
structure Device.Released (d x : Device) (j : Job) (c : Nat) : Prop where
  charged : 0 < c → d.Settled x j.account c (d.account j.account).usage
  nothing : c = 0 → x.accounts = d.accounts ∧ x.groups = d.groups ∧ x.clock = d.clock
  now : x.clock.now = d.clock.now
  window : x.clock.window = d.clock.window

theorem settleCharge_released {d e : Device} (j : Job) (c : Nat) (ha : d.accounts = e.accounts) (hg : d.groups = e.groups)
    (hc : d.clock = e.clock) : d.Released (e.settleCharge j.account c false) j c := by
  obtain ⟨hnow, hwindow⟩ := settleCharge_clock e j.account c false
  refine ⟨fun h => ?_, fun h => ?_, hc ▸ hnow, hc ▸ hwindow⟩
  · have hu : (d.account j.account).usage = (e.account j.account).usage := by rw [Device.account, ha]; rfl
    rw [hu]
    exact (settleCharge_spec e h false).2.congr ha hg hc rfl rfl rfl
  · rw [show e.settleCharge j.account c false = e from if_pos h, ha, hg, hc]
    exact ⟨rfl, rfl, rfl⟩

/-- The part with one volume written again and the charge of one of its writes released. -/
def Device.withReleased (d x : Device) (v : Nat) (z : Volume) : Device := { d with
  volumes := d.volumes.insert v z, accounts := x.accounts, groups := x.groups, clock := x.clock }

theorem abortJob_withReleased {d : Device} {j : Job} {c : Nat} {z : Volume} (hc : j.charge = some c)
    (hv : d.volume? j.volume = some z) :
    d.abortJob j = d.withReleased (d.settleCharge j.account c false) j.volume { z with inFlight := z.inFlight - 1 } := by
  rw [abortJob_eq hc hv]
  conv_lhs => rw [settleCharge_frame]
  rfl

/-- The release of a charge and the draining of the part do not meet. -/
theorem drained_withReleased {d x : Device} {j : Job} {c : Nat} (h : d.Released x j c) (v : Nat) (z : Volume) :
    (d.withReleased x v z).drained = d.drained.withReleased x v z.bare := by
  simp only [Device.drained, Device.withReleased, map_insert, h.now]

/-! #### The clauses -/

section
variable {s : State} {p : PortId} {tag : Nat} {t : Txn} (h : s.Resets p tag t)

theorem clearWork_of {d e f : Device} (he : d.endWork = e) (hs : e.slotsAborted = f) : d.clearWork = f.afterSlots := by
  rw [clearWork_eq, he, hs]

/-- With no charge in a copy slot, the ends are followed by what follows the slots. -/
theorem clearWork_uncharged {d e : Device} (he : d.endWork = e) (hs : ∀ k, e.Uncharged k) :
    d.clearWork = Device.afterSlots { e with copy.slots := Vector.replicate 16 none } :=
  clearWork_of he (slotsAborted_uncharged hs)

theorem drained_insert (d : Device) (v : Nat) (x : Volume) :
    Device.drained { d with volumes := d.volumes.insert v x }
      = { d.drained with volumes := d.drained.volumes.insert v x.bare } := by
  simp only [Device.drained, map_insert]

/-- R114: a volume's cut is gone. -/
def Device.cutGone (d : Device) (v : Nat) (x : Volume) : Device :=
  { d.cleared with volumes := d.cleared.volumes.insert v { x.bare with cut := none } }

/-- R133: the part with one restore ended by a PATH RESET. -/
def Device.restoreReset (d : Device) (before : List Restore) (r : Restore) (after : List Restore) (x : Volume)
    (outcomes : List ExtentOutcome) : Device :=
  { d.cleared with
    copy := { d.cleared.copy with
      restores := before ++ { r.reset with outcomes := outcomes } :: after, endedOrder := d.copy.endedOrder ++ [r.id] }
    volumes := d.cleared.volumes.insert r.source (x.bare.unpinned r.snapshot) }

/-- The PATH RESET leaves this part, but for its own answer or record. -/
def State.ResetBecomes (s : State) (p : PortId) (tag : Nat) (t : Txn) (e : Device) (aborted restores : Nat)
    (passEnded : Bool) : Prop :=
  exec (.pathReset p tag) s = .next { s with
    dev := e.resetFinished p tag t (s.dev.pool.busyTags.map Prod.fst) aborted restores passEnded }

include h

theorem State.Resets.becomes {f e : Device} {n m : Nat} {b : Bool} (hf : (s.dev.taken p tag t).clearWork = f)
    (he : f.handOverAll (s.dev.taken p tag t).resetNotices = e) (hs : e.ResetSettled p tag t)
    (hn : s.dev.openData.length = n) (hm : s.dev.openRestores.length = m) (hb : s.dev.dup.pass.isSome = b) :
    s.ResetBecomes p tag t e n m b := by
  rw [State.ResetBecomes, pathReset_becomes h.issued h.alone hf he hs, h.openData, hn, hb, ← hm]
  rfl

/-- R16: all open READs and WRITEs end ABORTED, one after another. -/
theorem State.Resets.data (hslots : ∀ k, s.dev.Uncharged k) (hcalm : ∀ e ∈ s.dev.volumes, e.2.cut = none)
    (hstored : s.dev.unstoredSlots = []) (hrest : s.dev.openRestores = []) (hpass : s.dev.dup.pass = none)
    {ends : List (PortId × Nat × Txn)}
    (hd : s.dev.openData = ends.map fun e => (endKey e, e.2.2)) (hl : ∀ e ∈ ends, e.2.1 < 32 ∧ e.2.2.job.charge = none) :
    ∃ order : List (PortId × Nat × Txn), order.Perm ends ∧ s.ResetBecomes p tag t
      (Device.endAll { (s.dev.taken p tag t).cleared with freeIndex := s.dev.freeIndex + (ends.length - 1) } order)
      ends.length 0 false := by
  have hcut := cuttingVolumes_none hcalm
  have hperm := openOrder_perm (ends.length - 1) s.dev.freeIndex ends
  generalize horder : openOrder (ends.length - 1) s.dev.freeIndex ends = order at hperm
  have hlen : s.dev.openData.length = ends.length := by rw [hd, List.length_map]
  have hopen (x : PortId × Nat × Txn) (hx : x ∈ order) :
      endKey x ≠ txnKey p tag ∧ (s.dev.taken p tag t).txns.find (endKey x) = some x.2.2 :=
    h.data_open (by rw [hd]; exact List.mem_map_of_mem (hperm.mem_iff.1 hx))
  have hnodup : (order.map endKey).Nodup := by
    have : (s.dev.openData.map Prod.fst).Nodup := (List.filter_sublist.map Prod.fst).nodup (nodup_keys h.txns)
    rw [hd, List.map_map] at this
    exact (hperm.map endKey).nodup_iff.2 this
  have hends : (s.dev.taken p tag t).endWork = Device.endAll { s.dev.taken p tag t with
      cutHold := [], freeIndex := s.dev.freeIndex + (ends.length - 1) } order := by
    rw [endWork_data (d := s.dev.taken p tag t) hcut, h.openData, hlen, hd, openOrder_map, List.foldl_map,
      show (s.dev.taken p tag t).freeIndex = s.dev.freeIndex from rfl, horder]
    exact foldl_abortTxn order _ (fun x hx => hl x (hperm.mem_iff.1 hx)) hnodup fun x hx => (hopen x hx).2
  have hclear : (s.dev.taken p tag t).clearWork = Device.endAll { (s.dev.taken p tag t).cleared with
      freeIndex := s.dev.freeIndex + (ends.length - 1) } order := by
    rw [endAll_eq] at hends
    rw [endAll_eq]
    exact (clearWork_uncharged hends hslots).trans (afterSlots_quiet hstored hrest hpass)
  refine ⟨order, hperm, h.becomes hclear (e := _) ?_ ?_ hlen ?_ ?_⟩
  · rw [resetNotices_none (d := s.dev.taken p tag t) hcut hrest hpass, handOverAll_none]
  · rw [endAll_eq]
    refine h.settled h.alone ?_ (h.calm_cleared hcalm) h.length_cleared rfl rfl
    exact (find_foldl_erase order _ fun x hx => (hopen x hx).1).trans txn_cleared
  · rw [hrest]; rfl
  · rw [hpass]; rfl

/-- R16, R29, R66: an admitted WRITE ends ABORTED, its charge released. -/
theorem State.Resets.write (hslots : ∀ k, s.dev.Uncharged k) (hcalm : ∀ e ∈ s.dev.volumes, e.2.cut = none)
    (hstored : s.dev.unstoredSlots = []) (hrest : s.dev.openRestores = []) (hpass : s.dev.dup.pass = none)
    {q : PortId} {g c : Nat} {y : Txn} {z : Volume} (hg : g < 32) (hd : s.dev.openData = [(txnKey q g, y)])
    (hc : y.job.charge = some c) (hv : s.dev.volume? y.job.volume = some z) :
    ∃ x, s.dev.Released x y.job c ∧ s.ResetBecomes p tag t
      (Device.ended ((s.dev.taken p tag t).cleared.withReleased x y.job.volume
        { z.bare with inFlight := z.inFlight - 1 }) q g y .aborted 0 []) 1 0 false := by
  have hcut := cuttingVolumes_none hcalm
  obtain ⟨hne, hopen⟩ := h.data_open (k := txnKey q g) (y := y) (by rw [hd]; exact List.mem_singleton_self _)
  have hends : (s.dev.taken p tag t).endWork =
      ((s.dev.taken p tag t).unheld.withReleased ((s.dev.taken p tag t).unheld.settleCharge y.job.account c false)
        y.job.volume { z with inFlight := z.inFlight - 1 }).ended q g y .aborted 0 [] := by
    rw [endWork_data (d := s.dev.taken p tag t) hcut, h.openData, hd]
    exact (abortTxn_charged (d := (s.dev.taken p tag t).unheld) hg hopen hc hv).trans
      (congrArg (fun e => Device.ended e q g y .aborted 0 []) (abortJob_withReleased (d := (s.dev.taken p tag t).unheld) hc hv))
  have hdrain := drained_withReleased (d := (s.dev.taken p tag t).emptied)
    (settleCharge_released (e := (s.dev.taken p tag t).unheld) y.job c rfl rfl rfl) y.job.volume { z with inFlight := z.inFlight - 1 }
  have hclear := ((clearWork_uncharged hends hslots).trans (afterSlots_quiet hstored hrest hpass)).trans
    (congrArg (fun e => Device.ended e q g y .aborted 0 []) hdrain)
  refine ⟨_, settleCharge_released (e := (s.dev.taken p tag t).unheld) y.job c rfl rfl rfl,
    h.becomes hclear (e := _) ?_ ?_ (by rw [hd]; rfl) ?_ ?_⟩
  · rw [resetNotices_none (d := s.dev.taken p tag t) hcut hrest hpass, handOverAll_none]
    rfl
  · refine h.settled h.alone ?_ (h.calm_insert (fun e he _ => hcalm e he) hv rfl ?_) (h.length_insert _ _) rfl ?_
    · exact (Table.find_erase _ _ _).trans ((if_neg hne.symm).trans txn_cleared)
    · exact hcalm _ (Table.mem_of_find _ hv)
    · exact (settleCharge_clock (s.dev.taken p tag t).unheld y.job.account c false).2
  · rw [hrest]; rfl
  · rw [hpass]; rfl

/-- R29, R66, R133: an admitted write of a copy slot ends, its charge released. -/
theorem State.Resets.slotWrite (hcalm : ∀ e ∈ s.dev.volumes, e.2.cut = none)
    (hstored : s.dev.unstoredSlots = []) (hrest : s.dev.openRestores = []) (hpass : s.dev.dup.pass = none)
    {k : SlotId} {w : CopySlot} {j : Job} {n : Option Nat} {c : Nat} {z : Volume} (hd : s.dev.openData = [])
    (hw : s.dev.slot? k = some w) (hphase : w.phase = .writing j n) (hc : j.charge = some c)
    (hv : s.dev.volume? j.volume = some z) (ho : ∀ l, l ≠ k → s.dev.Uncharged l) :
    ∃ x, s.dev.Released x j c ∧ s.ResetBecomes p tag t ((s.dev.taken p tag t).cleared.withReleased x j.volume
      { z.bare with inFlight := z.inFlight - 1 }) 0 0 false := by
  have hcut := cuttingVolumes_none hcalm
  have hends : (s.dev.taken p tag t).endWork = (s.dev.taken p tag t).unheld :=
    endWork_none (d := s.dev.taken p tag t) hcut (h.openData.trans hd)
  have hslots := slotsAborted_charged (d := (s.dev.taken p tag t).unheld) hw hphase hc hv ho
  rw [abortJob_withReleased (d := (s.dev.taken p tag t).unheld) hc hv] at hslots
  have hdrain := drained_withReleased (d := (s.dev.taken p tag t).emptied)
    (settleCharge_released (e := (s.dev.taken p tag t).unheld) j c rfl rfl rfl) j.volume { z with inFlight := z.inFlight - 1 }
  have hclear := ((clearWork_of hends hslots).trans (afterSlots_quiet hstored hrest hpass)).trans hdrain
  refine ⟨_, settleCharge_released (e := (s.dev.taken p tag t).unheld) j c rfl rfl rfl,
    h.becomes hclear (e := _) ?_ ?_ (by rw [hd]; rfl) ?_ ?_⟩
  · rw [resetNotices_none (d := s.dev.taken p tag t) hcut hrest hpass, handOverAll_none]
    rfl
  · refine h.settled h.alone txn_cleared (h.calm_insert (fun e he _ => hcalm e he) hv rfl ?_) (h.length_insert _ _) rfl ?_
    · exact hcalm _ (Table.mem_of_find _ hv)
    · exact (settleCharge_clock (s.dev.taken p tag t).unheld j.account c false).2
  · rw [hrest]; rfl
  · rw [hpass]; rfl

/-- R95: the slot of an entry in PRESERVING or STORING goes back. -/
theorem State.Resets.unstored (hslots : ∀ k, s.dev.Uncharged k) (hcalm : ∀ e ∈ s.dev.volumes, e.2.cut = none)
    (hrest : s.dev.openRestores = []) (hpass : s.dev.dup.pass = none) (hd : s.dev.openData = []) {v slot : Nat} {x : Volume}
    (hu : s.dev.unstoredSlots = [(v, slot)]) (hv : s.dev.volume? v = some x) :
    s.ResetBecomes p tag t { (s.dev.taken p tag t).cleared with
      pres := { (s.dev.taken p tag t).cleared.pres with free := s.dev.pres.free ++ [slot] }
      volumes := (s.dev.taken p tag t).cleared.volumes.insert v x.slotBack.bare } 0 0 false := by
  have hcut := cuttingVolumes_none hcalm
  have hends := endWork_none (d := s.dev.taken p tag t) hcut (h.openData.trans hd)
  have hclear := (clearWork_uncharged hends hslots).trans (afterSlots_slot hu hv hrest hpass)
  refine h.becomes hclear (e := _) ?_ ?_ (by rw [hd]; rfl) ?_ ?_
  · rw [resetNotices_none (d := s.dev.taken p tag t) hcut hrest hpass, handOverAll_none]
    rfl
  · refine h.settled h.alone txn_cleared (h.calm_insert (fun e he _ => hcalm e he) hv rfl ?_) (h.length_insert _ _) rfl rfl
    exact hcalm _ (Table.mem_of_find _ hv)
  · rw [hrest]; rfl
  · rw [hpass]; rfl

omit h in
/-- R177: the notices when one cut is abandoned and no restore ends. -/
theorem resetNotices_cut {v : Nat} {c : CutRecord} (hcut : s.dev.cuttingVolumes = [(v, c)])
    (hrest : s.dev.openRestores = []) :
    (s.dev.taken p tag t).resetNotices =
      [[(s.dev.taken p tag t).noticeOf .cutFailed (.volume v) (.name .reset)], []] ++ s.dev.dup.pass.toList.map
        fun q => [(s.dev.taken p tag t).noticeOf .passFailed (.volume q.volume) (.name .reset)] :=
  resetNotices_eq (s.dev.taken p tag t) hcut hrest

theorem State.Resets.settled_cutGone {v : Nat} {x : Volume} (hv : s.dev.volume? v = some x)
    (ho : ∀ e ∈ s.dev.volumes, e.1 ≠ v → e.2.cut = none) :
    ((s.dev.taken p tag t).cutGone v x).ResetSettled p tag t :=
  h.settled h.alone txn_cleared (h.calm_insert (y := { x.bare with cut := none }) ho hv rfl rfl) (h.length_insert _ _)
    rfl rfl

/-- R114: the cut of a schedule is abandoned. -/
theorem State.Resets.cut_schedule (hslots : ∀ k, s.dev.Uncharged k) (hstored : s.dev.unstoredSlots = [])
    (hrest : s.dev.openRestores = []) (hpass : s.dev.dup.pass = none) (hd : s.dev.openData = []) {v : Nat} {x : Volume}
    {c : CutRecord} (hv : s.dev.volume? v = some x) (hc : x.cut = some c)
    (ho : ∀ e ∈ s.dev.volumes, e.1 ≠ v → e.2.cut = none) (hr : c.requester = .schedule) :
    s.ResetBecomes p tag t { ((s.dev.taken p tag t).cutGone v x).noted .cutFailed (.volume v) (.name .reset) with
      freeIndex := s.dev.freeIndex + 1 } 0 0 false := by
  have hcut := cuttingVolumes_one h.volumes hv hc ho
  have hends := (endWork_cut (d := s.dev.taken p tag t) hcut (h.openData.trans hd)).trans (resetCut_silent hv (.inl hr))
  have hclear := ((clearWork_uncharged hends hslots).trans (afterSlots_quiet hstored hrest hpass)).trans
    (drained_insert (s.dev.taken p tag t).emptied v { x with cut := none })
  refine h.becomes hclear (e := _) ?_ ?_ (by rw [hd]; rfl) (by rw [hrest]; rfl) (by rw [hpass]; rfl)
  · rw [resetNotices_cut hcut hrest, hpass]
    exact handOverAll_noted (d := s.dev.taken p tag t) (e := (s.dev.taken p tag t).cutGone v x) rfl rfl rfl
  · exact ((h.settled_cutGone hv ho).noted _ _ _).moved _

/-- R114: a cut that a CUT waits for is abandoned, and the CUT answered ABORTED for RESET. -/
theorem State.Resets.cut_command (hslots : ∀ k, s.dev.Uncharged k) (hstored : s.dev.unstoredSlots = [])
    (hrest : s.dev.openRestores = []) (hpass : s.dev.dup.pass = none) (hd : s.dev.openData = []) {v g : Nat} {x : Volume}
    {c : CutRecord} {q : PortId} {u : Txn} (hv : s.dev.volume? v = some x) (hc : x.cut = some c)
    (ho : ∀ e ∈ s.dev.volumes, e.1 ≠ v → e.2.cut = none) (hr : c.requester = .command { port := q, tag := g })
    (hne : txnKey q g ≠ txnKey p tag) (hu : s.dev.txn? q g = some u) :
    s.ResetBecomes p tag t { (((s.dev.taken p tag t).cutGone v x).answered q g u .aborted (some .reset) []).noted
      .cutFailed (.volume v) (.name .reset) with freeIndex := s.dev.freeIndex + 1 } 0 0 false := by
  have hcut := cuttingVolumes_one h.volumes hv hc ho
  have hopen : (s.dev.taken p tag t).unheld.txn? q g = some u := (Table.find_insert_other _ _ hne).trans hu
  have hends := (endWork_cut (d := s.dev.taken p tag t) hcut (h.openData.trans hd)).trans (resetCut_command hv hr hopen)
  have hclear := ((clearWork_uncharged hends hslots).trans (afterSlots_quiet hstored hrest hpass)).trans
    (congrArg (fun e => Device.answered e q g u .aborted (some .reset) [])
      (drained_insert (s.dev.taken p tag t).emptied v { x with cut := none }))
  refine h.becomes hclear (e := _) ?_ ?_ (by rw [hd]; rfl) (by rw [hrest]; rfl) (by rw [hpass]; rfl)
  · rw [resetNotices_cut hcut hrest, hpass]
    exact handOverAll_noted (d := s.dev.taken p tag t)
      (e := ((s.dev.taken p tag t).cutGone v x).answered q g u .aborted (some .reset) []) rfl rfl rfl
  · exact (((h.settled_cutGone hv ho).answered hne _ _ _ _).noted _ _ _).moved _

/-- R114, R160: the cut of the running pass is abandoned, and the pass fails; the two notices come in an open order. -/
theorem State.Resets.cut_pass (hslots : ∀ k, s.dev.Uncharged k) (hstored : s.dev.unstoredSlots = [])
    (hrest : s.dev.openRestores = []) (hd : s.dev.openData = []) {x : Volume} {c : CutRecord} {q : Pass}
    (hpass : s.dev.dup.pass = some q) (hv : s.dev.volume? q.volume = some x) (hc : x.cut = some c)
    (ho : ∀ e ∈ s.dev.volumes, e.1 ≠ q.volume → e.2.cut = none) (hr : c.requester = .pass) {closed : Device}
    (hclosed : closed = ((s.dev.taken p tag t).cutGone q.volume x).passClosed q { x.bare with cut := none } .failed
      (some .reset)) :
    s.ResetBecomes p tag t { (closed.noted .cutFailed (.volume q.volume) (.name .reset)).noted .passFailed
        (.volume q.volume) (.name .reset) with freeIndex := s.dev.freeIndex + 2 } 0 0 true
      ∨ s.ResetBecomes p tag t { (closed.noted .passFailed (.volume q.volume) (.name .reset)).noted .cutFailed
        (.volume q.volume) (.name .reset) with freeIndex := s.dev.freeIndex + 2 } 0 0 true := by
  subst hclosed
  have hcut := cuttingVolumes_one h.volumes hv hc ho
  have hends := (endWork_cut (d := s.dev.taken p tag t) hcut (h.openData.trans hd)).trans (resetCut_silent hv (.inr hr))
  have hclear := ((clearWork_uncharged hends hslots).trans
    (afterSlots_pass hstored hrest hpass rfl (Table.find_insert_same _ _ _))).trans
    (congrArg (fun e => Device.passClosed e q { x.bare with cut := none } .failed (some .reset))
      (drained_insert (s.dev.taken p tag t).emptied q.volume { x with cut := none }))
  have hgone := h.settled_cutGone hv ho
  have hvolumes (y : Volume) : ((s.dev.taken p tag t).cutGone q.volume x).volumes.insert q.volume y
      = (s.dev.taken p tag t).cleared.volumes.insert q.volume y := Table.insert_insert _ _ _ y
  have hsettled : Device.ResetSettled (((s.dev.taken p tag t).cutGone q.volume x).passClosed q
      { x.bare with cut := none } .failed (some .reset)) p tag t := by
    refine ⟨h.alone, hgone.txn, ?_, ?_, hgone.idle⟩
    · unfold Device.passClosed
      dsimp only
      rw [hvolumes]
      exact h.calm_insert ho hv rfl rfl
    · unfold Device.passClosed
      dsimp only
      rw [hvolumes]
      exact h.length_insert _ _
  have hnotices := resetNotices_cut (p := p) (tag := tag) (t := t) hcut hrest
  rw [hpass] at hnotices
  have hover := handOverAll_either (d := s.dev.taken p tag t) (e := ((s.dev.taken p tag t).cutGone q.volume x).passClosed q
      { x.bare with cut := none } .failed (some .reset)) rfl (k := .cutFailed) (k' := .passFailed) (x := .volume q.volume)
      (x' := .volume q.volume) (v := .name .reset) (v' := .name .reset) (ls := (s.dev.taken p tag t).resetNotices)
      (by rw [hnotices]; rfl) (by rw [hnotices]; rfl)
  refine hover.imp (fun he => ?_) fun he => ?_
  · exact h.becomes hclear he (((hsettled.noted _ _ _).noted _ _ _).moved _) (by rw [hd]; rfl) (by rw [hrest]; rfl)
      (by rw [hpass]; rfl)
  · exact h.becomes hclear he (((hsettled.noted _ _ _).noted _ _ _).moved _) (by rw [hd]; rfl) (by rw [hrest]; rfl)
      (by rw [hpass]; rfl)

omit h in
/-- R177: the notices when one restore ends and no cut is abandoned. -/
theorem resetNotices_restore {r : Restore} (hcut : s.dev.cuttingVolumes = []) (hrest : s.dev.openRestores = [r])
    (hpass : s.dev.dup.pass = none) :
    (s.dev.taken p tag t).resetNotices = [(s.dev.taken p tag t).resetRestoreNotices r] := by
  rw [resetNotices_eq (s.dev.taken p tag t) hcut hrest, show (s.dev.taken p tag t).dup.pass = none from hpass]
  simp

theorem State.Resets.settled_restoreReset (hcalm : ∀ e ∈ s.dev.volumes, e.2.cut = none) (before after : List Restore)
    {r : Restore} {x : Volume} (hv : s.dev.volume? r.source = some x) (outcomes : List ExtentOutcome) :
    ((s.dev.taken p tag t).restoreReset before r after x outcomes).ResetSettled p tag t := by
  refine h.settled h.alone txn_cleared (h.calm_insert (fun e he _ => hcalm e he) hv rfl ?_) (h.length_insert _ _) rfl rfl
  exact hcalm _ (Table.mem_of_find _ hv)

/-- R133: a restore that is QUEUED or RUNNING ends CANCELLED for RESET, with its notices. -/
theorem State.Resets.restore (hslots : ∀ k, s.dev.Uncharged k) (hcalm : ∀ e ∈ s.dev.volumes, e.2.cut = none)
    (hstored : s.dev.unstoredSlots = []) (hpass : s.dev.dup.pass = none) (hd : s.dev.openData = [])
    {before after : List Restore} {r : Restore} {x : Volume} (hr : s.dev.copy.restores = before ++ r :: after)
    (hs : r.state ≠ .ended) (ho : ∀ q ∈ before ++ after, q.id ≠ r.id ∧ q.state = .ended)
    (hv : s.dev.volume? r.source = some x) {outcomes : List ExtentOutcome} (hout : r.resetOutcomes = outcomes) {e : Device}
    (he : ((s.dev.taken p tag t).restoreReset before r after x outcomes).handOverAll
      [(s.dev.taken p tag t).resetRestoreNotices r] = e) (hsettled : e.ResetSettled p tag t) :
    s.ResetBecomes p tag t e 0 1 false := by
  subst hout
  have hcut := cuttingVolumes_none hcalm
  have hrest := openRestores_one hr hs ho
  have hends := endWork_none (d := s.dev.taken p tag t) hcut (h.openData.trans hd)
  have hclear := (clearWork_uncharged hends hslots).trans (afterSlots_restore hstored hr hs ho hv hpass)
  refine h.becomes hclear ?_ hsettled (by rw [hd]; rfl) (by rw [hrest]; rfl) (by rw [hpass]; rfl)
  rw [resetNotices_restore hcut hrest hpass]
  exact he

/-- R160: the running pass fails for RESET. -/
theorem State.Resets.pass (hslots : ∀ k, s.dev.Uncharged k) (hcalm : ∀ e ∈ s.dev.volumes, e.2.cut = none)
    (hstored : s.dev.unstoredSlots = []) (hrest : s.dev.openRestores = []) (hd : s.dev.openData = []) {q : Pass} {x : Volume}
    (hpass : s.dev.dup.pass = some q) (hv : s.dev.volume? q.volume = some x) :
    s.ResetBecomes p tag t { ((s.dev.taken p tag t).cleared.passClosed q x.bare .failed (some .reset)).noted .passFailed
      (.volume q.volume) (.name .reset) with freeIndex := s.dev.freeIndex + 1 } 0 0 true := by
  have hcut := cuttingVolumes_none hcalm
  have hends := endWork_none (d := s.dev.taken p tag t) hcut (h.openData.trans hd)
  have hclear := (clearWork_uncharged hends hslots).trans (afterSlots_pass hstored hrest hpass rfl hv)
  have hsettled : Device.ResetSettled ((s.dev.taken p tag t).cleared.passClosed q x.bare .failed (some .reset)) p tag t := by
    refine h.settled h.alone txn_cleared (h.calm_insert (fun e he _ => hcalm e he) hv rfl ?_) (h.length_insert _ _) rfl rfl
    exact hcalm _ (Table.mem_of_find _ hv)
  refine h.becomes hclear ?_ ((hsettled.noted _ _ _).moved _) (by rw [hd]; rfl) (by rw [hrest]; rfl) (by rw [hpass]; rfl)
  rw [resetNotices_eq (s.dev.taken p tag t) hcut hrest, show (s.dev.taken p tag t).dup.pass = some q from hpass]
  exact handOverAll_noted (d := s.dev.taken p tag t)
    (e := (s.dev.taken p tag t).cleared.passClosed q x.bare .failed (some .reset)) rfl rfl rfl

end

/-! #### The outcomes and notices of a restore -/

theorem resetOutcomes_idle {r : Restore} (h : r.current = none) : r.resetOutcomes = r.outcomes.map fun _ => .notRun := by
  simp only [Restore.resetOutcomes, h]

/-- R133: the current extent CANCELLED, those after it NOT_RUN. -/
theorem resetOutcomes_current {r : Restore} {done rest : List ExtentOutcome} {o : ExtentOutcome}
    (h : r.current = some done.length) (ho : r.outcomes = done ++ o :: rest) :
    r.resetOutcomes = done ++ .cancelled :: rest.map fun _ => .notRun := by
  have hset : (done ++ o :: rest).set done.length .cancelled = done ++ .cancelled :: rest := by simp
  have htake : (done ++ ExtentOutcome.cancelled :: rest).take (done.length + 1) = done ++ [.cancelled] := by
    rw [List.take_length_add_append]
    rfl
  have hcount : (done ++ ExtentOutcome.cancelled :: rest).length - (done.length + 1) = rest.length := by
    simp
    omega
  simp only [Restore.resetOutcomes, h, ho, hset, notRunAfter, htake, hcount, List.map_const', List.append_assoc,
    List.singleton_append]

theorem resetRestoreNotices_idle {d : Device} {r : Restore} (h : r.current = none) :
    d.resetRestoreNotices r = [d.noticeOf .restoreEnd (.restore r.id) (.restoreEnd .cancelled (some .reset))] := by
  simp only [Device.resetRestoreNotices, h]

theorem resetRestoreNotices_current {d : Device} {r : Restore} {i : Nat} {f : Extent} (h : r.current = some i)
    (hf : r.extents[i]? = some f) :
    d.resetRestoreNotices r =
      (if f.notify then [d.noticeOf .restoreExtent (.restore r.id) (.extent .cancelled (i + 1))] else [])
        ++ [d.noticeOf .restoreEnd (.restore r.id) (.restoreEnd .cancelled (some .reset))] := by
  simp only [Device.resetRestoreNotices, h, hf]
  split <;> rfl

/-- Settles O58: PATH RESET, from what it clears always (`Device.cleared`) and one lemma for each kind of work it ends. -/
theorem pathResetAborts : Obligations.PathResetAborts := by
  intro s p tag t hi hk d Becomes
  constructor
  · intro hbusy
    have hdeny : (s.dev.taken p tag t).pathResetCommand p tag = (s.dev.taken p tag t).denyEffect p tag .busy :=
      if_pos (Option.isSome_iff_ne_none.2 hbusy)
    show exec _ _ = _
    simp only [exec, execPathReset, event_high _ hi.high, takeThen_issued hi, hdeny]
    rw [Device.denyEffect, settle_nil]
    exact congrArg (fun e => Host.Outcome.next { s with dev := e }) (reply_taken s.dev p tag t _ _ _)
  intro hp htxns hvols hfew hstanding hidle data bare cleared left finish uncharged noCut unstored stored noRestore
  have h : s.Resets p tag t := ⟨hi, hk, hp, htxns, hvols, hfew, hstanding, startable_none hidle⟩
  have hdata : s.dev.openData = data := openData_eq s.dev
  have hslots (hu : uncharged) (k : SlotId) : s.dev.Uncharged k := fun z j n => hu k z j n
  refine ⟨?data, ?writes, ?slot, ?cut, ?restore, ?pass⟩
  case data =>
    intro hu hc hs hr hpass ends hd hl
    exact h.data (hslots hu) hc (unstoredSlots_nil hs) (openRestores_nil hr) hpass (hdata.trans hd) hl
  case writes =>
    intro j c z hj hv hc hs hr hpass a lowered settled
    constructor
    · intro q g y hg hu hd hy hyj
      subst hyj
      obtain ⟨x, hx, hb⟩ :=
        h.write (hslots hu) hc (unstoredSlots_nil hs) (openRestores_nil hr) hpass hg (hdata.trans hd) hj hv
      exact ⟨_, x, ⟨rfl, hx.charged, hx.nothing⟩, hb⟩
    · intro k w n hd hw hphase ho
      obtain ⟨x, hx, hb⟩ := h.slotWrite hc (unstoredSlots_nil hs) (openRestores_nil hr) hpass (hdata.trans hd) hw hphase hj
        hv fun l hl z i m => ho l z i m hl
      exact ⟨_, x, ⟨rfl, hx.charged, hx.nothing⟩, hb⟩
  case slot =>
    intro before e after slot x hd hu hc hr hpass ht he ho hv held
    exact h.unstored (hslots hu) hc (openRestores_nil hr) hpass (hdata.trans hd) (unstoredSlots_one ht he ho) hv
  case cut =>
    intro v x c hd hu hs hr hv hx ho gone told
    refine ⟨fun hpass hreq => ?_, fun q g u hpass hreq hne hg => ?_, ?_⟩
    · exact h.cut_schedule (hslots hu) (unstoredSlots_nil hs) (openRestores_nil hr) hpass (hdata.trans hd) hv hx ho hreq
    · exact h.cut_command (hslots hu) (unstoredSlots_nil hs) (openRestores_nil hr) hpass (hdata.trans hd) hv hx ho hreq hne hg
    · intro q hreq hpass hq hsnap closed
      subst hq
      exact h.cut_pass (hslots hu) (unstoredSlots_nil hs) (openRestores_nil hr) (hdata.trans hd) hpass hv hx ho hreq rfl
  case restore =>
    intro before r after x hd hu hc hs hpass hr hst ho hv overAs told
    have hbecomes {e : Device} {outcomes : List ExtentOutcome} (hout : r.resetOutcomes = outcomes) :=
      h.restore (hslots hu) hc (unstoredSlots_nil hs) hpass (hdata.trans hd) hr hst ho hv hout (e := e)
    have hsettled := h.settled_restoreReset hc before after hv
    refine ⟨fun hcur => ?_, ?_⟩
    · refine hbecomes (resetOutcomes_idle hcur) ?_ (((hsettled _).noted _ _ _).moved _)
      rw [resetRestoreNotices_idle hcur]
      exact handOverAll_noted (d := d.taken p tag t) (e := (d.taken p tag t).restoreReset before r after x _) rfl rfl rfl
    · intro done o rest f hcur hout hf ended
      have hnotices := resetRestoreNotices_current (d := d.taken p tag t) hcur hf
      constructor
      · intro hnot
        refine hbecomes (resetOutcomes_current hcur hout) ?_ (((hsettled _).noted _ _ _).moved _)
        rw [hnotices, hnot]
        exact handOverAll_noted (d := d.taken p tag t) (e := (d.taken p tag t).restoreReset before r after x _) rfl rfl rfl
      · intro hnot
        refine hbecomes (resetOutcomes_current hcur hout) ?_ ((((hsettled _).noted _ _ _).noted _ _ _).moved _)
        rw [hnotices, hnot]
        exact handOverAll_noted_noted (d := d.taken p tag t) (e := (d.taken p tag t).restoreReset before r after x _)
          rfl rfl rfl
  case pass =>
    intro q x hd hu hc hs hr hpass hv ended
    exact h.pass (hslots hu) hc (unstoredSlots_nil hs) (openRestores_nil hr) (hdata.trans hd) hpass hv

end Sys2Proof.Machine
end

section
/-! ### Limits, usage and groups of the accounts (O8) -/

namespace Sys2Proof.Machine

/-! #### What an account and the tables are -/

/-- R19: the ranges of an account that hold whatever limits an ACCOUNT LOAD carries; its soft limit is clamped. -/
structure Account.InRange (x : Account) : Prop where
  usage : x.usage ≤ Config.accountMax
  grace : x.grace ≤ 2160
  group : x.group ≤ 1023
  soft : 0 < x.hard → x.soft ≤ x.hard

/-- R37: both limits fit their four bytes. -/
structure Account.LimitsFit (x : Account) : Prop where
  soft : x.soft ≤ Config.accountMax
  hard : x.hard ≤ Config.accountMax

theorem Account.sound_iff {x : Account} : x.Sound ↔ x.InRange ∧ x.LimitsFit :=
  ⟨fun ⟨hs, hh, hu, hg, hk, hc⟩ => ⟨⟨hu, hg, hk, hc⟩, hs, hh⟩, fun ⟨⟨hu, hg, hk, hc⟩, hs, hh⟩ => ⟨hs, hh, hu, hg, hk, hc⟩⟩

/-- R21, R41: group g may have this limit. -/
def Group.LimitFits (g : Nat) (x : Group) : Prop := (g = 0 → x.limit = 0) ∧ x.limit ≤ Config.groupMax

/-- What `Device.QuotaSound` says, of the core, the account limits left aside. -/
structure Core.QuotaInRange (c : Core) : Prop where
  accounts : Table.Wf Account.initial c.accounts
  groups : Table.Wf Group.initial c.groups
  account : ∀ a, (c.account a).InRange
  group : ∀ g, (c.group g).LimitFits g

/-- Every account's limits fit, said of the core. -/
def Core.LimitsFit (c : Core) : Prop := ∀ a, (c.account a).LimitsFit

theorem quotaSound_iff {d : Device} : d.QuotaSound ↔ d.core.QuotaInRange ∧ d.core.LimitsFit := by
  constructor
  · rintro ⟨ha, hg, hx, hz, hl⟩
    exact ⟨⟨ha, hg, fun a => (Account.sound_iff.1 (hx a)).1, fun g => ⟨fun h => h ▸ hz, hl g⟩⟩,
      fun a => (Account.sound_iff.1 (hx a)).2⟩
  · rintro ⟨⟨ha, hg, hx, hl⟩, hf⟩
    exact ⟨ha, hg, fun a => Account.sound_iff.2 ⟨hx a, hf a⟩, (hl 0).1 rfl, fun g => (hl g).2⟩

/-! #### Ranges of accounts and groups -/

section
variable {c c' : Core}

theorem Core.QuotaInRange.putAccount (h : c.QuotaInRange) (a : Nat) {x : Account} (hx : x.InRange) :
    ({ c with accounts := c.accounts.put Account.initial a x } : Core).QuotaInRange where
  accounts := h.accounts.put a x
  groups := h.groups
  group := h.group
  account b := by
    rw [Core.account, Table.get_put]
    split
    · exact hx
    · exact h.account b

theorem Core.QuotaInRange.putGroup (h : c.QuotaInRange) (g : Nat) {x : Group} (hx : x.LimitFits g) :
    ({ c with groups := c.groups.put Group.initial g x } : Core).QuotaInRange where
  accounts := h.accounts
  groups := h.groups.put g x
  account := h.account
  group k := by
    rw [Core.group, Table.get_put]
    split
    · rename_i hk; exact hk ▸ hx
    · exact h.group k

/-- A group that keeps its limit. -/
theorem Core.QuotaInRange.limitFits (h : c.QuotaInRange) (g : Nat) {x : Group} (hx : x.limit = (c.group g).limit) :
    x.LimitFits g := by
  have hg := h.group g
  exact ⟨fun h0 => hx.trans (hg.1 h0), hx ▸ hg.2⟩

theorem AccountStep.inRange {x y : Account} (h : AccountStep x y) (hx : x.InRange) : y.InRange where
  usage := h.usage ▸ hx.usage
  grace := h.grace ▸ hx.grace
  group := h.group ▸ hx.group
  soft := by rw [h.soft, h.hard]; exact hx.soft

theorem Prim.quotaInRange (h : Prim c c') (hc : c.QuotaInRange) : c'.QuotaInRange := by
  cases h with
  | account a x hs => exact hc.putAccount a (hs.inRange (hc.account a))
  | group g x hs => exact hc.putGroup g (hc.limitFits g hs.limit)
  | usage a n x y hx hy =>
    have ha := hc.account a
    refine (hc.putAccount a ?_).putGroup _ (hc.limitFits _ (by rw [hy]))
    rw [hx]
    exact ⟨Nat.min_le_right _ _, ha.grace, ha.group, ha.soft⟩
  | _ => exact ⟨hc.accounts, hc.groups, hc.account, hc.group⟩

theorem Extra.quotaInRange {allow : Special → Prop} (h : Extra allow c c') (hc : c.QuotaInRange) : c'.QuotaInRange := by
  cases h with
  | prim _ hp => exact hp.quotaInRange hc
  | release a n x y _ hx hy =>
    have ha := hc.account a
    refine (hc.putAccount a ?_).putGroup _ (hc.limitFits _ (by rw [hy]))
    rw [hx]
    exact ⟨(Nat.sub_le _ _).trans ha.usage, ha.grace, ha.group, ha.soft⟩
  | dates a x hx =>
    have ha := hc.account a
    refine hc.putAccount a ?_
    rw [hx]
    exact ⟨ha.usage, ha.grace, ha.group, ha.soft⟩
  | limits a x hx hs hg =>
    have ha := hc.account a
    refine hc.putAccount a ⟨?_, hg, ?_, hs⟩
    · rw [hx]; exact ha.usage
    · rw [hx]; exact ha.group
  | move a g x old new hg _ hx ho hn =>
    have ha := hc.account a
    refine ((hc.putAccount a ?_).putGroup (c.account a).group (hc.limitFits _ (by rw [ho]))).putGroup g
      (hc.limitFits g (by rw [hn]))
    rw [hx]
    exact ⟨ha.usage, ha.grace, hg, ha.soft⟩
  | usage a u x y hu hx hy =>
    have ha := hc.account a
    refine (hc.putAccount a ?_).putGroup _ (hc.limitFits _ (by rw [hy]))
    rw [hx]
    exact ⟨hu, ha.grace, ha.group, ha.soft⟩
  | limit g l h0 hl => exact hc.putGroup g ⟨h0, hl⟩
  | _ => exact ⟨hc.accounts, hc.groups, hc.account, hc.group⟩

end

/-! #### Limits: only ACCOUNT LOAD sets them -/

section
variable {d e : Device}

theorem Core.LimitsFit.of_accounts (h : d.core.LimitsFit) (he : e.accounts = d.accounts) : e.core.LimitsFit := by
  intro a
  have ha : e.core.account a = d.core.account a := congrArg (Table.get Account.initial · a) he
  exact ha ▸ h a

theorem Core.LimitsFit.of_core (h : d.core.LimitsFit) (he : e.core = d.core) : e.core.LimitsFit := he ▸ h

theorem limitsFit_put {c : Core} (h : c.LimitsFit) (a : Nat) {x : Account} (hx : x.LimitsFit) (b : Nat) :
    (Table.get Account.initial (c.accounts.put Account.initial a x) b).LimitsFit := by
  rw [Table.get_put]
  split
  · exact hx
  · exact h b

theorem Core.LimitsFit.setAccount (h : d.core.LimitsFit) (a : Nat) {x : Account} (hx : x.LimitsFit) :
    (d.setAccount a x).core.LimitsFit := limitsFit_put h a hx

theorem Prim.limitsFit {c c' : Core} (h : Prim c c') (hc : c.LimitsFit) : c'.LimitsFit := by
  cases h with
  | account a x hs =>
    have ha := hc a
    exact limitsFit_put hc a ⟨hs.soft ▸ ha.soft, hs.hard ▸ ha.hard⟩
  | usage a n x y hx hy =>
    have ha := hc a
    exact limitsFit_put hc a ⟨hx ▸ ha.soft, hx ▸ ha.hard⟩
  | _ => exact hc

theorem Change.limitsFit (h : Change d e) (hd : d.core.LimitsFit) : e.core.LimitsFit :=
  h.kept Core.LimitsFit (fun _ _ hp => hp.limitsFit) hd

theorem limitsFit_foldl (f : Device → Nat → Device) (hf : ∀ d a, d.core.LimitsFit → (f d a).core.LimitsFit) (l : List Nat)
    (d : Device) (hd : d.core.LimitsFit) : (l.foldl f d).core.LimitsFit := by
  induction l generalizing d with
  | nil => exact hd
  | cons a l ih => exact ih _ (hf d a hd)

@[simp] theorem reply_accounts (d : Device) (p : PortId) (tag : Nat) (st : MgmtStatus) (m : Option MgmtReason) (r : List Item) :
    (d.reply p tag st m r).accounts = d.accounts := congrArg Core.accounts (core_reply d p tag st m r)

@[simp] theorem deny_accounts (d : Device) (p : PortId) (tag : Nat) (st : MgmtStatus) :
    (d.deny p tag st).accounts = d.accounts := reply_accounts d p tag st none []

/-! The special commands that touch no account. -/

theorem portSet_accounts (d : Device) (p : PortId) (tag : Nat) (args : List Arg) :
    (d.portSet p tag args).accounts = d.accounts := by
  unfold Device.portSet
  repeat' split
  all_goals simp

theorem groupLoad_accounts (d : Device) (p : PortId) (tag : Nat) (args : List Arg) :
    (d.groupLoad p tag args).accounts = d.accounts := by
  unfold Device.groupLoad Device.loadGroup Device.rearmGroup
  repeat' split
  all_goals simp

theorem preserveArea_accounts (d : Device) (p : PortId) (tag : Nat) (args : List Arg) :
    (d.preserveArea p tag args).accounts = d.accounts := by
  unfold Device.preserveArea
  repeat' split
  all_goals simp

theorem volumeDefine_accounts (d : Device) (p : PortId) (tag : Nat) (args : List Arg) :
    (d.volumeDefine p tag args).accounts = d.accounts := by
  unfold Device.volumeDefine
  repeat' split
  all_goals simp

theorem noticeRead_accounts (d : Device) (p : PortId) (tag : Nat) (args : List Arg) :
    (d.noticeRead p tag args).accounts = d.accounts := by
  unfold Device.noticeRead
  repeat' split
  all_goals simp

/-! Those that write accounts. -/

theorem releaseGrains_limitsFit (h : d.core.LimitsFit) (a r : Nat) : (d.releaseGrains a r).core.LimitsFit := by
  have ha := h a
  exact (quotaChecks_change _ a).limitsFit
    ((h.setAccount a (x := { d.account a with
      usage := (d.account a).usage - d.removedCount a r
      underflow := (d.account a).underflow || decide (r > (d.account a).usage) }) ⟨ha.soft, ha.hard⟩).of_accounts rfl)

theorem wrapClock_limitsFit (h : d.core.LimitsFit) : d.wrapClock.core.LimitsFit := by
  unfold Device.wrapClock
  dsimp only
  split
  · exact (notify_change _ _ _ _).limitsFit
      (limitsFit_foldl _ (fun e a he => (undate_change e a).limitsFit he) _ _ (h.of_accounts rfl))
  · exact h.of_accounts rfl

theorem secondTick_limitsFit (h : d.core.LimitsFit) : d.secondTick.1.core.LimitsFit := by
  unfold Device.secondTick
  dsimp only
  split
  · exact wrapClock_limitsFit (h.of_accounts rfl)
  · split
    · exact (expiryScan_change _ _).limitsFit (h.of_accounts rfl)
    · exact h.of_accounts rfl

theorem dateAccount_limitsFit (h : d.core.LimitsFit) (a : Nat) : (d.dateAccount a).core.LimitsFit := by
  have ha := h a
  exact h.setAccount a (x := { d.account a with deadline := some (d.clock.time.addHours (d.account a).grace) })
    ⟨ha.soft, ha.hard⟩

theorem timeSet_limitsFit (h : d.core.LimitsFit) (p : PortId) (tag : Nat) (args : List Arg) :
    (d.timeSet p tag args).core.LimitsFit := by
  have load (t : CalTime) : (d.loadTime t).core.LimitsFit := by
    unfold Device.loadTime
    dsimp only
    split
    · exact h.of_accounts rfl
    · exact limitsFit_foldl _ (fun _ a he => dateAccount_limitsFit he a) _ _ (h.of_accounts rfl)
  unfold Device.timeSet
  split
  · dsimp only
    split
    · exact (load _).of_accounts (reply_accounts _ _ _ _ _ _)
    · exact h.of_accounts (deny_accounts _ _ _ _)
  · exact h.of_accounts (deny_accounts _ _ _ _)

theorem moveGroup_limitsFit (h : d.core.LimitsFit) (a g : Nat) : (d.moveGroup a g).core.LimitsFit := by
  have ha := h a
  unfold Device.moveGroup
  dsimp only
  split
  · exact h
  · exact Core.LimitsFit.setAccount (h.of_accounts rfl) a ⟨ha.soft, ha.hard⟩

theorem loadUsage_limitsFit (h : d.core.LimitsFit) (a u : Nat) : (d.loadUsage a u).core.LimitsFit := by
  have ha := h a
  exact (h.setAccount a (x := { d.account a with usage := u, underflow := false }) ⟨ha.soft, ha.hard⟩).of_accounts rfl

theorem loadAccount_limitsFit (h : d.core.LimitsFit) {soft hard : Nat} (hs : soft ≤ Config.accountMax)
    (hh : hard ≤ Config.accountMax) (a grace group : Nat) (usage : Option Nat) :
    (d.loadAccount a soft hard grace group usage).core.LimitsFit := by
  unfold Device.loadAccount
  extract_lets x s old d1 d2 d3 d4 d5 d6
  have h1 : d1.core.LimitsFit := h.setAccount a ⟨by dsimp only [s]; split <;> assumption, hh⟩
  have h2 : d2.core.LimitsFit := moveGroup_limitsFit h1 a group
  have h3 : d3.core.LimitsFit := by
    dsimp only [d3]
    split
    · exact loadUsage_limitsFit h2 a _
    · exact h2
  have rest : Change d3 ((d5.rearmGroup old).rearmGroup group) :=
    (((loadState_change d3 a).trans (rearmAccount_change d4 a)).trans (rearmGroup_change d5 old)).trans (rearmGroup_change d6 group)
  exact rest.limitsFit h3

/-- R37, R186: the limits an ACCOUNT LOAD carries fit their four bytes. -/
theorem accountLoad_limits {area : List Byte} {a soft hard grace group present usage : Nat}
    (h : readArgs CommandName.accountLoad.shape area
      = some [.num a, .num soft, .num hard, .num grace, .num group, .num present, .num usage]) :
    soft ≤ Config.accountMax ∧ hard ≤ Config.accountMax := by
  obtain ⟨_, _, e1, h1, -⟩ := readArgs_cons h
  cases e1
  obtain ⟨_, _, e2, h2, hs⟩ := readArgs_cons h1
  cases e2
  obtain ⟨_, _, e3, -, hh⟩ := readArgs_cons h2
  cases e3
  obtain ⟨w, hw, hs⟩ := hs soft rfl
  cases hw
  obtain ⟨w, hw, hh⟩ := hh hard rfl
  cases hw
  simp only [Config.accountMax]
  omega

theorem accountLoad_limitsFit (h : d.core.LimitsFit) (p : PortId) (tag : Nat) {args : List Arg}
    (ha : ∃ area, readArgs CommandName.accountLoad.shape area = some args) : (d.accountLoad p tag args).core.LimitsFit := by
  unfold Device.accountLoad
  split
  · obtain ⟨area, ha⟩ := ha
    obtain ⟨hs, hh⟩ := accountLoad_limits ha
    split
    · exact h.of_accounts (deny_accounts _ _ _ _)
    · exact (loadAccount_limitsFit h hs hh _ _ _ _).of_accounts (reply_accounts _ _ _ _ _ _)
  · exact h.of_accounts (deny_accounts _ _ _ _)

/-- What the taking of a command keeps: the checks that stop it touch no account, and its body has arguments of its
shape. -/
theorem takeNow_limitsFit (h : d.core.LimitsFit) (p : PortId) (tag : Nat) (n : CommandName)
    (body : Device → List Arg → Device)
    (hb : ∀ e args, e.core.LimitsFit → (∃ area, readArgs n.shape area = some args) → (body e args).core.LimitsFit) :
    (d.takeNow p tag n body).core.LimitsFit := by
  unfold Device.takeNow Device.take
  split
  · exact h
  · split
    · exact h
    · split
      · dsimp only
        split
        · exact h.of_core (core_reply (d.setTxn p tag _) _ _ _ _ _)
        · rename_i args ha
          split
          · exact h.of_core (core_reply (d.setTxn p tag _) _ _ _ _ _)
          · exact hb _ args (h.of_core (core_setTxn _ _ _ _)) ⟨_, ha⟩
      · exact h

end

theorem event_limitsFit {f : Device → Device} {s t : State} (h : s.event f = .next t) (hs : s.dev.core.LimitsFit)
    (hf : (f s.dev).core.LimitsFit) : t.dev.core.LimitsFit := by
  obtain ⟨-, hlow, hhigh⟩ := event_eq h
  cases hr : s.dev.resetLow with
  | true => rw [hlow hr]; exact hs
  | false => rw [hhigh hr]; exact hf

/-- R37: after any command every account's limits fit, as they did before. -/
theorem exec_limitsFit {i : Instr} {s t : State} (h : exec i s = .next t) (hs : s.dev.core.LimitsFit) :
    t.dev.core.LimitsFit := by
  by_cases hi : ordinary i = true
  · exact (exec_change hi h).limitsFit hs
  · cases i with
    | release p hd =>
      refine event_limitsFit h hs ?_
      split
      · split
        · exact hs.of_accounts rfl
        · exact Core.LimitsFit.of_core (releaseGrains_limitsFit (d := s.dev.openTxn p hd .release [] .admitting none)
            (hs.of_accounts rfl) _ _) (core_endTxn _ _ _ _ _ _)
      · exact hs
    | serverLinkUp p =>
      refine event_limitsFit h hs ?_
      split
      · exact hs.of_accounts rfl
      · exact hs
    | serverLinkDown p =>
      refine event_limitsFit h hs ?_
      split
      · exact ((discardPort_change _ p).trans (settle_change _)).limitsFit
          (hs.of_accounts (e := s.dev.setPort p { s.dev.port p with link := .down }) rfl)
      · exact hs
    | poolLinkDown =>
      refine event_limitsFit h hs ?_
      split
      · exact (settle_change _).limitsFit (hs.of_accounts rfl)
      · exact hs
    | poolLinkUp =>
      simp only [exec, execPoolLinkUp] at h
      exact event_limitsFit h hs (hs.of_accounts rfl)
    | secondTick =>
      simp only [exec, execSecondTick] at h
      exact event_limitsFit h hs ((settle_change _).limitsFit (secondTick_limitsFit hs))
    | portSet p tag =>
      exact event_limitsFit h hs (takeNow_limitsFit hs _ _ _ _ fun _ _ he _ => he.of_accounts (portSet_accounts _ _ _ _))
    | timeSet p tag => exact event_limitsFit h hs (takeNow_limitsFit hs _ _ _ _ fun _ _ he _ => timeSet_limitsFit he _ _ _)
    | accountLoad p tag =>
      exact event_limitsFit h hs (takeNow_limitsFit hs _ _ _ _ fun _ _ he ha => accountLoad_limitsFit he _ _ ha)
    | groupLoad p tag =>
      exact event_limitsFit h hs (takeNow_limitsFit hs _ _ _ _ fun _ _ he _ => he.of_accounts (groupLoad_accounts _ _ _ _))
    | preserveArea p tag =>
      exact event_limitsFit h hs
        (takeNow_limitsFit hs _ _ _ _ fun _ _ he _ => he.of_accounts (preserveArea_accounts _ _ _ _))
    | volumeDefine p tag =>
      exact event_limitsFit h hs
        (takeNow_limitsFit hs _ _ _ _ fun _ _ he _ => he.of_accounts (volumeDefine_accounts _ _ _ _))
    | noticeRead p tag =>
      exact event_limitsFit h hs (takeNow_limitsFit hs _ _ _ _ fun _ _ he _ => he.of_accounts (noticeRead_accounts _ _ _ _))
    | resetAssert =>
      cases h
      exact fun _ => ⟨Nat.zero_le _, Nat.zero_le _⟩
    | resetRelease l =>
      simp only [exec, execResetRelease] at h
      cases h
      split
      · exact hs.of_accounts rfl
      · exact hs
    | _ => exact absurd rfl hi

theorem step_limitsFit {s t : State} (h : step s = .next t) (hs : s.dev.core.LimitsFit) : t.dev.core.LimitsFit := by
  unfold step at h
  split at h
  · cases h; exact hs
  · exact exec_limitsFit (s := { s with pending := _ }) h hs

/-! #### The sums of usage -/

/-- What an account adds to the usage of group g. -/
def Account.usageIn (g : Nat) (x : Account) : Nat := if x.group = g then x.usage else 0

/-- The sum of usage over the accounts of a table whose group is g (`Device.memberUsage`). -/
def memberSum (t : Table Account) (g : Nat) : Nat := (t.map fun e => e.2.usageIn g).sum

/-- `Device.UsageSums`, said of the core. -/
def Core.UsageSums (c : Core) : Prop :=
  Table.Wf Account.initial c.accounts ∧ (∀ a, (c.account a).usage ≤ Config.accountMax)
    ∧ ∀ g, (c.group g).usage = memberSum c.accounts g

theorem usageSums_iff {d : Device} : d.UsageSums ↔ d.core.UsageSums := Iff.rfl

theorem Account.usageIn_same {x : Account} {g : Nat} (h : x.group = g) : x.usageIn g = x.usage := if_pos h

theorem Account.usageIn_other {x : Account} {g : Nat} (h : x.group ≠ g) : x.usageIn g = 0 := if_neg h

/-- An unlisted account adds nothing. -/
theorem Account.usageIn_initial (g : Nat) : Account.initial.usageIn g = 0 := ite_self 0

theorem Account.usageIn_congr {x y : Account} (hg : y.group = x.group) (hu : y.usage = x.usage) (g : Nat) :
    y.usageIn g = x.usageIn g := by rw [usageIn, usageIn, hg, hu]

/-- An account set again changes the sum of a group by what it adds to it. -/
theorem memberSum_put {t : Table Account} (h : t.Sorted) (a : Nat) (x : Account) (g : Nat) :
    memberSum (t.put Account.initial a x) g + (t.get Account.initial a).usageIn g = memberSum t g + x.usageIn g :=
  Table.sum_put (Account.usageIn g) t h (Account.usageIn_initial g) a x

section
variable {c c' : Core}

/-- R21: an account's usage is part of its group's. -/
theorem Core.UsageSums.usage_le (h : c.UsageSums) (a : Nat) : (c.account a).usage ≤ (c.group (c.account a).group).usage := by
  obtain ⟨hw, -, hs⟩ := h
  have hput : _ + (c.account a).usageIn (c.account a).group = memberSum c.accounts (c.account a).group + _ :=
    memberSum_put hw.1 a Account.initial _
  rw [Account.usageIn_same rfl, Account.usageIn_initial, ← hs] at hput
  omega

/-- An account set again, with every group's usage following it. -/
theorem Core.UsageSums.put (h : c.UsageSums) (a : Nat) {x : Account} {groups : Table Group} (hx : x.usage ≤ Config.accountMax)
    (hg : ∀ g, (groups.get Group.initial g).usage + (c.account a).usageIn g = (c.group g).usage + x.usageIn g) :
    ({ c with accounts := c.accounts.put Account.initial a x, groups := groups } : Core).UsageSums := by
  obtain ⟨hw, hu, hs⟩ := h
  refine ⟨hw.put a x, fun b => ?_, fun g => ?_⟩
  · rw [Core.account, Table.get_put]
    split
    · exact hx
    · exact hu b
  · have hput := memberSum_put hw.1 a x g
    have hgrp := hg g
    have hsum := hs g
    rw [Core.account] at hgrp
    rw [Core.group]
    dsimp only
    omega

/-- An account that keeps its usage and its group. -/
theorem Core.UsageSums.putSame (h : c.UsageSums) (a : Nat) {x : Account} (hg : x.group = (c.account a).group)
    (hu : x.usage = (c.account a).usage) :
    ({ c with accounts := c.accounts.put Account.initial a x } : Core).UsageSums :=
  h.put a (hu ▸ h.2.1 a) fun g => by rw [Account.usageIn_congr hg hu]; rfl

/-- A group that keeps its usage. -/
theorem Core.UsageSums.putGroup (h : c.UsageSums) (g : Nat) {y : Group} (hy : y.usage = (c.group g).usage) :
    ({ c with groups := c.groups.put Group.initial g y } : Core).UsageSums := by
  refine ⟨h.1, h.2.1, fun k => ?_⟩
  rw [Core.group, Table.get_put]
  split
  · rename_i hk; rw [hy, ← hk]; exact h.2.2 k
  · exact h.2.2 k

/-- An account whose usage changes within its group, the group's usage changing by as much. -/
theorem Core.UsageSums.putUsage (h : c.UsageSums) (a : Nat) {x : Account} {y : Group} (hx : x.usage ≤ Config.accountMax)
    (hg : x.group = (c.account a).group)
    (hy : y.usage + (c.account a).usage = (c.group (c.account a).group).usage + x.usage) :
    ({ c with accounts := c.accounts.put Account.initial a x
              groups := c.groups.put Group.initial (c.account a).group y } : Core).UsageSums := by
  refine h.put a hx fun g => ?_
  rw [Table.get_put]
  split
  · rename_i hk
    subst hk
    rw [Account.usageIn_same rfl, Account.usageIn_same hg, hy]
  · rename_i hk
    rw [Account.usageIn_other (Ne.symm hk), Account.usageIn_other (hg.trans_ne (Ne.symm hk))]
    rfl

/-- R39: an account that moves to another group, its usage with it. -/
theorem Core.UsageSums.putMoved (h : c.UsageSums) (a g : Nat) {x : Account} {old new : Group} (hne : g ≠ (c.account a).group)
    (hx : x = { c.account a with group := g })
    (ho : old.usage = (c.group (c.account a).group).usage - (c.account a).usage)
    (hn : new.usage = (c.group g).usage + (c.account a).usage) :
    ({ c with accounts := c.accounts.put Account.initial a x
              groups := (c.groups.put Group.initial (c.account a).group old).put Group.initial g new } : Core).UsageSums := by
  have hle := h.usage_le a
  have hxu : x.usage = (c.account a).usage := by rw [hx]
  have hxg : x.group = g := by rw [hx]
  refine h.put a (hxu ▸ h.2.1 a) fun k => ?_
  by_cases hk : k = g
  · subst hk
    rw [Table.get_put_same, Account.usageIn_other (Ne.symm hne), Account.usageIn_same hxg, hn, hxu]
    rfl
  · rw [Table.get_put_other _ _ _ hk, Table.get_put, Account.usageIn_other (x := x) (hxg.trans_ne (Ne.symm hk))]
    split
    · rename_i hk'
      subst hk'
      rw [Account.usageIn_same rfl, ho]
      omega
    · rename_i hk'
      rw [Account.usageIn_other (Ne.symm hk')]
      rfl

theorem Prim.usageSums (h : Prim c c') (hc : c.UsageSums) : c'.UsageSums := by
  cases h with
  | account a x hs => exact hc.putSame a hs.group hs.usage
  | group g x hs => exact hc.putGroup g hs.usage
  | usage a n x y hx hy =>
    have hu := hc.2.1 a
    have hxu : x.usage = min ((c.account a).usage + n) Config.accountMax := by rw [hx]
    have hyu : y.usage = (c.group (c.account a).group).usage + (x.usage - (c.account a).usage) := by rw [hy]
    exact hc.putUsage a (by omega) (by rw [hx]) (by omega)
  | _ => exact hc

theorem Extra.usageSums {allow : Special → Prop} (h : Extra allow c c') (hc : c.UsageSums) : c'.UsageSums := by
  cases h with
  | prim _ hp => exact hp.usageSums hc
  | release a n x y hn hx hy =>
    have hu := hc.2.1 a
    have hle := hc.usage_le a
    have hxu : x.usage = (c.account a).usage - n := by rw [hx]
    have hyu : y.usage = (c.group (c.account a).group).usage - n := by rw [hy]
    exact hc.putUsage a (by omega) (by rw [hx]) (by omega)
  | dates a x hx => exact hc.putSame a (by rw [hx]) (by rw [hx])
  | limits a x hx _ _ => exact hc.putSame a (by rw [hx]) (by rw [hx])
  | move a g x old new _ hne hx ho hn => exact hc.putMoved a g hne hx (by rw [ho]) (by rw [hn])
  | usage a u x y hu hx hy =>
    have hle := hc.usage_le a
    have hxu : x.usage = u := by rw [hx]
    have hyu : y.usage = (c.group (c.account a).group).usage + u - (c.account a).usage := by rw [hy]
    exact hc.putUsage a (hxu ▸ hu) (by rw [hx]) (by omega)
  | limit g l _ _ => exact hc.putGroup g rfl
  | _ => exact hc

end

/-- Settles O8: each single change keeps the ranges and the sums (`step_kept`), and only ACCOUNT LOAD, whose limits have
four bytes, sets a limit. -/
theorem quotaInvariantsKept : Obligations.QuotaInvariantsKept := by
  obtain ⟨-, -, -, hquota, husage, -, -⟩ := invariantsAtReset
  refine ⟨fun s t hs ht => ?_, fun s t hs ht => ?_⟩
  · obtain ⟨hrange, hfit⟩ := quotaSound_iff.1 hs
    obtain ⟨hreset, -⟩ := quotaSound_iff.1 hquota
    refine quotaSound_iff.2 ⟨?_, step_limitsFit ht hfit⟩
    refine step_kept Core.QuotaInRange (fun _ _ _ _ h => h.quotaInRange) (fun d => ?_) (fun d l _ hd => ?_) hrange ht
    · exact ⟨hreset.accounts, hreset.groups, hreset.account, hreset.group⟩
    · exact ⟨hd.accounts, hd.groups, hd.account, hd.group⟩
  · refine usageSums_iff.2 (step_kept Core.UsageSums (fun _ _ _ _ h => h.usageSums) (fun d => ?_) (fun d l _ hd => hd)
      (usageSums_iff.1 hs) ht)
    exact usageSums_iff.1 husage

end Sys2Proof.Machine
end

section
/-! ### The armed flags after their checks (R34, R35) -/

namespace Sys2Proof.Machine

/-- R34: the check of the hard notice sets its armed flag alone. -/
theorem Account.rearm_eq (x : Account) : x.rearm = { x with
    hardArmed := x.hardArmed || decide (x.limit < 4294967295 ∧ x.usage + x.held ≤ x.limit - x.limit / 16) } := by
  rw [← account_rearm_hardArmed]
  unfold Account.rearm
  split <;> rfl

/-- R35: the check of the full notice sets its armed flag alone. -/
theorem Group.rearm_eq (g : Group) : g.rearm = { g with
    fullArmed := g.fullArmed || decide (g.limit = 0 ∨ g.usage + g.held ≤ g.limit - g.limit / 16) } := by
  rw [← group_rearm_fullArmed]
  unfold Group.rearm
  split <;> rfl

end Sys2Proof.Machine
end

section
/-! ### GROUP LOAD, ACCOUNT READ and GROUP READ (O28) -/

namespace Sys2Proof.Machine

section
variable {s : State} {p : PortId} {tag : Nat} {t : Txn} {n l : Nat}

/-- R41: an accepted GROUP LOAD sets one group. -/
theorem loadGroup_eq (d : Device) (n l : Nat) :
    ∃ groups, d.loadGroup n l = { d with groups := groups }
      ∧ (d.loadGroup n l).group n = ({ d.group n with limit := l } : Group).rearm
      ∧ ∀ k, k ≠ n → (d.loadGroup n l).group k = d.group k := by
  refine ⟨_, rfl, ?_, fun k hk => ?_⟩
  · rw [Device.loadGroup, Device.rearmGroup, group_setGroup, group_setGroup]
  · rw [Device.loadGroup, Device.rearmGroup, group_setGroup_other _ _ hk, group_setGroup_other _ _ hk]

theorem exec_groupLoad (h : s.Issued p tag .groupLoad t [.num n, .num l]) :
    exec (.groupLoad p tag) s = .next { s with dev := (s.dev.taken p tag t).groupLoad p tag [.num n, .num l] } := by
  simp only [exec, execGroupLoad, event_high _ h.high, takeNow_issued h]

theorem exec_accountRead (h : s.Issued p tag .accountRead t [.num n]) :
    exec (.accountRead p tag) s = .next { s with dev := (s.dev.taken p tag t).accountRead p tag [.num n] } := by
  simp only [exec, execAccountRead, event_high _ h.high, takeNow_issued h]

theorem exec_groupRead (h : s.Issued p tag .groupRead t [.num n]) :
    exec (.groupRead p tag) s = .next { s with dev := (s.dev.taken p tag t).groupRead p tag [.num n] } := by
  simp only [exec, execGroupRead, event_high _ h.high, takeNow_issued h]

theorem badGroupLoad_iff (n l : Nat) :
    badGroupLoad n l = true ↔ n > 1023 ∨ l > 281474976710655 ∨ (n = 0 ∧ l > 0) := by
  simp [badGroupLoad, or_assoc]

/-- The refusal of a command just taken (R174). -/
theorem deny_taken (d : Device) (p : PortId) (tag : Nat) (t : Txn) (st : MgmtStatus) :
    (d.taken p tag t).deny p tag st = d.answered p tag t st none [] := reply_taken d p tag t st none []

/-- R42, R186: the name of a quota state, and the fields of a deadline that may be absent. -/
theorem quotaState_name (q : QuotaState) : q.name = match q with
    | .under => .under
    | .soft => .soft
    | .expired => .expired := by cases q <;> rfl

theorem optTime_eq (o : Option CalTime) : Item.optTime o = match o with
    | none => [.num 1 0, .raw (List.replicate 8 0)]
    | some e => [.num 1 1, .time e] := by cases o <;> rfl

/-- An accepted GROUP LOAD stores the limit and answers with the group (R41). -/
theorem groupLoad_accepted (h : s.Issued p tag .groupLoad t [.num n, .num l]) (hb : badGroupLoad n l = false) :
    let x := ({ s.dev.group n with limit := l } : Group).rearm
    ∃ e, exec (.groupLoad p tag) s = .next e ∧ e.dev = { s.dev.answered p tag t .ok none x.items with groups := e.dev.groups }
      ∧ e.dev.group n = x ∧ ∀ k, k ≠ n → e.dev.group k = s.dev.group k := by
  intro x
  obtain ⟨groups, he, hx, hk⟩ := loadGroup_eq (s.dev.taken p tag t) n l
  have hx : Table.get Group.initial groups n = x := by rw [he] at hx; exact hx
  have hdev : (s.dev.taken p tag t).groupLoad p tag [.num n, .num l]
      = { s.dev.answered p tag t .ok none x.items with groups := groups } := by
    have hload : (s.dev.taken p tag t).groupLoad p tag [.num n, .num l]
        = ((s.dev.taken p tag t).loadGroup n l).reply p tag .ok none (((s.dev.taken p tag t).loadGroup n l).group n).items := by
      simp only [Device.groupLoad, hb, Bool.false_eq_true, if_false]
    rw [hload, he]
    show (({ s.dev with groups := groups } : Device).taken p tag t).reply p tag .ok none
      (Table.get Group.initial groups n).items = _
    rw [hx, reply_taken]
    rfl
  refine ⟨_, exec_groupLoad h, ?_, ?_, ?_⟩
  · rw [hdev]
  · rw [hdev]; exact hx
  · intro k hne; rw [hdev]; rw [he] at hk; exact hk k hne

end

/-- Settles O28: each command taken (`takeNow_issued`), refused (`deny_taken`) or answered (`reply_taken`). -/
theorem groupLoadAndQuotaReads : Obligations.GroupLoadAndQuotaReads := by
  refine ⟨fun s p tag t n l h => ?load, fun s p tag t n => ⟨fun h => ?account, fun h => ?group⟩⟩
  case load =>
    intro g armed
    refine ⟨fun hb => ?_, fun hn hl h0 => ?_⟩
    · have hb := (badGroupLoad_iff n l).2 hb
      simp only [exec_groupLoad h, Device.groupLoad, hb, if_true, deny_taken]
    · have hb : badGroupLoad n l = false := by
        rw [← Bool.not_eq_true, badGroupLoad_iff]
        omega
      have hload := groupLoad_accepted h hb
      rwa [Group.rearm_eq] at hload
  case account =>
    intro a limit
    rw [exec_accountRead h]
    refine ⟨fun hn => ?_, fun hn => ?_⟩
    · simp only [Device.accountRead, hn, if_true, deny_taken]
    · have hn : ¬ n > 65535 := by omega
      simp only [Device.accountRead, hn, if_false, reply_taken, Account.readItems, fields, quotaState_name, optTime_eq,
        List.flatten_cons, List.flatten_nil, List.append_nil, ← List.append_assoc]
      rfl
  case group =>
    intro g
    rw [exec_groupRead h]
    refine ⟨fun hn => ?_, fun hn => ?_⟩
    · simp only [Device.groupRead, hn, if_true, deny_taken]
    · have hn : ¬ n > 1023 := by omega
      simp only [Device.groupRead, hn, if_false, reply_taken]
      rfl

end Sys2Proof.Machine
end

section
/-! ### An accepted RELEASE (O21) -/

namespace Sys2Proof.Machine

/-- R31: an account that releases r grains, before its checks. -/
def Account.released (x : Account) (r : Nat) : Account :=
  { x with usage := x.usage - min r x.usage, underflow := x.underflow || decide (r > x.usage) }

/-- R30, R31, R34: an account after a RELEASE of r grains and its checks. -/
theorem Account.released_checked (x : Account) (r : Nat) :
    let b := (x.released r).rechecked.rearm
    let n := min r x.usage
    let back : Prop := x.state ≠ .under ∧ x.usage - n + x.held ≤ x.soft
    b.usage = x.usage - n ∧ b.held = x.held ∧ b.soft = x.soft ∧ b.hard = x.hard ∧ b.grace = x.grace
      ∧ b.group = x.group ∧ b.underflow = (x.underflow || decide (x.usage < r))
      ∧ (back → b.state = .under ∧ b.deadline = none) ∧ (¬ back → b.state = x.state ∧ b.deadline = x.deadline)
      ∧ b.hardArmed = (x.hardArmed || decide (b.limit < 4294967295 ∧ b.usage + b.held ≤ b.limit - b.limit / 16)) := by
  rw [Account.rearm_eq, Account.rechecked]
  by_cases hb : (x.released r).state ≠ .under ∧ (x.released r).usage + (x.released r).held ≤ (x.released r).soft
  · rw [if_pos hb]
    exact ⟨rfl, rfl, rfl, rfl, rfl, rfl, rfl, fun _ => ⟨rfl, rfl⟩, fun h => absurd hb h, rfl⟩
  · rw [if_neg hb]
    exact ⟨rfl, rfl, rfl, rfl, rfl, rfl, rfl, fun h => absurd h hb, fun _ => ⟨rfl, rfl⟩, rfl⟩

/-- R31: everything a RELEASE of r grains does to accounts, groups and clock. -/
theorem releaseGrains_spec (d : Device) (a r : Nat) :
    let x := d.account a
    let e := d.releaseGrains a r
    e = { d with accounts := e.accounts, groups := e.groups, clock := e.clock }
      ∧ (∀ b, b ≠ a → e.account b = d.account b)
      ∧ (∀ k, k ≠ x.group → e.group k = d.group k)
      ∧ e.account a = (x.released r).rechecked.rearm
      ∧ e.group x.group = ({ d.group x.group with usage := (d.group x.group).usage - min r x.usage } : Group).rearm
      ∧ e.clock = if (x.released r).state ≠ .under ∧ (x.released r).usage + x.held ≤ x.soft then
          { d.clock with graceList := d.clock.graceList.filter (· ≠ a), undated := d.clock.undated.filter (· ≠ a) }
        else d.clock := by
  intro x e
  have h := quotaChecks_spec ((d.setAccount a (x.released r)).setGroup x.group
    { d.group x.group with usage := (d.group x.group).usage - min r x.usage }) a
  rw [account_setGroup, account_setAccount] at h
  obtain ⟨hframe, hao, hgo, ha, hg, hc⟩ := h
  refine ⟨hframe, fun b hb => ?_, fun k hk => ?_, ha, ?_, hc⟩
  · exact (hao b hb).trans (account_setAccount_other d _ hb)
  · exact (hgo k hk).trans (group_setGroup_other _ _ hk)
  · exact hg.trans (congrArg Group.rearm (group_setGroup _ _ _))

/-- R2, R6, R31: an accepted RELEASE takes its tag and frees it within its event. -/
theorem acceptRelease_eq {d e : Device} {p : PortId} {h : Header} (ht : d.txn? p h.tag = none)
    (hl : (d.port p).link = .up)
    (he : (d.openTxn p h .release [] .admitting none).releaseGrains h.account h.released = e) :
    d.acceptRelease p h = { d with
        accounts := e.accounts, groups := e.groups, clock := e.clock
        out := d.out ++ [.completion p { kind := 3, tag := h.tag, status := .ok
                                         count := min h.released (d.account h.account).usage, data := [] }] } := by
  have hframe : e = Device.openTxn { d with accounts := e.accounts, groups := e.groups, clock := e.clock } p h .release []
      .admitting none := by
    have hspec := (releaseGrains_spec (d.openTxn p h .release [] .admitting none) h.account h.released).1
    rw [he] at hspec
    exact hspec
  rw [Device.acceptRelease, he, hframe]
  refine endTxn_opened ?_ ?_ ?_ _ _ _
  exacts [ht, rfl, hl]

theorem exec_release_accepted {s : State} {p : PortId} {h : Header} (hl : s.dev.resetLow = false)
    (hu : (s.dev.port p).link = .up) (hr : s.dev.portRefusal p h h.badRelease = none) :
    exec (.release p h) s = .next { s with dev := s.dev.acceptRelease p h } := by
  simp only [exec, execRelease, event_high _ hl, Device.onUpPort, hu, if_true, hr]

/-- Settles O21: the frame is accepted, and what it leaves is what `releaseGrains_spec` says. -/
theorem releaseSettles : Obligations.ReleaseSettles := by
  intro s p h hlow hup hbad htag hfence a g n back
  have hexec := exec_release_accepted hlow hup (portRefusal_none hbad htag hfence)
  have hspec := releaseGrains_spec (s.dev.openTxn p h .release [] .admitting none) h.account h.released
  generalize he : (s.dev.openTxn p h .release [] .admitting none).releaseGrains h.account h.released = e at hspec
  rw [acceptRelease_eq htag hup he] at hexec
  obtain ⟨-, hao, hgo, ha, hg, hc⟩ := hspec
  have ha : e.account h.account = (a.released h.released).rechecked.rearm := ha
  have hg : e.group a.group = ({ g with usage := g.usage - n } : Group).rearm := hg
  rw [Group.rearm_eq] at hg
  refine ⟨_, hexec, rfl, hao, hgo, (congrArg Group.usage hg :), (congrArg Group.held hg :), (congrArg Group.limit hg :),
    (congrArg Group.fullArmed hg :), ?account, fun hb => hc.trans (if_pos hb), fun hb => hc.trans (if_neg hb)⟩
  have hchecked := Account.released_checked a h.released
  rw [← ha] at hchecked
  exact hchecked

end Sys2Proof.Machine
end

section
/-! ### The timers of grace and of liveness (O43) -/

namespace Sys2Proof.Machine

/-! #### The grace list's head -/

/-- R32: an account's grace has expired; its flags have not yet been looked at. -/
def Device.lapsed (d : Device) (a : Nat) : Device :=
  Device.noted (Device.setAccount { d with clock.graceList := d.clock.graceList.filter (· ≠ a) } a
    { d.account a with state := .expired, deadline := none }) .quotaExpired (.account a) (.number (d.account a).soft)

theorem expire_eq (d : Device) (a : Nat) :
    d.expire a = ((d.lapsed a).rearmAccount a).rearmGroup (d.account a).group := by
  unfold Device.expire
  dsimp only
  rw [notify_eq]
  rfl

/-- R32: everything the expiry of an account's grace does. -/
theorem expire_spec (d : Device) (a : Nat) :
    let x := d.account a
    let e := d.expire a
    e = { d.noted .quotaExpired (.account a) (.number x.soft) with
        accounts := e.accounts, groups := e.groups, clock.graceList := d.clock.graceList.filter fun b => b ≠ a }
      ∧ (∀ b, b ≠ a → e.account b = d.account b)
      ∧ (∀ b, b ≠ x.group → e.group b = d.group b)
      ∧ e.account a = ({ x with state := .expired, deadline := none } : Account).rearm
      ∧ e.group x.group = (d.group x.group).rearm := by
  intro x e
  have he : e = ((d.lapsed a).setAccount a ((d.lapsed a).account a).rearm).setGroup x.group (d.group x.group).rearm :=
    expire_eq d a
  have hx : (d.lapsed a).account a = { x with state := .expired, deadline := none } := account_setAccount _ a _
  have hother (b : Nat) (hb : b ≠ a) : (d.lapsed a).account b = d.account b := account_setAccount_other _ _ hb
  rw [he]
  refine ⟨rfl, fun b hb => ?_, fun b hb => group_setGroup_other _ _ hb, ?_, group_setGroup _ _ _⟩
  · rw [account_setGroup, account_setAccount_other _ _ hb, hother b hb]
  · rw [account_setGroup, account_setAccount, hx]

/-- R24: the effective limit of an EXPIRED account. -/
theorem limit_expired (x : Account) : ({ x with state := .expired, deadline := none } : Account).limit =
    if x.soft > 0 then x.soft else if x.hard > 0 then x.hard else 4294967295 := by
  simp only [Account.limit, true_and]

section
variable {d : Device} {a : Nat} {e : CalTime}

theorem graceExpiry_other (h : d.clock.valid = false ∨ d.clock.graceList.head? ≠ some a) : d.graceExpiry a = d := by
  refine if_neg ?_
  rintro ⟨hv, hh⟩
  rcases h with h | h
  · exact Bool.false_ne_true (h.symm.trans hv)
  · exact h hh

/-- R54: the scan of one account looks at the head of the list. -/
theorem graceExpiry_head (hv : d.clock.valid = true) (hh : d.clock.graceList.head? = some a)
    (hd : (d.account a).deadline = some e) :
    d.graceExpiry a = if e.rank ≤ d.clock.time.rank then d.expire a else d := by
  obtain ⟨rest, hl⟩ := List.head?_eq_some_iff.1 hh
  rw [Device.graceExpiry, if_pos ⟨hv, hh⟩, expiryScan, hl]
  dsimp only
  rw [hd]
  simp only [CalTime.le, decide_eq_true_eq, expiryScan]

end

/-! #### Ports at a quarter-second tick -/

/-- R162: the tick brings the port's counter to 0. -/
def Port.expires (x : Port) : Bool := x.counts && x.counter = 1

/-- R162, R165: a port after a quarter-second tick. -/
def Port.ticked (x : Port) : Port :=
  if x.counts then { x with counter := x.counter - 1, fence := if x.counter = 1 then some .liveness else none } else x

/-- The PORT_FENCED notice of a port whose counter has run out (R165). -/
def Device.fencedNotice (d : Device) (q : PortId) : Notice :=
  { kind := .portFenced, time := if d.clock.valid then some d.clock.time else none, subject := .port q.val
    value := .name .liveness }

/-- R162: the part once port q, without open transactions, has had its tick. -/
def Device.portTicked (d : Device) (q : PortId) : Device := { d with
  ports := d.ports.set q.val (d.port q).ticked q.isLt
  mgmt := if (d.port q).expires then d.mgmt.joined (d.fencedNotice q) else d.mgmt }

/-- R165: a port without open transactions has nothing to discard. -/
theorem discardPort_none {d : Device} {q : PortId} (h : ∀ e ∈ d.txns, e.1 / 32 ≠ q.val) : d.discardPort q = (d, []) := by
  have hnone : d.portTxns q = [] := by
    rw [Device.portTxns, List.filter_eq_nil_iff.2 fun e he => by simpa using h e he]
    rfl
  rw [Device.discardPort, hnone]
  rfl

theorem portTick_eq {d : Device} {q : PortId} (h : (d.port q).expires = true → ∀ e ∈ d.txns, e.1 / 32 ≠ q.val) :
    portTick q d = (d.portTicked q, []) := by
  by_cases hc : (d.port q).counts = true
  · have hfence : (d.port q).fence = none := by
      simp only [Port.counts, Bool.and_eq_true, decide_eq_true_eq] at hc
      exact hc.1.1.2
    by_cases h1 : (d.port q).counter = 1
    · have hx : (d.port q).expires = true := by simp [Port.expires, hc, h1]
      have hport (y : Port) : (d.setPort q y).port q = y := Vector.getElem_set_self q.isLt
      have hset (y z : Port) : (d.setPort q y).setPort q z = d.setPort q z := by
        simp only [Device.setPort, Vector.set_set]
      simp only [portTick, hc, h1, if_true, Device.fencePort, hport, hset, notify_eq]
      refine (discardPort_none ?_).trans ?_
      · exact h hx
      simp only [Device.portTicked, Port.ticked, hx, hc, h1, if_true]
      rfl
    · have hx : (d.port q).expires = false := by simp [Port.expires, h1]
      simp only [portTick, hc, h1, if_true, if_false, Device.portTicked, Port.ticked, hx, Bool.false_eq_true]
      rw [← hfence]
      rfl
  · have hx : (d.port q).expires = false := by simp [Port.expires, hc]
    have hself : d.ports.set q.val (d.port q) q.isLt = d.ports := Vector.set_getElem_self q.isLt
    simp only [portTick, hc, if_false, Device.portTicked, Port.ticked, hx, Bool.false_eq_true, hself]

@[simp] theorem portTicked_port_same (d : Device) (q : PortId) : (d.portTicked q).port q = (d.port q).ticked :=
  Vector.getElem_set_self q.isLt

theorem portTicked_port_other (d : Device) {q r : PortId} (h : r ≠ q) : (d.portTicked q).port r = d.port r :=
  Vector.getElem_set_ne q.isLt r.isLt fun e => h (Fin.ext e.symm)

/-- R162: the ticks of distinct ports, one after another. -/
theorem portTicks_runs (l : List PortId) (hn : l.Nodup) (d : Device)
    (h : ∀ q ∈ l, (d.port q).expires = true → ∀ e ∈ d.txns, e.1 / 32 ≠ q.val) :
    Runs l.length (l.map Task.portTick) d (l.foldl Device.portTicked d) := by
  induction l generalizing d with
  | nil => exact .nil d
  | cons q l ih =>
    obtain ⟨hq, hn⟩ := List.nodup_cons.1 hn
    rw [List.length_cons, Nat.add_comm]
    have htick : perform (.portTick q) d = (d.portTicked q, []) := portTick_eq (h q List.mem_cons_self)
    refine (Runs.one htick).cons (ih hn _ fun r hr hx => ?_)
    have hne : r ≠ q := fun e => hq (e ▸ hr)
    rw [portTicked_port_other d hne] at hx
    exact h r (List.mem_cons_of_mem _ hr) hx

/-- R162: the part after the ticks of distinct ports. -/
theorem portTicks_spec (l : List PortId) (hn : l.Nodup) (d : Device) :
    let e := l.foldl Device.portTicked d
    e = { d with
        ports := e.ports
        mgmt := (l.filter fun q => (d.port q).expires).foldl (fun m q => m.joined (d.fencedNotice q)) d.mgmt }
      ∧ ∀ r, e.port r = if r ∈ l then (d.port r).ticked else d.port r := by
  induction l generalizing d with
  | nil => exact ⟨rfl, fun _ => rfl⟩
  | cons q l ih =>
    obtain ⟨hq, hn⟩ := List.nodup_cons.1 hn
    obtain ⟨hf, hp⟩ := ih hn (d.portTicked q)
    have hsame (r : PortId) (hr : r ∈ l) : (d.portTicked q).port r = d.port r :=
      portTicked_port_other d fun e => hq (e ▸ hr)
    refine ⟨?_, fun r => ?_⟩
    · rw [List.foldl_cons, hf, List.filter_congr fun r hr => congrArg Port.expires (hsame r hr), List.filter_cons]
      by_cases hx : (d.port q).expires = true
      · simp only [Device.portTicked, hx, if_true, List.foldl_cons]
        rfl
      · simp only [Device.portTicked, hx, if_false, Bool.false_eq_true]
        rfl
    · rw [List.foldl_cons, hp r]
      by_cases hr : r = q
      · subst hr
        rw [if_neg hq, portTicked_port_same, if_pos List.mem_cons_self]
      · rw [portTicked_port_other d hr]
        simp only [List.mem_cons, hr, false_or]

section
variable {s : State} (hl : s.dev.resetLow = false)
include hl

theorem exec_graceExpiry (a : Nat) : exec (.graceExpiry a) s = .next { s with dev := s.dev.graceExpiry a } := by
  simp only [exec, execGraceExpiry, event_high _ hl]

theorem exec_quarterSecondTick : exec .quarterSecondTick s
    = .next { s with dev := settle (s.dev.reachQuarter, (List.finRange 4).map Task.portTick) } := by
  simp only [exec, execQuarterSecondTick, event_high _ hl]

end

/-- R162: a port counts. -/
theorem counts_iff (x : Port) : x.counts = true ↔ x.link = .up ∧ x.fence = none ∧ x.reload > 0 ∧ x.counter > 0 := by
  simp only [Port.counts, Bool.and_eq_true, decide_eq_true_eq, and_assoc]

theorem expires_iff (x : Port) :
    x.expires = true ↔ (x.link = .up ∧ x.fence = none ∧ x.reload > 0 ∧ x.counter > 0) ∧ x.counter = 1 := by
  simp only [Port.expires, Bool.and_eq_true, decide_eq_true_eq, counts_iff]

/-- Settles O43: the head of the list by `expire_spec`, the four ports by `portTicks_spec`. -/
theorem graceAndLivenessTimers : Obligations.GraceAndLivenessTimers := by
  intro s hl
  refine ⟨fun a h => ?other, fun a e hv hh hd => ?head, ?ports⟩
  case other => rw [exec_graceExpiry hl, graceExpiry_other h]
  case head =>
    intro x g
    rw [exec_graceExpiry hl, graceExpiry_head hv hh hd]
    refine ⟨fun hlt => ?_, fun hle => ?_⟩
    · rw [if_neg (by omega)]
    · rw [if_pos hle]
      obtain ⟨hf, hao, hgo, ha, hg⟩ := expire_spec s.dev a
      rw [Account.rearm_eq] at ha
      rw [Group.rearm_eq] at hg
      rw [limit_expired] at ha
      exact ⟨_, rfl, hf, hao, hgo, ha, hg⟩
  case ports =>
    intro counts ends h
    have hends : ends = (List.finRange 4).filter fun q => (s.dev.port q).expires :=
      List.filter_congr fun q _ => by rw [Bool.eq_iff_iff, decide_eq_true_eq, expires_iff]
    have hruns := portTicks_runs (List.finRange 4) (List.nodup_finRange 4) s.dev.reachQuarter fun q hq hx =>
      h q (hends ▸ List.mem_filter.2 ⟨hq, hx⟩)
    obtain ⟨hf, hp⟩ := portTicks_spec (List.finRange 4) (List.nodup_finRange 4) s.dev.reachQuarter
    rw [exec_quarterSecondTick hl, hruns.settle (by decide), hf]
    have hports : ((List.finRange 4).foldl Device.portTicked s.dev.reachQuarter).ports
        = Vector.ofFn fun q : PortId => (s.dev.port q).ticked := by
      refine Vector.ext fun i hi => ?_
      rw [Vector.getElem_ofFn]
      exact (hp ⟨i, hi⟩).trans (if_pos (List.mem_finRange _))
    have hticked (x : Port) : x.ticked =
        if counts x then { x with counter := x.counter - 1, fence := if x.counter = 1 then some .liveness else none }
        else x := if_congr (counts_iff x) rfl rfl
    simp only [hports, hends, hticked]
    rfl

end Sys2Proof.Machine
end

section
/-! ### ACCOUNT LOAD (O27) -/

namespace Sys2Proof.Machine

/-- From d to e only accounts, groups, the grace list and the undated set have changed. -/
def Device.QuotaFrame (d e : Device) : Prop :=
  e = { d with
    accounts := e.accounts, groups := e.groups
    clock.graceList := e.clock.graceList, clock.undated := e.clock.undated }

theorem Device.QuotaFrame.trans {d e f : Device} (h : d.QuotaFrame e) (h' : e.QuotaFrame f) : d.QuotaFrame f := by
  unfold Device.QuotaFrame at *
  refine h'.trans ?_
  rw [h]

theorem quotaFrame_setAccount (d : Device) (a : Nat) (x : Account) : d.QuotaFrame (d.setAccount a x) := rfl

/-! #### The record stored (R37, R39, R40) -/

section
variable (d : Device) (a : Nat)

/-- R39: everything the move of an account to a group does. -/
theorem moveGroup_spec (g : Nat) :
    let x := d.account a
    let e := d.moveGroup a g
    d.QuotaFrame e ∧ e.clock = d.clock ∧ (∀ b, b ≠ a → e.account b = d.account b) ∧ e.account a = { x with group := g }
      ∧ (∀ k, k ≠ g → k ≠ x.group → e.group k = d.group k)
      ∧ (g = x.group → e.group g = d.group g)
      ∧ (g ≠ x.group →
          e.group g = { d.group g with usage := (d.group g).usage + x.usage, held := (d.group g).held + x.held }
          ∧ e.group x.group = { d.group x.group with
              usage := (d.group x.group).usage - x.usage, held := (d.group x.group).held - x.held }) := by
  intro x e
  by_cases hg : x.group = g
  · have he : e = d := if_pos hg
    rw [he, ← hg]
    exact ⟨rfl, rfl, fun _ _ => rfl, rfl, fun _ _ _ => rfl, fun _ => rfl, fun h => absurd rfl h⟩
  · have he : e = ((d.setGroup x.group { d.group x.group with
        usage := (d.group x.group).usage - x.usage, held := (d.group x.group).held - x.held }).setGroup g
        { d.group g with usage := (d.group g).usage + x.usage, held := (d.group g).held + x.held }).setAccount a
        { x with group := g } := by
      simp only [e, Device.moveGroup]
      rw [if_neg hg, group_setGroup_other d _ (Ne.symm hg)]
    rw [he]
    refine ⟨rfl, rfl, fun b hb => account_setAccount_other _ _ hb, account_setAccount _ _ _, fun k hk hk' => ?_,
      fun h => absurd h.symm hg, fun _ => ⟨?_, ?_⟩⟩
    · rw [group_setAccount, group_setGroup_other _ _ hk, group_setGroup_other _ _ hk']
    · rw [group_setAccount, group_setGroup]
    · rw [group_setAccount, group_setGroup_other _ _ hg, group_setGroup]

/-- R40: everything a carried usage does. -/
theorem loadUsage_spec (u : Nat) :
    let x := d.account a
    let e := d.loadUsage a u
    d.QuotaFrame e ∧ e.clock = d.clock ∧ (∀ b, b ≠ a → e.account b = d.account b)
      ∧ e.account a = { x with usage := u, underflow := false }
      ∧ (∀ k, k ≠ x.group → e.group k = d.group k)
      ∧ e.group x.group = { d.group x.group with usage := (d.group x.group).usage + u - x.usage } :=
  ⟨rfl, rfl, fun _ hb => account_setAccount_other _ _ hb, account_setAccount _ _ _,
    fun _ hk => group_setGroup_other _ _ hk, group_setGroup _ _ _⟩

end

/-- R37, R39, R40: what an ACCOUNT LOAD carries, its limits and grace hours clamped. -/
structure Load where
  soft : Nat
  hard : Nat
  grace : Nat
  group : Nat
  usage : Option Nat

/-- R37, R40: the account with what a load carries, its state not yet looked at. -/
def Account.loaded (x : Account) (l : Load) : Account := { x with
  soft := l.soft, hard := l.hard, grace := l.grace, group := l.group, usage := l.usage.getD x.usage
  underflow := if l.usage.isSome then false else x.underflow }

/-- R37, R39, R40: the part with what a load of account a carries stored. -/
def Device.stored (d : Device) (a : Nat) (l : Load) : Device :=
  let e := (d.setAccount a { d.account a with soft := l.soft, hard := l.hard, grace := l.grace }).moveGroup a l.group
  match l.usage with
  | some u => e.loadUsage a u
  | none => e

/-- R37, R39, R40: everything the storing does. -/
theorem stored_spec (d : Device) (a : Nat) (l : Load) :
    let x := d.account a
    let u := l.usage.getD x.usage
    let e := d.stored a l
    d.QuotaFrame e ∧ e.clock = d.clock ∧ (∀ b, b ≠ a → e.account b = d.account b) ∧ e.account a = x.loaded l
      ∧ (∀ k, k ≠ l.group → k ≠ x.group → e.group k = d.group k)
      ∧ (l.group = x.group → e.group l.group = { d.group l.group with usage := (d.group l.group).usage + u - x.usage })
      ∧ (l.group ≠ x.group →
          e.group l.group = { d.group l.group with
            usage := (d.group l.group).usage + u, held := (d.group l.group).held + x.held }
          ∧ e.group x.group = { d.group x.group with
              usage := (d.group x.group).usage - x.usage, held := (d.group x.group).held - x.held }) := by
  obtain ⟨soft, hard, grace, group, usage⟩ := l
  intro x u e
  have h1 : (d.setAccount a { x with soft := soft, hard := hard, grace := grace }).account a
      = { x with soft := soft, hard := hard, grace := grace } := account_setAccount d a _
  have hmove := moveGroup_spec (d.setAccount a { x with soft := soft, hard := hard, grace := grace }) a group
  rw [h1] at hmove
  obtain ⟨hf, hc, hao, ha, hgo, hsame, hmoved⟩ := hmove
  have hf := (quotaFrame_setAccount d a _).trans hf
  have hao (b : Nat) (hb : b ≠ a) := (hao b hb).trans (account_setAccount_other d _ hb)
  cases usage with
  | none =>
    refine ⟨hf, hc, hao, ha, hgo, fun h => (hsame h).trans ?_, hmoved⟩
    simp [u, x]
  | some v =>
    obtain ⟨hf', hc', hao', ha', hgo', hg'⟩ :=
      loadUsage_spec ((d.setAccount a { x with soft := soft, hard := hard, grace := grace }).moveGroup a group) a v
    rw [ha] at ha' hgo' hg'
    refine ⟨hf.trans hf', hc'.trans hc, fun b hb => (hao' b hb).trans (hao b hb), ha',
      fun k hk hk' => (hgo' k hk).trans (hgo k hk hk'), fun h => ?_, fun h => ⟨?_, ?_⟩⟩
    · refine hg'.trans ?_
      rw [hsame h]
      rfl
    · refine hg'.trans ?_
      rw [(hmoved h).1]
      simp [u]
      omega
    · exact (hgo' _ (Ne.symm h)).trans (hmoved h).2

/-! #### The state after the load (R38) -/

/-- R38: the first line of its table applies. -/
abbrev Account.Below (x : Account) : Prop := x.soft = 0 ∨ x.usage + x.held ≤ x.soft

/-- R38: the account by the first line that applies. -/
def Account.stateLoaded (x : Account) (k : Clock) : Account :=
  if x.Below then { x with state := .under, deadline := none }
  else if x.state = .under then { x with
    state := if x.grace = 0 then .expired else .soft
    deadline := if x.grace = 0 then none else if k.valid then some (k.time.addHours x.grace) else none }
  else x

/-- R27, R38: the notices of a load that brings the account into grace. -/
def Device.loadNoted (d : Device) (a : Nat) (x : Account) : Device :=
  if ¬ x.Below ∧ x.state = .under then d.graceNoted a x else d

/-- R38, R52, R53: from d to e account a, with x stored, has taken its place in the grace list and the undated set: it is in
neither, stays where it was, or enters grace. -/
def Device.ListsLoaded (d e : Device) (a : Nat) (x : Account) : Prop :=
  let enters : Prop := ¬ x.Below ∧ x.state = .under
  (x.Below → e.clock.graceList = d.clock.graceList.filter (· ≠ a) ∧ e.clock.undated = d.clock.undated.filter (· ≠ a))
    ∧ (¬ x.Below → ¬ (enters ∧ x.grace > 0) → e.clock.graceList = d.clock.graceList ∧ e.clock.undated = d.clock.undated)
    ∧ (enters → x.grace > 0 → d.clock.valid = true →
        e.JoinedGrace a d.clock.graceList e.clock.graceList ∧ e.clock.undated = d.clock.undated)
    ∧ (enters → x.grace > 0 → d.clock.valid = false → e.clock.graceList = d.clock.graceList
        ∧ ∃ before after, d.clock.undated.filter (· ≠ a) = before ++ after ∧ e.clock.undated = before ++ a :: after
          ∧ (∀ k ∈ before, k < a) ∧ ∀ k, after.head? = some k → a < k)

section
variable {d : Device} {a : Nat} {x : Account}

theorem loadState_below (hx : d.account a = x) (h : x.Below) :
    d.loadState a = (d.setAccount a { x with state := .under, deadline := none }).leaveGrace a := by
  subst hx
  exact if_pos h

theorem loadState_enters (hx : d.account a = x) (h : ¬ x.Below) (hu : x.state = .under) :
    d.loadState a = d.enterGrace a := by
  subst hx
  exact (if_neg h).trans (if_pos hu)

theorem loadState_stays (hx : d.account a = x) (h : ¬ x.Below) (hu : x.state ≠ .under) : d.loadState a = d := by
  subst hx
  exact (if_neg h).trans (if_neg hu)

/-- R38: everything the setting of the state does, but for the lists. -/
theorem loadState_spec (hx : d.account a = x) :
    let e := d.loadState a
    (d.loadNoted a x).QuotaFrame e ∧ e.groups = d.groups ∧ (∀ b, b ≠ a → e.account b = d.account b)
      ∧ e.account a = x.stateLoaded d.clock := by
  intro e
  by_cases h : x.Below
  · have he : e = _ := loadState_below hx h
    rw [he, Device.loadNoted, if_neg fun hn => hn.1 h, Account.stateLoaded, if_pos h]
    exact ⟨rfl, rfl, fun b hb => account_setAccount_other d _ hb, account_setAccount d a _⟩
  · by_cases hu : x.state = .under
    · have he : e = d.enterGrace a := loadState_enters hx h hu
      obtain ⟨hf, hao, ha, -, -⟩ := enterGrace_spec d a
      rw [← he, hx] at hf ha
      rw [← he] at hao
      have hgroups : (d.graceNoted a x).groups = d.groups := by
        unfold Device.graceNoted
        dsimp only
        split <;> rfl
      rw [Device.loadNoted, if_pos ⟨h, hu⟩, Account.stateLoaded, if_neg h, if_pos hu]
      refine ⟨?_, (congrArg Device.groups hf :).trans hgroups, hao, ha⟩
      have hg : e.groups = (d.graceNoted a x).groups := (congrArg Device.groups hf :)
      unfold Device.QuotaFrame
      rw [hg]
      exact hf
    · have he : e = d := loadState_stays hx h hu
      rw [he, Device.loadNoted, if_neg fun hn => hu hn.2, Account.stateLoaded, if_neg h, if_neg hu]
      exact ⟨rfl, rfl, fun _ _ => rfl, hx⟩

/-- R38, R52, R53: the account's place in the grace list and the undated set after the setting of the state. -/
theorem loadState_lists (hx : d.account a = x) : d.ListsLoaded (d.loadState a) a x := by
  unfold Device.ListsLoaded
  intro enters
  refine ⟨fun h => ?below, fun h hn => ?same, fun h hg hv => ?dated, fun h hg hv => ?undated⟩
  case below =>
    rw [loadState_below hx h]
    exact ⟨rfl, rfl⟩
  case same =>
    by_cases hu : x.state = .under
    · have h0 : x.grace = 0 := by
        by_contra h0
        exact hn ⟨⟨h, hu⟩, Nat.pos_of_ne_zero h0⟩
      rw [(loadState_enters hx h hu).trans ((enterGrace_eq d a hx).trans (if_pos h0))]
      exact ⟨rfl, rfl⟩
    · rw [loadState_stays hx h hu]
      exact ⟨rfl, rfl⟩
  case dated =>
    rw [(loadState_enters hx h.1 h.2).trans
      ((enterGrace_eq d a hx).trans ((if_neg (Nat.pos_iff_ne_zero.1 hg)).trans (if_pos hv)))]
    exact ⟨joinedGrace_insertBefore _ a d.clock.graceList, rfl⟩
  case undated =>
    rw [(loadState_enters hx h.1 h.2).trans
      ((enterGrace_eq d a hx).trans ((if_neg (Nat.pos_iff_ne_zero.1 hg)).trans (if_neg (by rw [hv]; exact Bool.false_ne_true))))]
    obtain ⟨before, after, hl, hb, ha, hi⟩ := joinedUndated_insertBefore a d.clock.undated
    exact ⟨rfl, before, after, hl, hi, hb, ha⟩

end

/-! #### The armed flags after the load (R34, R35) -/

/-- A second check of the full notice finds nothing more (R35). -/
theorem Group.rearm_rearm (g : Group) : g.rearm.rearm = g.rearm := by
  simp only [Group.rearm_eq, Bool.or_assoc, Bool.or_self]

theorem rearmGroup_group (d : Device) (g k : Nat) :
    (d.rearmGroup g).group k = if k = g then (d.group g).rearm else d.group k := by
  split
  · rename_i h; subst h; exact group_setGroup _ _ _
  · rename_i h; exact group_setGroup_other _ _ h

/-- R34, R35: everything the checks after a load do. -/
theorem rearmLoaded_spec (d : Device) (a old new : Nat) :
    let e := ((d.rearmAccount a).rearmGroup old).rearmGroup new
    d.QuotaFrame e ∧ e.clock = d.clock ∧ (∀ b, b ≠ a → e.account b = d.account b)
      ∧ e.account a = (d.account a).rearm ∧ (∀ k, k ≠ new → k ≠ old → e.group k = d.group k)
      ∧ ∀ k, k = new ∨ k = old → e.group k = (d.group k).rearm := by
  intro e
  have hg (k : Nat) : (d.rearmAccount a).group k = d.group k := rfl
  refine ⟨rfl, rfl, fun b hb => account_setAccount_other d _ hb, account_setAccount d a _, fun k hn ho => ?_, fun k hk => ?_⟩
  · rw [rearmGroup_group, if_neg hn, rearmGroup_group, if_neg ho, hg]
  · rw [rearmGroup_group, rearmGroup_group, rearmGroup_group, hg, hg]
    by_cases hn : k = new
    · subst hn
      by_cases ho : k = old
      · subst ho; rw [if_pos rfl, if_pos rfl, Group.rearm_rearm]
      · rw [if_pos rfl, if_neg ho]
    · have ho : k = old := hk.resolve_left hn
      subst ho
      rw [if_neg hn, if_pos rfl]

/-- R52: an account's place in the grace list depends on the deadlines alone. -/
theorem Device.JoinedGrace.congr {d e : Device} {a : Nat} {l m : List Nat} (h : d.JoinedGrace a l m)
    (he : ∀ b, (e.account b).deadline = (d.account b).deadline) : e.JoinedGrace a l m := by
  have hearlier (b c : Nat) : e.earlier b c ↔ d.earlier b c := by
    simp only [Device.earlier, he]
  simpa only [Device.JoinedGrace, hearlier] using h

theorem Device.ListsLoaded.congr {d d' e e' : Device} {a : Nat} {x : Account} (h : d.ListsLoaded e a x)
    (hd : d'.clock = d.clock) (hc : e'.clock = e.clock) (he : ∀ b, (e'.account b).deadline = (e.account b).deadline) :
    d'.ListsLoaded e' a x := by
  obtain ⟨hbelow, hsame, hdated, hundated⟩ := h
  unfold Device.ListsLoaded
  rw [hd, hc]
  exact ⟨hbelow, hsame, fun h hg hv => (hdated h hg hv).imp_left fun hj => hj.congr he, hundated⟩

/-! #### The command -/

/-- R37, R186: what the arguments of an ACCOUNT LOAD carry, clamped. -/
def Load.ofArgs (soft hard grace group present usage : Nat) : Load :=
  { soft := if 0 < hard ∧ hard < soft then hard else soft, hard := hard, grace := min grace 2160, group := group
    usage := if present = 0 then none else some usage }

/-- R30, R34, R38: the account after the setting of its state and the check of its hard notice. -/
theorem Account.stateLoaded_rearm (x : Account) (k : Clock) :
    let b := (x.stateLoaded k).rearm
    let enters : Prop := ¬ x.Below ∧ x.state = .under
    b.soft = x.soft ∧ b.hard = x.hard ∧ b.grace = x.grace ∧ b.group = x.group ∧ b.usage = x.usage ∧ b.held = x.held
      ∧ b.underflow = x.underflow
      ∧ (x.Below → b.state = .under ∧ b.deadline = none)
      ∧ (¬ x.Below → x.state ≠ .under → b.state = x.state ∧ b.deadline = x.deadline)
      ∧ (enters → x.grace = 0 → b.state = .expired ∧ b.deadline = none)
      ∧ (enters → x.grace > 0 →
          b.state = .soft ∧ b.deadline = if k.valid then some (k.time.addHours x.grace) else none)
      ∧ b.hardArmed =
          (x.hardArmed || decide (b.limit < 4294967295 ∧ x.usage + x.held ≤ b.limit - b.limit / 16)) := by
  rw [Account.rearm_eq, Account.stateLoaded]
  by_cases h : x.Below
  · rw [if_pos h]
    exact ⟨rfl, rfl, rfl, rfl, rfl, rfl, rfl, fun _ => ⟨rfl, rfl⟩, fun hn => absurd h hn, fun hn => absurd h hn.1,
      fun hn => absurd h hn.1, rfl⟩
  · rw [if_neg h]
    by_cases hu : x.state = .under
    · rw [if_pos hu]
      exact ⟨rfl, rfl, rfl, rfl, rfl, rfl, rfl, fun hb => absurd hb h, fun _ hn => absurd hu hn,
        fun _ hg => ⟨if_pos hg, if_pos hg⟩,
        fun _ hg => ⟨if_neg (Nat.pos_iff_ne_zero.1 hg), if_neg (Nat.pos_iff_ne_zero.1 hg)⟩, rfl⟩
    · rw [if_neg hu]
      exact ⟨rfl, rfl, rfl, rfl, rfl, rfl, rfl, fun hb => absurd hb h, fun _ _ => ⟨rfl, rfl⟩, fun hn => absurd hn.2 hu,
        fun hn => absurd hn.2 hu, rfl⟩

/-- R39, R40: the storing leaves every group's limit and armed flag. -/
theorem stored_group_keeps (d : Device) (a : Nat) (l : Load) (k : Nat) :
    ((d.stored a l).group k).limit = (d.group k).limit ∧ ((d.stored a l).group k).fullArmed = (d.group k).fullArmed := by
  obtain ⟨-, -, -, -, hother, hsame, hmoved⟩ := stored_spec d a l
  by_cases hk : k = l.group
  · subst hk
    by_cases hg : l.group = (d.account a).group
    · rw [hsame hg]; exact ⟨rfl, rfl⟩
    · rw [(hmoved hg).1]; exact ⟨rfl, rfl⟩
  · by_cases ho : k = (d.account a).group
    · have hg : l.group ≠ (d.account a).group := fun e => hk (ho.trans e.symm)
      rw [ho, (hmoved hg).2]; exact ⟨rfl, rfl⟩
    · rw [hother k hk ho]; exact ⟨rfl, rfl⟩

/-- R37 to R40: from d to e account a has been loaded with l, x being what was stored. -/
structure Device.Loads (d e : Device) (a : Nat) (l : Load) (x : Account) : Prop where
  frame : (d.loadNoted a x).QuotaFrame e
  account : e.account a = (x.stateLoaded d.clock).rearm
  accounts : ∀ b, b ≠ a → e.account b = d.account b
  groups : ∀ k, k ≠ l.group → k ≠ (d.account a).group → e.group k = d.group k
  rearmed : ∀ k, k = l.group ∨ k = (d.account a).group → e.group k = ((d.stored a l).group k).rearm
  lists : d.ListsLoaded e a x

/-- R38: the notices of a load are the same before and after the storing. -/
theorem Device.QuotaFrame.loadNoted {d e : Device} (h : d.QuotaFrame e) (a : Nat) (x : Account) :
    (d.loadNoted a x).QuotaFrame (e.loadNoted a x) := by
  unfold Device.QuotaFrame at h
  rw [h]
  unfold Device.loadNoted Device.graceNoted
  split
  · dsimp only
    split <;> rfl
  · rfl

theorem loadAccount_loads (d : Device) (a : Nat) (l : Load) :
    d.Loads (((((d.stored a l).loadState a).rearmAccount a).rearmGroup (d.account a).group).rearmGroup l.group) a l
      ((d.account a).loaded l) := by
  obtain ⟨hf1, hc1, hao1, ha1, hgo1, -, -⟩ := stored_spec d a l
  obtain ⟨hf2, hg2, hao2, ha2⟩ := loadState_spec ha1
  have hlists := loadState_lists ha1
  obtain ⟨hf3, hc3, hao3, ha3, hgo3, hgr3⟩ :=
    rearmLoaded_spec ((d.stored a l).loadState a) a (d.account a).group l.group
  have hg2 (k : Nat) : ((d.stored a l).loadState a).group k = (d.stored a l).group k :=
    congrArg (Table.get Group.initial · k) hg2
  refine ⟨((hf1.loadNoted a _).trans hf2).trans hf3, ?_, fun b hb => ?_, fun k hk hk' => ?_, fun k hk => ?_, ?_⟩
  · rw [ha3, ha2, hc1]
  · rw [hao3 b hb, hao2 b hb, hao1 b hb]
  · rw [hgo3 k hk hk', hg2, hgo1 k hk hk']
  · rw [hgr3 k hk, hg2]
  · refine hlists.congr hc1.symm hc3 fun b => ?_
    by_cases hb : b = a
    · rw [hb, ha3, Account.rearm_eq]
    · rw [hao3 b hb]

theorem exec_accountLoad {s : State} {p : PortId} {tag : Nat} {t : Txn} {args : List Arg}
    (h : s.Issued p tag .accountLoad t args) :
    exec (.accountLoad p tag) s = .next { s with dev := (s.dev.taken p tag t).accountLoad p tag args } := by
  simp only [exec, execAccountLoad, event_high _ h.high, takeNow_issued h]

theorem loadNoted_taken (d : Device) (p : PortId) (tag : Nat) (t : Txn) (a : Nat) (x : Account) :
    (d.taken p tag t).loadNoted a x = (d.loadNoted a x).taken p tag t := by
  unfold Device.loadNoted Device.graceNoted
  split
  · dsimp only
    split <;> rfl
  · rfl

/-- R37: the load, step by step. -/
theorem loadAccount_eq (d : Device) (a soft hard grace group present usage : Nat) :
    d.loadAccount a soft hard grace group (if present = 0 then none else some usage) =
      ((((d.stored a (.ofArgs soft hard grace group present usage)).loadState a).rearmAccount a).rearmGroup
        (d.account a).group).rearmGroup group := by
  unfold Load.ofArgs
  by_cases hp : present = 0
  · simp only [hp, if_true]; rfl
  · simp only [hp, if_false]; rfl

/-- R37, R174: an accepted ACCOUNT LOAD is answered with the account as it then stands. -/
theorem accountLoad_accepted (d : Device) (p : PortId) (tag : Nat) (t : Txn) (a soft hard grace group present usage : Nat)
    (hg : group ≤ 1023) :
    let l := Load.ofArgs soft hard grace group present usage
    ∃ e, (d.taken p tag t).Loads e a l ((d.account a).loaded l)
      ∧ (d.taken p tag t).accountLoad p tag
          [.num a, .num soft, .num hard, .num grace, .num group, .num present, .num usage]
        = { (d.loadNoted a ((d.account a).loaded l)).answered p tag t .ok none (e.account a).loadItems with
            accounts := e.accounts, groups := e.groups
            clock.graceList := e.clock.graceList, clock.undated := e.clock.undated } := by
  intro l
  have hloads := loadAccount_loads (d.taken p tag t) a l
  generalize he : (((((d.taken p tag t).stored a l).loadState a).rearmAccount a).rearmGroup
    ((d.taken p tag t).account a).group).rearmGroup l.group = e at hloads
  refine ⟨e, hloads, ?_⟩
  have hload : (d.taken p tag t).accountLoad p tag
      [.num a, .num soft, .num hard, .num grace, .num group, .num present, .num usage]
      = e.reply p tag .ok none (e.account a).loadItems := by
    rw [← he]
    simp only [Device.accountLoad, if_neg (Nat.not_lt.2 hg), loadAccount_eq]
    rfl
  have hframe : e = Device.taken { d.loadNoted a ((d.account a).loaded l) with
      accounts := e.accounts, groups := e.groups
      clock.graceList := e.clock.graceList, clock.undated := e.clock.undated } p tag t := by
    have hf := hloads.frame
    rw [loadNoted_taken] at hf
    exact hf
  rw [hload]
  refine (congrArg (Device.reply · p tag .ok none (e.account a).loadItems) hframe).trans ?_
  rw [reply_taken]
  rfl

/-- R35, R39, R40: the groups after a load. -/
theorem Device.Loads.groups_loaded {d e : Device} {a : Nat} {l : Load} {x : Account} (h : d.Loads e a l x) :
    let o := d.account a
    let u := l.usage.getD o.usage
    (l.group = o.group → (e.group l.group).usage = (d.group l.group).usage + u - o.usage
        ∧ (e.group l.group).held = (d.group l.group).held)
      ∧ (l.group ≠ o.group → (e.group l.group).usage = (d.group l.group).usage + u
        ∧ (e.group l.group).held = (d.group l.group).held + o.held
        ∧ (e.group o.group).usage = (d.group o.group).usage - o.usage
        ∧ (e.group o.group).held = (d.group o.group).held - o.held)
      ∧ (∀ k, (e.group k).limit = (d.group k).limit)
      ∧ ∀ k, k = l.group ∨ k = o.group →
          let g := e.group k
          g.fullArmed = ((d.group k).fullArmed || decide (g.limit = 0 ∨ g.usage + g.held ≤ g.limit - g.limit / 16)) := by
  intro o u
  obtain ⟨-, -, -, -, -, hsame, hmoved⟩ := stored_spec d a l
  have hnew := h.rearmed l.group (.inl rfl)
  have hold := h.rearmed o.group (.inr rfl)
  refine ⟨fun hg => ?_, fun hg => ?_, fun k => ?_, fun k hk => ?_⟩
  · rw [hnew, Group.rearm_eq, hsame hg]
    exact ⟨rfl, rfl⟩
  · rw [hnew, hold, Group.rearm_eq, Group.rearm_eq, (hmoved hg).1, (hmoved hg).2]
    exact ⟨rfl, rfl, rfl, rfl⟩
  · by_cases hk : k = l.group ∨ k = o.group
    · rw [h.rearmed k hk, Group.rearm_eq]
      exact (stored_group_keeps d a l k).1
    · rw [h.groups k (fun hn => hk (.inl hn)) fun ho => hk (.inr ho)]
  · rw [h.rearmed k hk, Group.rearm_eq, ← (stored_group_keeps d a l k).2]

/-- Settles O27: what the load stores (`accountLoad_accepted`), its account (`Account.stateLoaded_rearm`) and its groups. -/
theorem accountLoadStores : Obligations.AccountLoadStores := by
  intro s p tag t n soft hard grace group present usage h a S G u now valid below enters
  rw [exec_accountLoad h]
  refine ⟨fun hg => ?_, fun hg => ?_⟩
  · simp only [Device.accountLoad, hg, if_true, deny_taken]
  · obtain ⟨e, hloads, hdev⟩ := accountLoad_accepted s.dev p tag t n soft hard grace group present usage hg
    have hu : (if present = 0 then none else some usage : Option Nat).getD a.usage = u := by
      by_cases hp : present = 0 <;> simp [u, hp]
    have hz : a.loaded (.ofArgs soft hard grace group present usage) =
        { a with soft := S, hard := hard, grace := G, group := group, usage := u
                 underflow := if present = 0 then a.underflow else false } := by
      by_cases hp : present = 0 <;> simp [Account.loaded, Load.ofArgs, u, hp, S, G]
    obtain ⟨hsame, hmoved, hlimit, harmed⟩ := hloads.groups_loaded
    have hb := Account.stateLoaded_rearm (a.loaded (.ofArgs soft hard grace group present usage)) (s.dev.taken p tag t).clock
    rw [← hloads.account, hz] at hb
    rw [hz] at hloads hdev
    rw [hdev]
    refine ⟨_, rfl, ⟨?dev, hb⟩, hloads.accounts, hloads.groups, fun hg => ?same, fun hg => ?moved, hlimit, harmed, hloads.lists⟩
    case dev =>
      obtain ⟨h1, h2, h3, h4, h5, h6, -⟩ := hb
      rw [Account.loadItems, h1, h2, h3, h4, h5, h6, quotaState_name, optTime_eq]
      rfl
    case same => exact hu ▸ hsame hg
    case moved => exact hu ▸ hmoved hg

end Sys2Proof.Machine
end

section
/-! ### What moves the calendar (O10, O11) -/

namespace Sys2Proof.Machine

/-- No consequence of an event moves the calendar (R46). -/
theorem Prim.calendar_same {c c' : Core} (h : Prim c c') : c'.time = c.time ∧ c'.valid = c.valid := by
  cases h <;> exact ⟨rfl, rfl⟩

/-- R46, R48: a special change that moves the calendar moves it to a date and time of the calendar. -/
theorem Extra.calendar_kept {allow : Special → Prop} {c c' : Core} (h : Extra allow c c') (hc : c.time.valid = true) :
    c'.time.valid = true := by
  cases h with
  | prim _ hp => rw [hp.calendar_same.1]; exact hc
  | calendar time valid _ hv => exact hv hc
  | _ => exact hc

/-- R46, R49: a command that is not allowed the calendar leaves it. -/
theorem Extra.calendar_same {allow : Special → Prop} {c c' : Core} (ha : ¬ allow .calendar) (h : Extra allow c c') :
    c'.time = c.time ∧ c'.valid = c.valid := by
  cases h with
  | prim _ hp => exact hp.calendar_same
  | calendar _ _ h _ => exact absurd h ha
  | _ => exact ⟨rfl, rfl⟩

/-- The date and time of a full reset is one of the calendar (R43). -/
theorem CalTime.origin_valid : CalTime.origin.valid = true := by decide

/-- Settles O10: each single change keeps a date and time of the calendar, and a full reset sets one (`step_kept`). -/
theorem calendarKept : Obligations.CalendarKept := by
  intro s t hs ht
  exact step_kept (fun c => c.time.valid = true) (fun _ _ _ _ h => h.calendar_kept) (fun _ => CalTime.origin_valid)
    (fun _ _ _ hd => hd) hs ht

/-- R46, R49: only a second tick and TIME SET are allowed the calendar. -/
theorem not_allowed_calendar {i : Instr} (h1 : i ≠ .secondTick) (h2 : ∀ p tag, i ≠ .timeSet p tag) :
    ¬ allowed i .calendar := by
  cases i with
  | secondTick => exact absurd rfl h1
  | timeSet p tag => exact absurd rfl (h2 p tag)
  | _ => exact id

/-- R179: the release of RESET# starts the ticks and leaves the calendar. -/
theorem exec_resetRelease_calendar {l : Lines} {s t : State} (h : exec (.resetRelease l) s = .next t) :
    t.dev.clock.time = s.dev.clock.time ∧ t.dev.clock.valid = s.dev.clock.valid := by
  simp only [exec, execResetRelease] at h
  cases h
  split <;> exact ⟨rfl, rfl⟩

/-- Settles O11: a command other than these makes only changes that leave the calendar (`exec_wide`). -/
theorem onlyClockCommandsMoveCalendar : Obligations.OnlyClockCommandsMoveCalendar := by
  rintro i s t ⟨htick, hset, hreset⟩ h
  by_cases hrel : ∃ l, i = .resetRelease l
  · obtain ⟨l, rfl⟩ := hrel
    exact exec_resetRelease_calendar h
  · have hwide := exec_wide hreset (fun l hl => hrel ⟨l, hl⟩) h
    refine hwide.kept (fun c => c.time = s.dev.clock.time ∧ c.valid = s.dev.clock.valid) (fun c c' he hc => ?_)
      ⟨rfl, rfl⟩
    obtain ⟨ht, hv⟩ := he.calendar_same (not_allowed_calendar htick hset)
    exact ⟨ht.trans hc.1, hv.trans hc.2⟩

end Sys2Proof.Machine
end

section
/-! ### Month lengths, dates and weekdays (O40) -/

namespace Sys2Proof.Machine

theorem isLeap_iff (y : Nat) : isLeap y = true ↔ 4 ∣ y ∧ ¬ (100 ∣ y ∧ ¬ 400 ∣ y) := by
  simp only [isLeap, Bool.and_eq_true, Bool.or_eq_true, decide_eq_true_eq, Nat.dvd_iff_mod_eq_zero]
  tauto

theorem CalTime.valid_iff (t : CalTime) : t.valid = true ↔ 2000 ≤ t.year ∧ t.year ≤ 2199 ∧ 1 ≤ t.month ∧ t.month ≤ 12
    ∧ 1 ≤ t.day ∧ t.day ≤ monthLength t.year t.month ∧ t.hour ≤ 23 ∧ t.minute ≤ 59 ∧ t.second ≤ 59 := by
  simp only [CalTime.valid, Bool.and_eq_true, decide_eq_true_eq, and_assoc]

/-! #### Days from 2000-01-01 -/

/-- A date in or after 2000 whose month has its day, years past 2199 not left out (R44). -/
structure CalTime.IsDate (t : CalTime) : Prop where
  year : 2000 ≤ t.year
  month : 1 ≤ t.month ∧ t.month ≤ 12
  day : 1 ≤ t.day ∧ t.day ≤ monthLength t.year t.month

theorem one_le_monthLength (y m : Nat) : 1 ≤ monthLength y m := by
  unfold monthLength
  repeat' split
  all_goals decide

/-- R44: the twelve months make up the year. -/
theorem sum_monthLength (y : Nat) :
    ((List.range 11).map fun i => monthLength y (i + 1)).sum + monthLength y 12 = yearLength y := by
  cases h : isLeap y <;> simp [List.range_succ, monthLength, yearLength, h]

/-- R44, R46: the day after a date is a date. -/
theorem CalTime.IsDate.nextDay {t : CalTime} (h : t.IsDate) : t.nextDay.IsDate := by
  obtain ⟨hy, hm, hd⟩ := h
  unfold CalTime.nextDay
  split
  · exact ⟨hy, hm, by dsimp only; omega⟩
  · split
    · exact ⟨hy, by dsimp only; omega, le_rfl, one_le_monthLength _ _⟩
    · exact ⟨by dsimp only; omega, by dsimp only; omega, le_rfl, one_le_monthLength _ _⟩

/-- R44, R45: the day after a date is one day further from 2000-01-01. -/
theorem CalTime.IsDate.dayNumber_nextDay {t : CalTime} (h : t.IsDate) : t.nextDay.dayNumber = t.dayNumber + 1 := by
  obtain ⟨hy, hm, hd⟩ := h
  unfold CalTime.nextDay
  by_cases hday : t.day < monthLength t.year t.month
  · rw [if_pos hday]
    simp only [CalTime.dayNumber]
    omega
  · rw [if_neg hday]
    have hlast : t.day = monthLength t.year t.month := by omega
    by_cases hmonth : t.month < 12
    · rw [if_pos hmonth]
      obtain ⟨m, hm'⟩ : ∃ m, t.month = m + 1 := ⟨t.month - 1, by omega⟩
      simp only [CalTime.dayNumber, hlast, hm', Nat.add_sub_cancel, List.range_succ, List.map_append, List.map_singleton,
        List.sum_append, List.sum_singleton]
      have := one_le_monthLength t.year (m + 1)
      omega
    · rw [if_neg hmonth]
      have hdec : t.month = 12 := by omega
      have hyear : t.year + 1 - 2000 = (t.year - 2000) + 1 := by omega
      have hsum := sum_monthLength t.year
      have := one_le_monthLength t.year 12
      simp only [CalTime.dayNumber, hlast, hdec, hyear, List.range_succ (n := t.year - 2000), List.map_append,
        List.map_singleton, List.sum_append, List.sum_singleton, Nat.add_sub_cancel' hy, Nat.sub_self, List.range_zero,
        List.map_nil, List.sum_nil, Nat.reduceSub]
      omega

/-- R45: n days later is n days further from 2000-01-01. -/
theorem CalTime.IsDate.dayNumber_addDays (n : Nat) : ∀ {t : CalTime}, t.IsDate →
    (t.addDays n).dayNumber = t.dayNumber + n := by
  induction n with
  | zero => intro t _; rw [CalTime.addDays, Nat.add_zero]
  | succ n ih =>
    intro t h
    rw [CalTime.addDays, ih h.nextDay, h.dayNumber_nextDay]
    omega

theorem CalTime.origin_isDate : CalTime.origin.IsDate := ⟨le_rfl, by decide, by decide⟩

/-- Settles O40: the weekday by the number of days from 2000-01-01 (`CalTime.IsDate.dayNumber_addDays`). -/
theorem calendarLengthsAndWeekday : Obligations.CalendarLengthsAndWeekday := by
  refine ⟨fun y m _ _ => ?lengths, CalTime.valid_iff, fun t => rfl, fun n => ?weekday⟩
  case lengths => simp only [monthLength, isLeap_iff]
  case weekday =>
    have horigin : CalTime.origin.dayNumber = 0 := by decide
    rw [CalTime.weekday, CalTime.origin_isDate.dayNumber_addDays, horigin, Nat.zero_add]

end Sys2Proof.Machine
end

section
/-! ### Deadlines (O41) -/

namespace Sys2Proof.Machine

/-! #### Counters that carry -/

/-- A digit of base b that a tick raises, carrying to the rest at b: what n ticks come to. -/
theorem iterate_digit {α : Type} {tick carry : α → α} {digit : α → Nat} {put : Nat → α → α} {b : Nat}
    (htick : ∀ t, tick t = if digit t + 1 < b then put (digit t + 1) t else carry (put 0 t))
    (hcarry : ∀ i t, carry (put i t) = put i (carry t)) (hput : ∀ i j t, put i (put j t) = put i t)
    (hdigit : ∀ i t, digit (put i t) = i) (hself : ∀ t, put (digit t) t = t) (n : Nat) {t : α} (ht : digit t < b) :
    tick^[n] t = put ((digit t + n) % b) (carry^[(digit t + n) / b] t) := by
  induction n with
  | zero => rw [Nat.add_zero, Nat.mod_eq_of_lt ht, Nat.div_eq_of_lt ht]; exact (hself t).symm
  | succ n ih =>
    have hb : 0 < b := by omega
    have hlt := Nat.mod_lt (digit t + n) hb
    have hdiv := Nat.mod_add_div (digit t + n) b
    rw [Function.iterate_succ_apply', ih, htick, hdigit, hput, hput, ← Nat.add_assoc]
    by_cases hr : (digit t + n) % b + 1 < b
    · obtain ⟨hq, hm⟩ := (Nat.div_mod_unique hb).2
        (⟨by omega, hr⟩ : (digit t + n) % b + 1 + b * ((digit t + n) / b) = digit t + n + 1 ∧ _)
      rw [if_pos hr, hq, hm]
    · obtain ⟨hq, hm⟩ := (Nat.div_mod_unique hb).2
        (⟨by rw [Nat.mul_succ]; omega, hb⟩ : 0 + b * ((digit t + n) / b + 1) = digit t + n + 1 ∧ _)
      rw [if_neg hr, hq, hm, hcarry, Function.iterate_succ_apply']

/-- What a carry does not look at stands through any number of carries. -/
theorem iterate_put {α : Type} {carry : α → α} {put : Nat → α → α} (h : ∀ i t, carry (put i t) = put i (carry t))
    (n i : Nat) (t : α) : carry^[n] (put i t) = put i (carry^[n] t) :=
  (Function.Semiconj.iterate_right (f := put i) (fun t => (h i t).symm) n t).symm

/-! #### Seconds, minutes and hours (R46) -/

/-- R46: the carry out of the minutes. -/
def CalTime.nextHour (t : CalTime) : CalTime :=
  if t.hour < 23 then { t with hour := t.hour + 1 } else CalTime.nextDay { t with hour := 0 }

/-- R46: the carry out of the seconds. -/
def CalTime.nextMinute (t : CalTime) : CalTime :=
  if t.minute < 59 then { t with minute := t.minute + 1 } else CalTime.nextHour { t with minute := 0 }

theorem CalTime.nextSecond_eq (t : CalTime) : t.nextSecond =
    if t.second < 59 then { t with second := t.second + 1 } else CalTime.nextMinute { t with second := 0 } := rfl

/-! The carry to a day looks at no field below it. -/

theorem CalTime.nextDay_hour (i : Nat) (t : CalTime) :
    CalTime.nextDay { t with hour := i } = { t.nextDay with hour := i } := by
  unfold CalTime.nextDay
  split_ifs <;> rfl

theorem CalTime.nextDay_minute (i : Nat) (t : CalTime) :
    CalTime.nextDay { t with minute := i } = { t.nextDay with minute := i } := by
  unfold CalTime.nextDay
  split_ifs <;> rfl

theorem CalTime.nextDay_second (i : Nat) (t : CalTime) :
    CalTime.nextDay { t with second := i } = { t.nextDay with second := i } := by
  unfold CalTime.nextDay
  split_ifs <;> rfl

theorem CalTime.nextHour_minute (i : Nat) (t : CalTime) :
    CalTime.nextHour { t with minute := i } = { t.nextHour with minute := i } := by
  unfold CalTime.nextHour
  split_ifs
  · rfl
  · exact CalTime.nextDay_minute i { t with hour := 0 }

theorem CalTime.nextHour_second (i : Nat) (t : CalTime) :
    CalTime.nextHour { t with second := i } = { t.nextHour with second := i } := by
  unfold CalTime.nextHour
  split_ifs
  · rfl
  · exact CalTime.nextDay_second i { t with hour := 0 }

theorem CalTime.nextMinute_second (i : Nat) (t : CalTime) :
    CalTime.nextMinute { t with second := i } = { t.nextMinute with second := i } := by
  unfold CalTime.nextMinute
  split_ifs
  · rfl
  · exact CalTime.nextHour_second i { t with minute := 0 }

theorem CalTime.iterate_nextSecond (n : Nat) {t : CalTime} (h : t.second ≤ 59) : CalTime.nextSecond^[n] t =
    { CalTime.nextMinute^[(t.second + n) / 60] t with second := (t.second + n) % 60 } :=
  iterate_digit (digit := CalTime.second) (put := fun i t => { t with second := i }) (b := 60)
    (fun _ => if_congr Nat.succ_lt_succ_iff.symm rfl rfl) CalTime.nextMinute_second (fun _ _ _ => rfl)
    (fun _ _ => rfl) (fun _ => rfl) n (Nat.lt_succ_of_le h)

theorem CalTime.iterate_nextMinute (n : Nat) {t : CalTime} (h : t.minute ≤ 59) : CalTime.nextMinute^[n] t =
    { CalTime.nextHour^[(t.minute + n) / 60] t with minute := (t.minute + n) % 60 } :=
  iterate_digit (digit := CalTime.minute) (put := fun i t => { t with minute := i }) (b := 60)
    (fun _ => if_congr Nat.succ_lt_succ_iff.symm rfl rfl) CalTime.nextHour_minute (fun _ _ _ => rfl)
    (fun _ _ => rfl) (fun _ => rfl) n (Nat.lt_succ_of_le h)

theorem CalTime.iterate_nextHour (n : Nat) {t : CalTime} (h : t.hour ≤ 23) : CalTime.nextHour^[n] t =
    { CalTime.nextDay^[(t.hour + n) / 24] t with hour := (t.hour + n) % 24 } :=
  iterate_digit (digit := CalTime.hour) (put := fun i t => { t with hour := i }) (b := 24)
    (fun _ => if_congr Nat.succ_lt_succ_iff.symm rfl rfl) CalTime.nextDay_hour (fun _ _ _ => rfl)
    (fun _ _ => rfl) (fun _ => rfl) n (Nat.lt_succ_of_le h)

/-! #### Hours as advances of a second (R51) -/

theorem CalTime.addDays_eq_iterate (n : Nat) : ∀ t : CalTime, t.addDays n = CalTime.nextDay^[n] t := by
  induction n with
  | zero => exact fun _ => rfl
  | succ n ih => exact fun t => ih t.nextDay

/-- R46: 3,600 advances of a second are one of an hour. -/
theorem CalTime.iterate_nextSecond_hours (g : Nat) {t : CalTime} (hs : t.second ≤ 59) (hm : t.minute ≤ 59) :
    CalTime.nextSecond^[3600 * g] t = CalTime.nextHour^[g] t := by
  have hsec : (t.second + 3600 * g) / 60 = 60 * g ∧ (t.second + 3600 * g) % 60 = t.second := by omega
  have hmin : (t.minute + 60 * g) / 60 = g ∧ (t.minute + 60 * g) % 60 = t.minute := by omega
  rw [CalTime.iterate_nextSecond _ hs, hsec.1, hsec.2, CalTime.iterate_nextMinute _ hm, hmin.1, hmin.2]
  have hminute := iterate_put CalTime.nextHour_minute g t.minute t
  have hsecond := iterate_put CalTime.nextHour_second g t.second t
  exact (congrArg (fun u : CalTime => { u with second := t.second }) hminute).symm.trans hsecond.symm

/-- R51: the hours put into days and hours are the advances of an hour. -/
theorem CalTime.addHours_eq (g : Nat) {t : CalTime} (h : t.hour ≤ 23) :
    t.addHours g = if (CalTime.nextHour^[g] t).year > 2199 then CalTime.last else CalTime.nextHour^[g] t := by
  unfold CalTime.addHours
  dsimp only
  rw [CalTime.addDays_eq_iterate, iterate_put CalTime.nextDay_hour, ← CalTime.iterate_nextHour g h]

/-- Settles O41: 3,600 seconds carry to one hour, 24 hours to one day (`iterate_digit`). -/
theorem deadlineIsHoursOfAdvances : Obligations.DeadlineIsHoursOfAdvances := by
  intro t g ht u
  obtain ⟨-, -, -, -, -, -, hh, hm, hs⟩ := (CalTime.valid_iff t).1 ht
  rw [CalTime.addHours_eq g hh, ← CalTime.iterate_nextSecond_hours g hs hm]
  rfl

end Sys2Proof.Machine
end

section
/-! ### The commands of the schedule clock (O26) -/

namespace Sys2Proof.Machine

/-! #### The order of the grace list (R52) -/

theorem earlier_trans {d : Device} {a b c : Nat} (hab : d.earlier a b) (hbc : d.earlier b c) : d.earlier a c := by
  simp only [Device.earlier] at *
  omega

theorem earlier_of_not {d : Device} {a b : Nat} (hne : b ≠ a) (h : ¬ d.earlier a b) : d.earlier b a := by
  simp only [Device.earlier] at *
  omega

/-- R52: a list in order is in order with an account joined at its place. -/
theorem Device.JoinedGrace.inOrder {d : Device} {a : Nat} {l m : List Nat} (h : d.JoinedGrace a l m)
    (hl : (l.filter (· ≠ a)).Pairwise d.earlier) : m.Pairwise d.earlier := by
  obtain ⟨before, after, hsplit, rfl, hbefore, hhead⟩ := h
  have hne : ∀ b ∈ before, b ≠ a := fun b hb => by
    have hmem : b ∈ l.filter (· ≠ a) := hsplit ▸ List.mem_append_left _ hb
    simpa using (List.mem_filter.1 hmem).2
  rw [hsplit, List.pairwise_append] at hl
  obtain ⟨hpb, hpa, hcross⟩ := hl
  have hafter : ∀ b ∈ after, d.earlier a b := by
    cases after with
    | nil => exact fun b hb => absurd hb List.not_mem_nil
    | cons c after =>
      have hac := hhead c rfl
      intro b hb
      rcases List.mem_cons.1 hb with rfl | hb
      · exact hac
      · exact earlier_trans hac (List.rel_of_pairwise_cons hpa hb)
  refine List.pairwise_append.2 ⟨hpb, List.pairwise_cons.2 ⟨hafter, hpa⟩, fun b hb c hc => ?_⟩
  rcases List.mem_cons.1 hc with rfl | hc
  · exact earlier_of_not (hne b hb) (hbefore b hb)
  · exact hcross b hb c hc

/-! #### The dating of the undated set (R49) -/

/-- R49: an account that receives its deadline. -/
def Account.dated (x : Account) (now : CalTime) : Account := { x with deadline := some (now.addHours x.grace) }

theorem dateAccount_account (d : Device) (a b : Nat) :
    (d.dateAccount a).account b = if b = a then (d.account a).dated d.clock.time else d.account b := by
  split
  · rename_i h; subst h; exact account_setAccount d b _
  · rename_i h; exact account_setAccount_other d _ h

/-- R52: a dated account joins the grace list at its place. -/
theorem dateAccount_inOrder {d : Device} (a : Nat) (h : d.GraceInOrder) : (d.dateAccount a).GraceInOrder := by
  let e := d.setAccount a ((d.account a).dated d.clock.time)
  have hother (b : Nat) (hb : b ∈ d.clock.graceList.filter (· ≠ a)) : e.account b = d.account b :=
    account_setAccount_other d _ (by simpa using (List.mem_filter.1 hb).2)
  have hrest : (d.clock.graceList.filter (· ≠ a)).Pairwise e.earlier := by
    refine (List.Pairwise.filter _ h).imp_of_mem fun {b c} hb hc hbc => ?_
    simpa only [Device.earlier, hother b hb, hother c hc] using hbc
  exact (joinedGrace_insertBefore e a d.clock.graceList).inOrder hrest

/-- R49: everything the dating of accounts does. -/
theorem dateAccounts_spec (l : List Nat) (d : Device) :
    let e := l.foldl Device.dateAccount d
    e = { d with accounts := e.accounts, clock.graceList := e.clock.graceList }
      ∧ (∀ a ∈ l, e.account a = (d.account a).dated d.clock.time)
      ∧ (∀ a, a ∉ l → e.account a = d.account a)
      ∧ (∀ a, a ∈ e.clock.graceList ↔ a ∈ d.clock.graceList ∨ a ∈ l)
      ∧ (d.GraceInOrder → e.GraceInOrder) := by
  induction l generalizing d with
  | nil => exact ⟨rfl, fun a ha => absurd ha List.not_mem_nil, fun _ _ => rfl, fun a => by simp, id⟩
  | cons b l ih =>
    obtain ⟨hf, hin, hout, hmem, hord⟩ := ih (d.dateAccount b)
    simp only [List.foldl_cons]
    refine ⟨hf, fun a ha => ?_, fun a ha => ?_, fun a => ?_, fun h => hord (dateAccount_inOrder b h)⟩
    · by_cases hl : a ∈ l
      · rw [hin a hl, dateAccount_account]
        split
        · rename_i hab; subst hab; rfl
        · rfl
      · obtain rfl : a = b := (List.mem_cons.1 ha).resolve_right hl
        rw [hout a hl, dateAccount_account, if_pos rfl]
    · obtain ⟨hab, hl⟩ := not_or.1 (mt List.mem_cons.2 ha)
      rw [hout a hl, dateAccount_account, if_neg hab]
    · rw [hmem, Device.dateAccount, mem_joinGrace, List.mem_cons]
      simp only [setAccount_clock]
      tauto

/-! #### The commands as they are taken -/

section
variable {s : State} {p : PortId} {tag : Nat} {t : Txn} {args : List Arg}

theorem exec_timeSet (h : s.Issued p tag .timeSet t args) :
    exec (.timeSet p tag) s = .next { s with dev := (s.dev.taken p tag t).timeSet p tag args } := by
  simp only [exec, execTimeSet, event_high _ h.high, takeNow_issued h]

theorem exec_timeRead (h : s.Issued p tag .timeRead t args) :
    exec (.timeRead p tag) s = .next { s with dev := (s.dev.taken p tag t).timeRead p tag } := by
  simp only [exec, execTimeRead, event_high _ h.high, takeNow_issued h]

theorem exec_scheduleSet (h : s.Issued p tag .scheduleSet t args) :
    exec (.scheduleSet p tag) s = .next { s with dev := (s.dev.taken p tag t).scheduleSet p tag args } := by
  simp only [exec, execScheduleSet, event_high _ h.high, takeNow_issued h]

theorem exec_scheduleRead (h : s.Issued p tag .scheduleRead t args) :
    exec (.scheduleRead p tag) s = .next { s with dev := (s.dev.taken p tag t).scheduleRead p tag } := by
  simp only [exec, execScheduleRead, event_high _ h.high, takeNow_issued h]

end

/-! #### TIME SET (R48, R49) -/

/-- R49: the clock with a time loaded, the undated set not yet looked at. -/
def Device.timeLoaded (d : Device) (c : CalTime) : Device := { d with
  clock.time := c, clock.valid := true, clock.nextSecond := d.clock.now + 1000 }

theorem loadTime_valid {d : Device} (h : d.clock.valid = true) (c : CalTime) : d.loadTime c = d.timeLoaded c := if_pos h

theorem loadTime_invalid {d : Device} (h : d.clock.valid = false) (c : CalTime) :
    d.loadTime c = d.clock.undated.foldl Device.dateAccount { d.timeLoaded c with clock.undated := [] } :=
  if_neg (by rw [h]; exact Bool.false_ne_true)

section
variable (d : Device) (p : PortId) (tag : Nat) (t : Txn) (y mo dd h mi sec : Nat)

theorem timeSet_refused
    (hc : ¬ ({ year := y, month := mo, day := dd, hour := h, minute := mi, second := sec } : CalTime).valid) :
    (d.taken p tag t).timeSet p tag [.num y, .num mo, .num dd, .num h, .num mi, .num sec]
      = d.answered p tag t .badArgument none [] := by
  rw [Device.timeSet]
  rw [if_neg hc, deny_taken]

theorem timeSet_accepted
    (hc : ({ year := y, month := mo, day := dd, hour := h, minute := mi, second := sec } : CalTime).valid) :
    (d.taken p tag t).timeSet p tag [.num y, .num mo, .num dd, .num h, .num mi, .num sec]
      = ((d.taken p tag t).loadTime
          { year := y, month := mo, day := dd, hour := h, minute := mi, second := sec }).reply p tag .ok none
          [.time { year := y, month := mo, day := dd, hour := h, minute := mi, second := sec }] := by
  rw [Device.timeSet]
  rw [if_pos hc]

end

/-- R49: a time loaded into a VALID clock is answered, and nothing else moves. -/
theorem reply_loadTime_valid {d : Device} (hv : d.clock.valid = true) (p : PortId) (tag : Nat) (t : Txn) (c : CalTime) :
    ((d.taken p tag t).loadTime c).reply p tag .ok none [.time c]
      = (d.timeLoaded c).answered p tag t .ok none [.time c] := by
  rw [loadTime_valid (d := d.taken p tag t) hv]
  exact reply_taken (d.timeLoaded c) p tag t .ok none [.time c]

/-- R49: a time loaded into an INVALID clock is answered once the undated set has its deadlines. -/
theorem reply_loadTime_invalid {d : Device} (hv : d.clock.valid = false) (p : PortId) (tag : Nat) (t : Txn) (c : CalTime) :
    let u := ((d.taken p tag t).loadTime c).reply p tag .ok none [.time c]
    u = { (d.timeLoaded c).answered p tag t .ok none [.time c] with
        accounts := u.accounts, clock.graceList := u.clock.graceList, clock.undated := [] }
      ∧ (∀ a ∈ d.clock.undated, u.account a = (d.account a).dated c)
      ∧ (∀ a, a ∉ d.clock.undated → u.account a = d.account a)
      ∧ (∀ a, a ∈ u.clock.graceList ↔ a ∈ d.clock.graceList ∨ a ∈ d.clock.undated)
      ∧ (d.GraceInOrder → u.GraceInOrder) := by
  intro u
  obtain ⟨hf, hin, hout, hmem, hord⟩ := dateAccounts_spec d.clock.undated
    { (d.taken p tag t).timeLoaded c with clock.undated := [] }
  have hload := loadTime_invalid (d := d.taken p tag t) hv c
  rw [taken_clock] at hload
  rw [← hload] at hf hin hout hmem hord
  let e := (d.taken p tag t).loadTime c
  have hu : u = Device.answered { (d.timeLoaded c) with
      accounts := e.accounts, clock.graceList := e.clock.graceList, clock.undated := [] } p tag t .ok none [.time c] := by
    rw [← reply_taken]
    exact congrArg (Device.reply · p tag .ok none [.time c]) hf
  rw [hu]
  exact ⟨rfl, hin, hout, hmem, hord⟩

/-! #### SCHEDULE SET (R55) -/

theorem isName_iff (bs : List Byte) (n : Name) : isName bs n = true ↔ bs = padded n.text := decide_eq_true_iff

theorem readAction_eq (bs : List Byte) : readAction bs =
    if bs = padded "WINDOW_OPEN" then some .windowOpen
    else if bs = padded "WINDOW_CLOSE" then some .windowClose
    else if bs = padded "SCHEDULED_CUT" then some .scheduledCut
    else none := by
  simp only [readAction, isName_iff, Name.text]

theorem readAction_none {bs : List Byte} (h1 : bs ≠ padded "WINDOW_OPEN") (h2 : bs ≠ padded "WINDOW_CLOSE")
    (h3 : bs ≠ padded "SCHEDULED_CUT") : readAction bs = none := by
  rw [readAction_eq, if_neg h1, if_neg h2, if_neg h3]

theorem readAction_some {bs : List Byte} {act : Action}
    (h : (bs = padded "WINDOW_OPEN" ∧ act = .windowOpen) ∨ (bs = padded "WINDOW_CLOSE" ∧ act = .windowClose)
      ∨ (bs = padded "SCHEDULED_CUT" ∧ act = .scheduledCut)) : readAction bs = some act := by
  rcases h with ⟨rfl, rfl⟩ | ⟨rfl, rfl⟩ | ⟨rfl, rfl⟩ <;> decide

theorem readPattern_none {lo hi n : Nat} (h : n ≠ 255) (h' : n < lo ∨ hi < n) : readPattern lo hi n = none := by
  rw [readPattern, if_neg h, if_neg (by omega)]

theorem readPattern_some {lo hi n : Nat} (h : (lo ≤ n ∧ n ≤ hi) ∨ n = 255) :
    readPattern lo hi n = some (if n = 255 then none else some n) := by
  unfold readPattern
  by_cases h255 : n = 255
  · rw [if_pos h255, if_pos h255]
  · rw [if_neg h255, if_neg h255, if_pos (h.resolve_right h255)]

theorem readSchedule_none {enabled minute hour weekdays day : Nat} {action : List Byte}
    (h : readAction action = none ∨ readPattern 0 59 minute = none ∨ readPattern 0 23 hour = none
      ∨ readPattern 1 31 day = none ∨ weekdays % 128 = 0) :
    readSchedule enabled action minute hour weekdays day = none := by
  unfold readSchedule
  split
  · rename_i ha hm hh hd
    simp only [ha, hm, hh, hd, reduceCtorEq, false_or] at h
    exact if_pos h
  · rfl

theorem readSchedule_some {enabled minute hour weekdays day : Nat} {action : List Byte} {act : Action}
    {m h dd : Option Nat} (ha : readAction action = some act) (hm : readPattern 0 59 minute = some m)
    (hh : readPattern 0 23 hour = some h) (hd : readPattern 1 31 day = some dd) (hw : weekdays % 128 ≠ 0) :
    readSchedule enabled action minute hour weekdays day = some
      { enabled := decide (enabled ≠ 0), action := act, minute := m, hour := h
        weekdays := BitVec.ofNat 7 weekdays, day := dd } := by
  rw [readSchedule, ha, hm, hh, hd]
  exact if_neg hw

theorem toEntry_none {n : Nat} (h : n > 7) : toEntry n = none := dif_neg (by omega)

theorem toEntry_some (i : Fin 8) : toEntry i.val = some i := dif_pos i.isLt

section
variable (d : Device) (p : PortId) (tag : Nat) (t : Txn) {n enabled minute hour weekdays day : Nat} {action : List Byte}

/-- R55: a SCHEDULE SET with an argument out of its range keeps the entry. -/
theorem scheduleSet_refused (h : toEntry n = none ∨ readSchedule enabled action minute hour weekdays day = none) :
    (d.taken p tag t).scheduleSet p tag
        [.num n, .num enabled, .text action, .num minute, .num hour, .num weekdays, .num day]
      = d.answered p tag t .badArgument none [] := by
  rw [Device.scheduleSet]
  split
  · rename_i hn he
    simp only [hn, he, reduceCtorEq, or_self] at h
  · exact deny_taken d p tag t .badArgument

/-- R55: an accepted SCHEDULE SET replaces the entry. -/
theorem scheduleSet_accepted {i : Fin 8} {e : SchedEntry} (hn : toEntry n = some i)
    (he : readSchedule enabled action minute hour weekdays day = some e) :
    (d.taken p tag t).scheduleSet p tag
        [.num n, .num enabled, .text action, .num minute, .num hour, .num weekdays, .num day]
      = Device.answered { d with clock.schedule := d.clock.schedule.set i.val e i.isLt } p tag t .ok none [] := by
  rw [Device.scheduleSet, hn, he]
  exact reply_taken { d with clock.schedule := d.clock.schedule.set i.val e i.isLt } p tag t .ok none []

end

/-! #### SCHEDULE READ (R55) -/

/-- R55, R186: the eight entries in their order. -/
theorem schedule_items (v : Vector SchedEntry 8) : fields (v.toList.map SchedEntry.items) =
    v[0].items ++ v[1].items ++ v[2].items ++ v[3].items ++ v[4].items ++ v[5].items ++ v[6].items ++ v[7].items := by
  have hlist : v.toList = [v[0], v[1], v[2], v[3], v[4], v[5], v[6], v[7]] :=
    List.ext_getElem (by simp) fun i _ h => by
      have hi : i < 8 := h
      interval_cases i <;> simp
  rw [hlist]
  simp only [fields, List.map_cons, List.map_nil, List.flatten_cons, List.flatten_nil, List.append_nil, List.append_assoc]

theorem schedEntry_items (e : SchedEntry) : e.items =
    [.num 1 (if e.enabled then 1 else 0)
      , .name (match e.action with
        | .windowOpen => .windowOpen
        | .windowClose => .windowClose
        | .scheduledCut => .scheduledCut)
      , .num 1 (e.minute.getD 255), .num 1 (e.hour.getD 255), .num 1 e.weekdays.toNat, .num 1 (e.day.getD 255)] := by
  obtain ⟨enabled, action, minute, hour, weekdays, day⟩ := e
  cases action <;> rfl

/-- Settles O26: each command taken (`takeNow_issued`), refused (`deny_taken`) or answered (`reply_taken`). -/
theorem clockCommands : Obligations.ClockCommands := by
  refine ⟨?timeSet, ?timeRead, ?scheduleSet, ?scheduleRead⟩
  case timeSet =>
    intro s p tag t y mo dd h mi sec hi c date loaded
    have hdate : c.valid = true ↔ date := CalTime.valid_iff c
    rw [exec_timeSet hi]
    refine ⟨fun hd => ?_, fun hd hv => ?_, fun hd hv => ?_⟩
    · rw [timeSet_refused _ _ _ _ _ _ _ _ _ _ (mt hdate.1 hd)]
    · rw [timeSet_accepted _ _ _ _ _ _ _ _ _ _ (hdate.2 hd), reply_loadTime_valid hv]
      rfl
    · rw [timeSet_accepted _ _ _ _ _ _ _ _ _ _ (hdate.2 hd)]
      exact ⟨_, rfl, reply_loadTime_invalid hv p tag t c⟩
  case timeRead =>
    intro s p tag t hi c
    rw [exec_timeRead hi, Device.timeRead, reply_taken]
    rfl
  case scheduleSet =>
    intro s p tag t n enabled minute hour weekdays day action hi pattern
    rw [exec_scheduleSet hi]
    refine ⟨fun hbad => ?_, fun i act hn ha hm hh hd hw => ?_⟩
    · rw [scheduleSet_refused]
      rcases hbad with hn | ⟨h1, h2, h3⟩ | ⟨hm, hm'⟩ | ⟨hh, hh'⟩ | ⟨hd, hd'⟩ | hw
      · exact .inl (toEntry_none hn)
      · exact .inr (readSchedule_none (.inl (readAction_none h1 h2 h3)))
      · exact .inr (readSchedule_none (.inr (.inl (readPattern_none hm' (.inr hm)))))
      · exact .inr (readSchedule_none (.inr (.inr (.inl (readPattern_none hh' (.inr hh))))))
      · exact .inr (readSchedule_none (.inr (.inr (.inr (.inl (readPattern_none hd' (by omega)))))))
      · exact .inr (readSchedule_none (.inr (.inr (.inr (.inr hw)))))
    · subst hn
      rw [scheduleSet_accepted s.dev p tag t (toEntry_some i) (readSchedule_some (readAction_some ha)
        (readPattern_some (hm.imp_left fun h => ⟨Nat.zero_le _, h⟩))
        (readPattern_some (hh.imp_left fun h => ⟨Nat.zero_le _, h⟩)) (readPattern_some hd) hw)]
  case scheduleRead =>
    intro s p tag t hi entry
    rw [exec_scheduleRead hi, Device.scheduleRead, reply_taken, taken_clock, schedule_items]
    simp only [schedEntry_items] <;> rfl

end Sys2Proof.Machine
end

section
/-! ### What a second tick brings about (R46, R47, R54, R56) -/

namespace Sys2Proof.Machine

/-! #### The tick itself -/

/-- R46, R59: the clock after a second tick that sets the calendar to this time. -/
def Device.tickedTo (d : Device) (time : CalTime) : Device := { d with
  clock.time := time, clock.now := max d.clock.now d.clock.nextSecond, clock.nextSecond := d.clock.nextSecond + 1000 }

/-- R54: the first account of the list has its deadline still to come. -/
def Device.NoneDue (d : Device) (l : List Nat) : Prop :=
  ∀ a, l.head? = some a → ∃ e, (d.account a).deadline = some e ∧ d.clock.time.rank < e.rank

/-- R54: the scan stops at a deadline still to come. -/
theorem expiryScan_noneDue {d : Device} (h : d.NoneDue d.clock.graceList) (n : Nat) : expiryScan n d = d := by
  cases n with
  | zero => rfl
  | succ n =>
    rw [expiryScan]
    split
    · rfl
    · rename_i a l hl
      obtain ⟨e, he, hlt⟩ := h a (by rw [hl]; rfl)
      rw [he]
      exact if_neg (by simpa [CalTime.le] using hlt)

/-- R56: what fires at the second 0 of a minute. -/
def Device.due (d : Device) : List Task := if d.clock.time.second = 0 then d.firings else []

theorem secondTick_last {d : Device} (h : d.clock.time = .last) : d.secondTick = (d.reachSecond.wrapClock, []) := if_pos h

theorem secondTick_invalid {d : Device} (h : d.clock.time ≠ .last) (hv : d.clock.valid = false) :
    d.secondTick = (d.tickedTo d.clock.time.nextSecond, []) :=
  (if_neg h).trans (if_neg (by rw [show d.reachSecond.clock.valid = false from hv]; exact Bool.false_ne_true))

theorem secondTick_valid {d : Device} (h : d.clock.time ≠ .last) (hv : d.clock.valid = true) :
    d.secondTick =
      (expiryScan d.clock.graceList.length (d.tickedTo d.clock.time.nextSecond)
        , (expiryScan d.clock.graceList.length (d.tickedTo d.clock.time.nextSecond)).due) :=
  (if_neg h).trans (if_pos hv)

theorem exec_secondTick {s : State} (hl : s.dev.resetLow = false) :
    exec .secondTick s = .next { s with dev := settle s.dev.secondTick } := by
  simp only [exec, execSecondTick, event_high _ hl]

/-- R46: the part as a second tick leaves it that finds no deadline reached and no entry to fire. -/
abbrev State.ticked (s : State) : Device := s.dev.tickedTo s.dev.clock.time.nextSecond

/-- R46, R47, R54: a second tick of a VALID clock that does not wrap and finds no deadline reached. -/
structure State.TickDue (s : State) : Prop where
  high : s.dev.resetLow = false
  notLast : s.dev.clock.time ≠ .last
  valid : s.dev.clock.valid = true
  later : s.ticked.NoneDue s.dev.clock.graceList

/-- R56: what such a tick does is what fires. -/
theorem State.TickDue.exec {s : State} (h : s.TickDue) {b : Nat} {d : Device} {ts : List Task} (hts : s.ticked.due = ts)
    (hr : Runs b ts s.ticked d) (hb : b ≤ 4294967296) : exec .secondTick s = .next { s with dev := d } := by
  have hscan := expiryScan_noneDue (d := s.ticked) h.later s.dev.clock.graceList.length
  rw [exec_secondTick h.high, secondTick_valid h.notLast h.valid, hscan, hts, hr.settle hb]

/-! #### The schedule's firings (R56) -/

/-- R55: an entry matches a calendar time. -/
theorem SchedEntry.matches_iff (e : SchedEntry) (t : CalTime) : e.matches t = true ↔
    e.enabled = true ∧ (e.minute = none ∨ e.minute = some t.minute) ∧ (e.hour = none ∨ e.hour = some t.hour)
      ∧ e.weekdays.getLsbD (t.weekday - 1) = true ∧ (e.day = none ∨ e.day = some t.day) := by
  simp only [SchedEntry.matches, Bool.and_eq_true, Bool.or_eq_true, decide_eq_true_eq, and_assoc]

/-- R56: entry i matches the calendar. -/
def Device.Fires (d : Device) (i : Fin 8) : Prop := d.clock.schedule[i].matches d.clock.time = true

section
variable {d : Device}

/-- R56: the entries of a rising list that are all that match fire in its order. -/
theorem firings_eq {l : List (Fin 8)} (hl : l.Pairwise (· < ·)) (h : ∀ i, d.Fires i ↔ i ∈ l) :
    d.firings = l.map Task.fire := by
  have hrising : ((List.finRange 8).filter fun i => d.clock.schedule[i].matches d.clock.time).Pairwise (· < ·) :=
    (List.sortedLT_finRange 8).pairwise.filter _
  refine congrArg (List.map Task.fire) (hrising.eq_of_mem_iff hl fun i => ?_)
  rw [List.mem_filter, ← h i]
  exact and_iff_right (List.mem_finRange i)

theorem due_congr {e : Device} (hs : e.clock.schedule = d.clock.schedule) (ht : e.clock.time = d.clock.time) :
    e.due = d.due := by
  simp only [Device.due, Device.firings, hs, ht]

theorem due_none (h : d.clock.time.second ≠ 0 ∨ ∀ i, ¬ d.Fires i) : d.due = [] := by
  unfold Device.due
  split
  · rename_i h0
    have hno := h.resolve_left (not_not.2 h0)
    exact firings_eq List.Pairwise.nil fun i => iff_of_false (hno i) List.not_mem_nil
  · rfl

theorem due_one {i : Fin 8} (h0 : d.clock.time.second = 0) (hi : d.Fires i) (h : ∀ j, j ≠ i → ¬ d.Fires j) :
    d.due = [.fire i] := by
  rw [Device.due, if_pos h0]
  refine firings_eq (l := [i]) (List.pairwise_singleton _ i) fun j => ?_
  rw [List.mem_singleton]
  exact ⟨fun hj => by_contra fun hne => h j hne hj, fun e => e ▸ hi⟩

theorem due_two {i j : Fin 8} (h0 : d.clock.time.second = 0) (hij : i < j) (hi : d.Fires i) (hj : d.Fires j)
    (h : ∀ l, l ≠ i → l ≠ j → ¬ d.Fires l) : d.due = [.fire i, .fire j] := by
  rw [Device.due, if_pos h0]
  refine firings_eq (l := [i, j]) (List.pairwise_pair.2 hij) fun l => ?_
  rw [List.mem_pair]
  refine ⟨fun hl => by_contra fun hne => ?_, fun e => e.elim (fun e => e ▸ hi) fun e => e ▸ hj⟩
  obtain ⟨h1, h2⟩ := not_or.1 hne
  exact h l h1 h2 hl

end

/-! #### The expiry scan (R54) -/

/-- R32: the notice of an account whose grace has expired. -/
def Device.expiredNotice (d : Device) (a : Nat) : Notice :=
  { kind := .quotaExpired, time := d.clock.stamp, subject := .account a
    value := .number (d.account a).soft }

theorem expire_mgmt (d : Device) (a : Nat) : (d.expire a).mgmt = d.mgmt.joined (d.expiredNotice a) :=
  congrArg Device.mgmt (expire_spec d a).1

/-- R32, R52: the account at the front leaves the list. -/
theorem expire_clock {d : Device} {a : Nat} {l : List Nat} (h : d.clock.graceList = a :: l) (ha : a ∉ l) :
    (d.expire a).clock = { d.clock with graceList := l } := by
  have hl : d.clock.graceList.filter (fun b => b ≠ a) = l := by
    rw [h, List.filter_cons_of_neg (by simp)]
    exact List.filter_eq_self.2 fun b hb => decide_eq_true fun e => ha (e ▸ hb)
  exact (congrArg Device.clock (expire_spec d a).1).trans (congrArg (fun l => { d.clock with graceList := l }) hl)

/-- R54: the accounts at the front of the list whose deadlines have been reached expire in their order. -/
theorem expiryScan_spec (gone rest : List Nat) : ∀ (n : Nat) (d : Device), gone.length ≤ n →
    d.clock.graceList = gone ++ rest → (gone ++ rest).Nodup →
    (∀ a ∈ gone, ∃ e, (d.account a).deadline = some e ∧ e.rank ≤ d.clock.time.rank) → d.NoneDue rest →
    let e := expiryScan n d
    e = { d with
        accounts := e.accounts, groups := e.groups, clock.graceList := rest
        mgmt := gone.foldl (fun m a => m.joined (d.expiredNotice a)) d.mgmt }
      ∧ (∀ a ∈ gone, e.account a = ({ d.account a with state := .expired, deadline := none } : Account).rearm)
      ∧ (∀ a, a ∉ gone → e.account a = d.account a)
      ∧ ∀ k, ((∃ a ∈ gone, (d.account a).group = k) → e.group k = (d.group k).rearm)
          ∧ (¬ (∃ a ∈ gone, (d.account a).group = k) → e.group k = d.group k) := by
  induction gone with
  | nil =>
    intro n d _ hl _ _ hrest e
    have he : e = d := expiryScan_noneDue (by rw [hl]; exact hrest) n
    have hl : d.clock.graceList = rest := hl
    rw [he]
    refine ⟨?_, fun a ha => absurd ha List.not_mem_nil, fun _ _ => rfl, fun k => ⟨fun h => ?_, fun _ => rfl⟩⟩
    · rw [← hl]; rfl
    · obtain ⟨a, ha, -⟩ := h
      exact absurd ha List.not_mem_nil
  | cons b gone ih =>
    intro n d hn hl hnodup hdue hrest
    obtain ⟨m, rfl⟩ : ∃ m, n = m + 1 := ⟨n - 1, by rw [List.length_cons] at hn; omega⟩
    obtain ⟨hb, hnodup⟩ := List.nodup_cons.1 hnodup
    obtain ⟨hf, hother, hgother, hacc, hgroup⟩ := expire_spec d b
    have hscan : expiryScan (m + 1) d = expiryScan m (d.expire b) := by
      obtain ⟨e, he, hle⟩ := hdue b List.mem_cons_self
      rw [expiryScan, hl]
      dsimp only [List.cons_append]
      rw [he]
      exact if_pos (decide_eq_true hle)
    have hsame (a : Nat) (ha : a ∈ gone ++ rest) : (d.expire b).account a = d.account a :=
      hother a fun h => hb (h ▸ ha)
    have hclock := expire_clock hl hb
    obtain ⟨hframe, hin, hout, hgr⟩ := ih m (d.expire b) (Nat.le_of_succ_le_succ hn)
      (congrArg Clock.graceList hclock) hnodup
      (fun a ha => by rw [hsame a (List.mem_append_left _ ha), hclock]; exact hdue a (List.mem_cons_of_mem _ ha))
      (fun a ha => by rw [hsame a (List.mem_append_right _ (List.mem_of_mem_head? ha)), hclock]; exact hrest a ha)
    have hmgmt : gone.foldl (fun m a => m.joined ((d.expire b).expiredNotice a)) (d.expire b).mgmt
        = (b :: gone).foldl (fun m a => m.joined (d.expiredNotice a)) d.mgmt := by
      rw [List.foldl_cons, expire_mgmt]
      refine List.foldl_ext _ _ _ fun m a ha => ?_
      rw [Device.expiredNotice, hsame a (List.mem_append_left _ ha), hclock]
      rfl
    have hgone (k : Nat) : (∃ a ∈ gone, ((d.expire b).account a).group = k) ↔ ∃ a ∈ gone, (d.account a).group = k :=
      exists_congr fun a => and_congr_right fun ha => by rw [hsame a (List.mem_append_left _ ha)]
    intro e
    have he : e = expiryScan m (d.expire b) := hscan
    rw [← he] at hframe hin hout hgr
    refine ⟨?frame, fun a ha => ?gone, fun a ha => ?others, fun k => ⟨fun hk => ?rearmed, fun hk => ?same⟩⟩
    case frame =>
      rw [hmgmt] at hframe
      refine hframe.trans ?_
      rw [hf]
      rfl
    case gone =>
      by_cases hg : a ∈ gone
      · rw [hin a hg, hsame a (List.mem_append_left _ hg)]
      · obtain rfl : a = b := (List.mem_cons.1 ha).resolve_right hg
        rw [hout a hg, hacc]
    case others =>
      obtain ⟨hab, hg⟩ := not_or.1 (mt List.mem_cons.2 ha)
      rw [hout a hg, hother a hab]
    case rearmed =>
      by_cases hg : ∃ a ∈ gone, (d.account a).group = k
      · rw [(hgr k).1 ((hgone k).2 hg)]
        by_cases hkb : k = (d.account b).group
        · rw [hkb, hgroup, Group.rearm_rearm]
        · rw [hgother k hkb]
      · rw [(hgr k).2 (mt (hgone k).1 hg)]
        obtain ⟨a, ha, hak⟩ := hk
        rcases List.mem_cons.1 ha with rfl | ha
        · rw [← hak, hgroup]
        · exact absurd ⟨a, ha, hak⟩ hg
    case same =>
      rw [(hgr k).2 (mt (hgone k).1 fun ⟨a, ha, hak⟩ => hk ⟨a, List.mem_cons_of_mem _ ha, hak⟩)]
      exact hgother k fun h => hk ⟨b, List.mem_cons_self, h.symm⟩

/-! #### The wrap of the calendar (R47) -/

theorem undate_account (d : Device) (a b : Nat) :
    (d.undate a).account b = if b = a then { d.account a with deadline := none } else d.account b := by
  split
  · rename_i h; subst h; exact account_setAccount d b _
  · rename_i h; exact account_setAccount_other d _ h

/-- R47: everything the undating of accounts does. -/
theorem undateAccounts_spec (l : List Nat) (d : Device) :
    let e := l.foldl Device.undate d
    e = { d with accounts := e.accounts, clock.undated := e.clock.undated }
      ∧ (∀ a ∈ l, e.account a = { d.account a with deadline := none })
      ∧ (∀ a, a ∉ l → e.account a = d.account a)
      ∧ ∀ a, a ∈ e.clock.undated ↔ a ∈ d.clock.undated ∨ a ∈ l := by
  induction l generalizing d with
  | nil => exact ⟨rfl, fun a ha => absurd ha List.not_mem_nil, fun _ _ => rfl, fun a => by simp⟩
  | cons b l ih =>
    obtain ⟨hf, hin, hout, hmem⟩ := ih (d.undate b)
    simp only [List.foldl_cons]
    refine ⟨hf, fun a ha => ?_, fun a ha => ?_, fun a => ?_⟩
    · by_cases hl : a ∈ l
      · rw [hin a hl, undate_account]
        split
        · rename_i hab; subst hab; rfl
        · rfl
      · obtain rfl : a = b := (List.mem_cons.1 ha).resolve_right hl
        rw [hout a hl, undate_account, if_pos rfl]
    · obtain ⟨hab, hl⟩ := not_or.1 (mt List.mem_cons.2 ha)
      rw [hout a hl, undate_account, if_neg hab]
    · rw [hmem, Device.undate, mem_joinUndated, List.mem_cons]
      simp only [setAccount_clock]
      tauto

theorem wrapClock_invalid {d : Device} (h : d.clock.valid = false) :
    d.wrapClock = { d with clock.time := .origin } := by
  refine (if_neg (by rw [h]; exact Bool.false_ne_true)).trans ?_
  rw [← h]

/-- R47: everything the wrap of a VALID clock does. -/
theorem wrapClock_valid {d : Device} (h : d.clock.valid = true) :
    let e := d.wrapClock
    e = { d with
        accounts := e.accounts
        clock.time := .origin, clock.valid := false, clock.graceList := [], clock.undated := e.clock.undated
        mgmt := d.mgmt.joined { kind := .clockInvalid, time := none, subject := .absent
                                value := .number d.clock.graceList.length } }
      ∧ (∀ a ∈ d.clock.graceList, e.account a = { d.account a with deadline := none })
      ∧ (∀ a, a ∉ d.clock.graceList → e.account a = d.account a)
      ∧ ∀ a, a ∈ e.clock.undated ↔ a ∈ d.clock.undated ∨ a ∈ d.clock.graceList := by
  intro e
  obtain ⟨hf, hin, hout, hmem⟩ := undateAccounts_spec d.clock.graceList
    { d with clock.time := .origin, clock.valid := false, clock.graceList := [] }
  have he : e = Device.noted (d.clock.graceList.foldl Device.undate
      { d with clock.time := .origin, clock.valid := false, clock.graceList := [] })
      .clockInvalid .absent (.number d.clock.graceList.length) :=
    (if_pos h).trans (notify_eq _ _ _ _)
  rw [he]
  refine ⟨?_, hin, hout, hmem⟩
  rw [hf]
  rfl

end Sys2Proof.Machine
end

section
/-! ### The window and the start of a pass (R57, R136, R138) -/

namespace Sys2Proof.Machine

/-- R136: the entries that join the queue at a window opening: the READY enrolled volumes that have none. -/
def Device.windowEntries (d : Device) : List DupEntry :=
  (d.volumes.filter fun e =>
    e.2.state = .ready ∧ e.2.enrolment ≠ .none ∧ ∀ q ∈ d.dup.queue, q.volume ≠ e.1).map
  fun e => { volume := e.1, origin := .window }

/-- R136: a volume joins the queue unless it has an entry. -/
def joinWindow (q : List DupEntry) (e : Nat × Volume) : List DupEntry :=
  if e.2.state = .ready ∧ e.2.enrolment ≠ .none ∧ (q.any fun x => x.volume = e.1) = false then
    q ++ [{ volume := e.1, origin := .window }]
  else q

theorem joinWindow_joins {q : List DupEntry} {e : Nat × Volume}
    (h : e.2.state = .ready ∧ e.2.enrolment ≠ .none ∧ ∀ x ∈ q, x.volume ≠ e.1) :
    joinWindow q e = q ++ [{ volume := e.1, origin := .window }] :=
  if_pos (by simpa only [List.any_eq_false, decide_eq_true_eq] using h)

theorem joinWindow_stays {q : List DupEntry} {e : Nat × Volume}
    (h : ¬ (e.2.state = .ready ∧ e.2.enrolment ≠ .none ∧ ∀ x ∈ q, x.volume ≠ e.1)) : joinWindow q e = q :=
  if_neg (by simpa only [List.any_eq_false, decide_eq_true_eq] using h)

/-- R136: volumes of rising number join one after another; none has joined before its turn. -/
theorem foldl_joinWindow {t : Table Volume} (h : t.Sorted) (q : List DupEntry) : t.foldl joinWindow q = q ++
    (t.filter fun e => e.2.state = .ready ∧ e.2.enrolment ≠ .none ∧ ∀ x ∈ q, x.volume ≠ e.1).map
      fun e => { volume := e.1, origin := .window } := by
  induction t generalizing q with
  | nil => exact (List.append_nil q).symm
  | cons e t ih =>
    obtain ⟨hlt, ht⟩ := List.pairwise_cons.1 h
    rw [List.foldl_cons, ih ht, List.filter_cons]
    by_cases hj : e.2.state = .ready ∧ e.2.enrolment ≠ .none ∧ ∀ x ∈ q, x.volume ≠ e.1
    · rw [joinWindow_joins hj, if_pos (decide_eq_true hj), List.map_cons, List.append_assoc, List.singleton_append]
      congr 3
      refine List.filter_congr fun c hc => ?_
      have hne : e.1 ≠ c.1 := Nat.ne_of_lt (hlt c hc)
      simp only [List.mem_append, List.mem_singleton, or_imp, forall_and, forall_eq, hne, ne_eq, not_false_eq_true, and_true]
    · rw [joinWindow_stays hj, if_neg (by simpa only [decide_eq_true_eq] using hj)]

theorem queueWindow_eq {d : Device} (h : d.volumes.Sorted) :
    d.queueWindow = { d with dup.queue := d.dup.queue ++ d.windowEntries } :=
  congrArg (fun q => { d with dup.queue := q }) (foldl_joinWindow h d.dup.queue)

section
variable {d d' : Device} {i : Fin 8}

/-! #### What an entry's firing does (R57, R58) -/

theorem fire_open_again (ha : d.clock.schedule[i].action = .windowOpen) (hw : d.clock.window = .opened) :
    perform (.fire i) d = (d, []) := by
  show fireEntry i d = _
  rw [fireEntry, ha]
  exact if_neg (by rw [hw]; decide)

/-- R57: the window opened, its entries queued. -/
def Device.windowOpened (d : Device) : Device := { d with
  clock.window := .opened, dup.queue := d.dup.queue ++ d.windowEntries }

theorem fire_open (ha : d.clock.schedule[i].action = .windowOpen) (hw : d.clock.window = .closed)
    (hs : d.volumes.Sorted) : perform (.fire i) d = (d.windowOpened, [.passStart, .grant]) := by
  show fireEntry i d = _
  rw [fireEntry, ha]
  refine (if_pos hw).trans ?_
  rw [queueWindow_eq (d := { d with clock.window := .opened }) hs]
  rfl

theorem fire_close_again (ha : d.clock.schedule[i].action = .windowClose) (hw : d.clock.window = .closed) :
    perform (.fire i) d = (d, []) := by
  show fireEntry i d = _
  rw [fireEntry, ha]
  exact if_neg (by rw [hw]; decide)

theorem fire_close_idle (ha : d.clock.schedule[i].action = .windowClose) (hw : d.clock.window = .opened)
    (hp : d.dup.pass = none) : perform (.fire i) d = ({ d with clock.window := .closed }, []) := by
  show fireEntry i d = _
  rw [fireEntry, ha]
  refine (if_pos hw).trans ?_
  rw [Device.overrun, hp]

/-- R57: the window closed on a running pass. -/
def Device.windowOverrun (d : Device) (p : Pass) : Device :=
  { d.noted .windowOverrun (.volume p.volume) (.number p.sent) with clock.window := .closed }

theorem fire_close_overrun {p : Pass} (ha : d.clock.schedule[i].action = .windowClose) (hw : d.clock.window = .opened)
    (hp : d.dup.pass = some p) : perform (.fire i) d = (d.windowOverrun p, []) := by
  show fireEntry i d = _
  rw [fireEntry, ha]
  refine (if_pos hw).trans ?_
  rw [Device.overrun, hp]
  exact congrArg (·, []) (notify_eq _ _ _ _)

/-- R58: the READY volumes whose retention is at least 1. -/
def Device.cutAsked (d : Device) : List (Nat × Volume) :=
  d.volumes.filter fun e => e.2.state = .ready ∧ 1 ≤ e.2.retention

theorem fire_cut (ha : d.clock.schedule[i].action = .scheduledCut) :
    perform (.fire i) d = (d, d.cutAsked.map fun e => Task.scheduledCut e.1) := by
  show fireEntry i d = _
  rw [fireEntry, ha]
  simp only [Device.cutAsked, Bool.decide_and]

/-! #### Grants that find nothing (R116, R117) -/

/-- No copy slot can be granted: none is FREE, or no restore runs and no grain of the pass is ready. -/
def Device.NoGrant (d : Device) : Prop := (∀ l, d.slot? l ≠ none)
  ∨ ((∀ r ∈ d.copy.restores, r.state ≠ .running) ∧ ∀ l ∈ d.dup.staging, l.phase ≠ .ready)

theorem grant_quiet (h : d.NoGrant) : perform .grant d = (d, []) := by
  rcases h with h | ⟨hr, hs⟩
  · exact grant_full h
  · refine grant_none (fun r hm => Restore.not_eligible (hr r hm)) ?_
    have hready : d.readyPlace = none := List.find?_eq_none.2 fun l hl => by simpa using hs l hl
    simp [Device.passEligible, hready]

/-- R57: a window opening on which no pass can start. -/
theorem runs_open_quiet (ha : d.clock.schedule[i].action = .windowOpen) (hw : d.clock.window = .closed)
    (hs : d.volumes.Sorted) (hg : d.NoGrant) (hp : d.dup.pass ≠ none ∨ d.dup.queue ++ d.windowEntries = []) :
    Runs 3 [.fire i] d d.windowOpened := by
  have hstart : perform .passStart d.windowOpened = (d.windowOpened, []) :=
    passStart_quiet (hp.imp_right fun h => startable_none (.inl h))
  exact Runs.task (fire_open ha hw hs) ((Runs.one hstart).cons (Runs.one (grant_quiet (d := d.windowOpened) hg)))

/-! #### A cut that is accepted (R99, R100) -/

/-- R99: nothing refuses a cut of the volume, and its list has room. -/
structure Volume.Cuttable (x : Volume) : Prop where
  state : x.state = .ready
  cut : x.cut = none
  epoch : x.epoch < 16777215
  room : x.snapshots.length < 16

/-- R98, R100: the record of a cut accepted at a time, with the drain timeout of 2 s. -/
def Device.cutRecord (d : Device) (time : Option CalTime) (kind : CutKind) (r : CutRequester) : CutRecord :=
  { kind := kind, requester := r, acceptedAt := time, drainEnds := d.clock.now + 2000, room := .have }

/-- R100: the part with a cut of volume v accepted. -/
def Device.cutAccepted (d : Device) (time : Option CalTime) (v : Nat) (x : Volume) (kind : CutKind) (r : CutRequester) :
    Device := { d with
  volumes := d.volumes.insert v { x with cut := some (d.cutRecord time kind r) } }

theorem askCut_accepted {time : Option CalTime} (ht : d.clock.stamp = time) {v : Nat} {x : Volume}
    (hv : d.volume? v = some x) (hx : x.Cuttable) (kind : CutKind) (r : CutRequester) :
    d.askCut v kind r Config.defaultDrain = .inr (d.cutAccepted time v x kind r, [.volumeCheck v]) := by
  subst ht
  obtain ⟨hstate, hcut, hepoch, hroom⟩ := hx
  have hrefusal : x.cutRefusal = none := by
    rw [Volume.cutRefusal, if_neg (by simp [hstate, Volume.cutting, hcut]), if_neg (Nat.ne_of_lt hepoch),
      if_neg (fun h => absurd h.1 (Nat.not_le.2 hroom))]
  have hmake : x.makeRoom = (x, .have) := if_pos hroom
  rw [Device.askCut, hv]
  simp only [hrefusal, Device.acceptCut, Device.onVolume, hv, hmake]
  rfl

theorem volumeCheck_drains {v : Nat} {x : Volume} (hv : d.volume? v = some x) (hc : x.cut ≠ none) (hf : x.inFlight > 0) :
    perform (.volumeCheck v) d = (d, []) := by
  obtain ⟨c, hc⟩ := Option.ne_none_iff_exists'.1 hc
  show volumeCheck v d = _
  rw [volumeCheck, hv]
  dsimp only
  rw [hc]
  exact if_neg fun h => Nat.ne_of_gt hf h.1

theorem runs_volumeCheck_drains (time : Option CalTime) {v : Nat} {x : Volume} (hf : x.inFlight > 0) (kind : CutKind)
    (r : CutRequester) : Runs 1 [.volumeCheck v] (d.cutAccepted time v x kind r) (d.cutAccepted time v x kind r) :=
  Runs.one (volumeCheck_drains (volume_setVolume d v _) (Option.some_ne_none _) hf)

/-! #### A pass that starts (R138, R140, R141) -/

/-- R140: the record of a pass that starts on a volume. -/
def Pass.begun (time : Option CalTime) (e : DupEntry) (y : Volume) : Pass := {
  volume := e.volume, origin := e.origin, target := y.target.getD 0, anchor := y.anchor, snapshot := none
  state := .cutting, stopRequested := false, cursor := 0, sent := 0, nextSeq := 0, issuing := true
  backlog := [], resends := 0, startTime := time
  passEndWaits := false, passEndTimer := none }

/-- R138: the part with a pass started from the head e of the queue. -/
def Device.passBegun (d : Device) (time : Option CalTime) (e : DupEntry) (rest : List DupEntry) (y : Volume) : Device :=
  { d with dup.queue := rest.filter fun q => q.volume ≠ e.volume, dup.pass := some (.begun time e y) }

theorem passStart_begins {time : Option CalTime} {e : DupEntry} {rest : List DupEntry} {y : Volume}
    (ht : d.clock.stamp = time) (hp : d.dup.pass = none)
    (hw : d.clock.window = .opened) (hq : d.dup.queue = e :: rest) (hv : d.volume? e.volume = some y) :
    perform .passStart d = (d.passBegun time e rest y, [.passCut]) := by
  subst ht
  have hstartable : d.startable = some e := (if_pos hw).trans (congrArg List.head? hq)
  have hleft : d.dup.queue.filter (fun q => q.volume ≠ e.volume) = rest.filter fun q => q.volume ≠ e.volume := by
    rw [hq, List.filter_cons_of_neg (by simp)]
  show passStart d = _
  rw [passStart, hp, hstartable]
  simp only [hv, hleft]
  rfl

theorem passCut_accepted {time : Option CalTime} {p : Pass} {y : Volume} (ht : d.clock.stamp = time)
    (hp : d.dup.pass = some p) (hc : p.state = .cutting) (hv : d.volume? p.volume = some y) (hy : y.Cuttable) :
    perform .passCut d = (d.cutAccepted time p.volume y .duplication .pass, [.volumeCheck p.volume]) := by
  show passCut d = _
  rw [passCut, hp]
  dsimp only
  rw [if_pos hc, askCut_accepted ht hv hy]

/-- R57, R138: a window opening on which the head of the queue starts a pass whose cut drains. -/
theorem runs_open_starts {time : Option CalTime} {e : DupEntry} {rest : List DupEntry} {y : Volume}
    (ht : d.clock.stamp = time) (ha : d.clock.schedule[i].action = .windowOpen) (hw : d.clock.window = .closed)
    (hs : d.volumes.Sorted) (hg : d.NoGrant) (hp : d.dup.pass = none) (hq : d.dup.queue ++ d.windowEntries = e :: rest)
    (hv : d.volume? e.volume = some y) (hy : y.Cuttable) (hf : y.inFlight > 0) :
    Runs 5 [.fire i] d ((d.windowOpened.passBegun time e rest y).cutAccepted time e.volume y .duplication .pass) := by
  have hstart := passStart_begins (d := d.windowOpened) ht hp rfl hq hv
  have hcut : perform .passCut (d.windowOpened.passBegun time e rest y)
      = ((d.windowOpened.passBegun time e rest y).cutAccepted time e.volume y .duplication .pass
        , [.volumeCheck e.volume]) := passCut_accepted (p := .begun time e y) ht rfl rfl hv hy
  have hgrant := grant_quiet
    (d := (d.windowOpened.passBegun time e rest y).cutAccepted time e.volume y .duplication .pass) hg
  exact Runs.task (fire_open ha hw hs)
    ((Runs.task hstart (Runs.task hcut (runs_volumeCheck_drains _ hf _ _))).cons (Runs.one hgrant))

end

end Sys2Proof.Machine
end

section
/-! ### Scheduled cuts (R58, R99, R103) -/

namespace Sys2Proof.Machine

section
variable {d : Device} {time : Option CalTime} {v : Nat} {x : Volume}

/-- R58, R99: a volume in a cut is skipped. -/
theorem scheduledCut_busy (hv : d.volume? v = some x) (hc : x.cut ≠ none) :
    perform (.scheduledCut v) d = (d.noted .cutFailed (.volume v) (.name .busy), []) := by
  show scheduledCut v d = _
  have hrefusal : x.cutRefusal = some .busy := if_pos (.inr (Option.isSome_iff_ne_none.2 hc))
  have hask : d.askCut v .scheduled .schedule Config.defaultDrain = .inl .busy := by
    rw [Device.askCut, hv]
    simp only [hrefusal]
  rw [scheduledCut, hask]
  exact congrArg (·, []) (notify_eq _ _ _ _)

/-- The CUT_FAILED notice of a volume in a cut (R106). -/
def busyNotice (time : Option CalTime) (v : Nat) : Notice :=
  { kind := .cutFailed, time := time, subject := .volume v, value := .name .busy }

/-- R58: the volumes of a list that are all in a cut are skipped one after another. -/
theorem runs_scheduledCuts_busy (l : List (Nat × Volume)) (d : Device) (ht : d.clock.stamp = time)
    (h : ∀ e ∈ l, d.volume? e.1 = some e.2 ∧ e.2.cut ≠ none) :
    Runs l.length (l.map fun e => Task.scheduledCut e.1) d
      { d with mgmt := l.foldl (fun m e => m.joined (busyNotice time e.1)) d.mgmt } := by
  induction l generalizing d with
  | nil => exact .nil d
  | cons e l ih =>
    obtain ⟨hv, hc⟩ := h e List.mem_cons_self
    subst ht
    rw [List.length_cons, Nat.add_comm]
    exact (Runs.one (scheduledCut_busy hv hc)).cons
      (ih (d.noted .cutFailed (.volume e.1) (.name .busy)) rfl fun c hm => h c (List.mem_cons_of_mem _ hm))

theorem scheduledCut_accepted (ht : d.clock.stamp = time) (hv : d.volume? v = some x) (hx : x.Cuttable) :
    perform (.scheduledCut v) d = (d.cutAccepted time v x .scheduled .schedule, [.volumeCheck v]) := by
  show scheduledCut v d = _
  rw [scheduledCut, askCut_accepted ht hv hx]

/-- R103: a volume whose SCHEDULED cut, accepted at this time, has completed. -/
def Volume.snapped (x : Volume) (time : Option CalTime) : Volume := { x with
  epoch := x.epoch + 1
  snapshots := x.snapshots ++ [{ number := x.epoch, kind := .scheduled, cutTime := time, state := .active, pins := 0
                                 answers := none }] }

/-- R103: the cut just accepted completes when nothing is in flight; here no write of the volume is held. -/
theorem volumeCheck_completes (hc : x.cut = none) (hf : x.inFlight = 0)
    (hh : ∀ w ∈ d.cutHold, ∀ j, d.job? w = some j → j.volume ≠ v) :
    perform (.volumeCheck v) (d.cutAccepted time v x .scheduled .schedule) =
      (d.setVolume v (x.snapped time), [.cutDone v (d.cutRecord time .scheduled .schedule) x.epoch 0]) := by
  let e := d.cutAccepted time v x .scheduled .schedule
  have hother (w : WriteId) (hw : w ∈ e.cutHold) : e.writeVolume w ≠ some v := by
    intro h
    obtain ⟨j, hj, hjv⟩ := Option.map_eq_some_iff.1 h
    exact hh w hw j hj hjv
  have hheld : e.heldOf v = [] := List.filter_eq_nil_iff.2 fun w hw => by simpa using hother w hw
  have hrelease : e.releaseHeld v = e := by
    rw [Device.releaseHeld, List.filter_eq_self.2 fun w hw => decide_eq_true (hother w hw)]
  have hv : e.volume? v = some { x with cut := some (d.cutRecord time .scheduled .schedule) } := volume_setVolume d v _
  show volumeCheck v e = _
  rw [volumeCheck, hv]
  refine (if_pos ⟨hf, rfl⟩).trans ?_
  rw [Device.completeCut, hheld, hrelease]
  refine Prod.ext ?_ rfl
  refine (congrArg (fun t => { d with volumes := t }) (Table.insert_insert d.volumes v _ _)).trans ?_
  rw [Volume.snapped, ← hc]
  rfl

/-- R104: a volume with no more loose SCHEDULED snapshots than its retention keeps them all. -/
theorem retain_all {x : Volume} (h : (x.snapshots.filter Snapshot.looseScheduled).length ≤ x.retention) (n : Nat) :
    Volume.retain n x = x := by
  cases n with
  | zero => rfl
  | succ n =>
    rw [Volume.retain]
    split
    · rfl
    · rename_i s rest hl
      rw [hl, List.length_cons] at h
      exact if_neg (Nat.not_lt.2 h)

/-- R103, R104: the end of a SCHEDULED cut of the schedule, with nothing to retire. -/
theorem cutDone_scheduled {c : CutRecord} {y : Volume} (hk : c.kind = .scheduled) (hr : c.requester = .schedule)
    (hv : d.volume? v = some y) (hy : (y.snapshots.filter Snapshot.looseScheduled).length ≤ y.retention) (n m : Nat) :
    perform (.cutDone v c n m) d =
      ({ d.noted .cutDone (.volume v) (.number n) with volumes := d.volumes.insert v y }, [.tellPass v]) := by
  show finishCut v c n m d = _
  have hv' : (d.noted .cutDone (.volume v) (.number n)).volume? v = some y := hv
  rw [finishCut]
  simp only [notify_eq, hk, hr, if_true, Device.onVolume, hv', retain_all hy]
  rfl

theorem looseScheduled_iff (n : Snapshot) :
    n.looseScheduled = true ↔ n.state = .active ∧ n.pins = 0 ∧ n.kind = .scheduled := by
  simp only [Snapshot.looseScheduled, Snapshot.loose, Bool.and_eq_true, decide_eq_true_eq, and_assoc]

/-- R104: a completed SCHEDULED cut adds one loose snapshot. -/
theorem snapped_looseScheduled (x : Volume) (time : Option CalTime) :
    ((x.snapped time).snapshots.filter Snapshot.looseScheduled).length
      = (x.snapshots.filter Snapshot.looseScheduled).length + 1 := by
  rw [Volume.snapped, List.filter_append, List.length_append]
  rfl

/-- R58, R103: a firing's cut of a volume with nothing in flight completes. -/
theorem runs_scheduledCut_completes (ht : d.clock.stamp = time) (hv : d.volume? v = some x) (hx : x.Cuttable)
    (hf : x.inFlight = 0) (hh : ∀ w ∈ d.cutHold, ∀ j, d.job? w = some j → j.volume ≠ v)
    (hp : ∀ q, d.dup.pass = some q → q.volume ≠ v ∨ q.state ≠ .cutting)
    (hr : (x.snapshots.filter Snapshot.looseScheduled).length < x.retention) :
    Runs 4 [.scheduledCut v] d { d.noted .cutDone (.volume v) (.number x.epoch) with
      volumes := d.volumes.insert v (x.snapped time) } := by
  have hdone := cutDone_scheduled (c := d.cutRecord time .scheduled .schedule) rfl rfl
    (volume_setVolume d v (x.snapped time)) (by rw [snapped_looseScheduled]; exact hr) x.epoch 0
  rw [show (d.setVolume v (x.snapped time)).volumes = d.volumes.insert v (x.snapped time) from rfl,
    Table.insert_insert] at hdone
  exact Runs.task (scheduledCut_accepted ht hv hx) (Runs.task (volumeCheck_completes hx.cut hf hh)
    (Runs.task hdone (Runs.one (tellPass_quiet hp))))

end

end Sys2Proof.Machine
end

section
/-! ### A second tick (O42) -/

namespace Sys2Proof.Machine

section
variable {s : State}

/-! #### The tick alone, the wrap and the expiries (R46, R47, R54) -/

theorem tick_invalid (hl : s.dev.resetLow = false) (hne : s.dev.clock.time ≠ .last) (hv : s.dev.clock.valid = false) :
    exec .secondTick s = .next { s with dev := s.ticked } := by
  rw [exec_secondTick hl, secondTick_invalid hne hv, settle_nil]

theorem tick_quiet (h : s.TickDue) (hn : s.ticked.clock.time.second ≠ 0 ∨ ∀ i, ¬ s.ticked.Fires i) :
    exec .secondTick s = .next { s with dev := s.ticked } :=
  h.exec (due_none hn) (.nil _) (Nat.zero_le _)

theorem tick_wraps (hl : s.dev.resetLow = false) (h : s.dev.clock.time = .last) :
    exec .secondTick s = .next { s with dev := s.dev.reachSecond.wrapClock } := by
  rw [exec_secondTick hl, secondTick_last h, settle_nil]

/-- R54: a tick on which accounts expire and no entry fires. -/
theorem tick_expires (hl : s.dev.resetLow = false) (hne : s.dev.clock.time ≠ .last) (hv : s.dev.clock.valid = true)
    (hn : s.ticked.clock.time.second ≠ 0 ∨ ∀ i, ¬ s.ticked.Fires i)
    (hc : (expiryScan s.dev.clock.graceList.length s.ticked).clock.schedule = s.ticked.clock.schedule
      ∧ (expiryScan s.dev.clock.graceList.length s.ticked).clock.time = s.ticked.clock.time) :
    exec .secondTick s = .next { s with dev := expiryScan s.dev.clock.graceList.length s.ticked } := by
  rw [exec_secondTick hl, secondTick_valid hne hv, due_congr hc.1 hc.2, due_none hn, settle_nil]

end

/-- Settles O42: what fires is what matches (`due_one`, `due_two`), and each firing by its own lemma. -/
theorem secondTickAdvances : Obligations.SecondTickAdvances := by
  intro s hl k c last first d ticked later matching due sole both joined opened noGrant cutOf
  have hfires (i : Fin 8) : s.ticked.Fires i ↔ matching i := SchedEntry.matches_iff _ _
  have hquiet (h : d.second ≠ 0 ∨ ∀ i, ¬ matching i) : s.ticked.clock.time.second ≠ 0 ∨ ∀ i, ¬ s.ticked.Fires i :=
    h.imp_right fun h i => mt (hfires i).1 (h i)
  have hsole (i : Fin 8) (h : sole i) : s.TickDue ∧ s.ticked.due = [.fire i] := by
    obtain ⟨⟨hne, hv⟩, hlater, h0, hi, hj⟩ := h
    exact ⟨⟨hl, hne, hv, hlater⟩, due_one h0 ((hfires i).2 hi) fun j hji => mt (hfires j).1 (hj j hji)⟩
  have hboth (i j : Fin 8) (h : both i j) : s.TickDue ∧ s.ticked.due = [.fire i, .fire j] := by
    obtain ⟨⟨hne, hv⟩, hlater, h0, hij, hi, hj, hother⟩ := h
    exact ⟨⟨hl, hne, hv, hlater⟩, due_two h0 hij ((hfires i).2 hi) ((hfires j).2 hj)
      fun l h1 h2 => mt (hfires l).1 (hother l h1 h2)⟩
  have hstamp (h : k.valid = true) : s.ticked.clock.stamp = some d := if_pos h
  refine ⟨fun hne hv => tick_invalid hl hne hv, fun ⟨hne, hv⟩ hlater hn => tick_quiet ⟨hl, hne, hv, hlater⟩ (hquiet hn),
    ?expiries, ?opens, ?cuts, ?both, ?closes, fun hlast hv => ?wrapInvalid, fun hlast hv => ?wrapValid⟩
  case expiries =>
    rintro gone rest ⟨hne, hv⟩ hn hlist hnodup hdue hrest
    have hlen : gone.length ≤ s.dev.clock.graceList.length := by
      rw [show s.dev.clock.graceList = gone ++ rest from hlist, List.length_append]
      exact Nat.le_add_right _ _
    obtain ⟨hf, hin, hout, hgroup⟩ := expiryScan_spec gone rest s.dev.clock.graceList.length s.ticked hlen hlist
      (hlist ▸ hnodup) hdue hrest
    have htick := tick_expires hl hne hv (hquiet hn) (by rw [hf]; exact ⟨rfl, rfl⟩)
    refine ⟨_, htick, ?frame, fun a ha => ?gone, hout, fun n => ?group⟩
    case frame =>
      simp only [Device.expiredNotice, hstamp hv] at hf
      exact congrArg (fun d => ({ s with dev := d } : State)) hf
    case gone => exact (hin a ha).trans (Account.rearm_eq _)
    case group =>
      intro g
      by_cases hg : ∃ a ∈ gone, (s.dev.account a).group = n
      · exact ((hgroup n).1 hg).trans ((Group.rearm_eq _).trans
          (congrArg (fun b => ({ g with fullArmed := g.fullArmed || b } : Group))
            (decide_eq_decide.2 (and_iff_right hg).symm)))
      · refine ((hgroup n).2 hg).trans ?_
        rw [decide_eq_false fun h => hg h.1, Bool.or_false]
        rfl
  case opens =>
    intro i hi ha
    obtain ⟨hs, hdue⟩ := hsole i hi
    refine ⟨fun hw => hs.exec hdue (Runs.one (fire_open_again ha hw)) (by decide),
      fun hw hsorted hg => ⟨fun hp => ?_, ?_⟩⟩
    · exact hs.exec hdue (runs_open_quiet ha hw hsorted hg hp) (by decide)
    · intro e rest y hp hq hv hstate hcut hepoch hroom hf
      exact hs.exec hdue (runs_open_starts (d := s.ticked) (hstamp hs.valid) ha hw hsorted hg hp hq hv
        ⟨hstate, hcut, hepoch, hroom⟩ hf) (by decide)
  case cuts =>
    intro i hi ha hsorted hlen asked
    obtain ⟨hs, hdue⟩ := hsole i hi
    have hfind (e : Nat × Volume) (he : e ∈ asked) : s.ticked.volume? e.1 = some e.2 :=
      find_of_mem hsorted (List.mem_of_mem_filter he)
    refine ⟨fun hbusy => ?_, fun v y hasked hcut hepoch hroom => ?_⟩
    · have hle : asked.length ≤ 64 := (List.length_filter_le _ _).trans hlen
      exact hs.exec hdue (Runs.task (fire_cut (d := s.ticked) ha)
        (runs_scheduledCuts_busy asked s.ticked (hstamp hs.valid) fun e he => ⟨hfind e he, hbusy e he⟩)) (by omega)
    · have hmem : (v, y) ∈ asked := hasked ▸ List.mem_singleton_self _
      have hstate : y.state = .ready := (of_decide_eq_true (List.mem_filter.1 hmem).2).1
      have hy : y.Cuttable := ⟨hstate, hcut, hepoch, hroom⟩
      have hfire : perform (.fire i) s.ticked = (s.ticked, [.scheduledCut v]) :=
        (fire_cut (d := s.ticked) ha).trans
          (congrArg (fun l => (s.ticked, l.map fun e : Nat × Volume => Task.scheduledCut e.1)) hasked)
      refine ⟨fun hf => ?_, fun hf hheld hpass hretain => ?_⟩
      · exact hs.exec hdue (Runs.task hfire (Runs.task (scheduledCut_accepted (hstamp hs.valid) (hfind _ hmem) hy)
          (runs_volumeCheck_drains _ hf _ _))) (by decide)
      · have hloose : (y.snapshots.filter Snapshot.looseScheduled).length < y.retention := by
          refine lt_of_eq_of_lt (congrArg List.length (List.filter_congr fun n _ => ?_)) hretain
          rw [Bool.eq_iff_iff, looseScheduled_iff, decide_eq_true_eq]
        exact hs.exec hdue (Runs.task hfire (runs_scheduledCut_completes (hstamp hs.valid) (hfind _ hmem) hy hf hheld hpass
          hloose)) (by decide)
  case both =>
    intro i j p hij hg hsorted hp late
    obtain ⟨hs, hdue⟩ := hboth i j hij
    have hruns : s.dev.dup.pass ≠ none := by rw [hp]; exact Option.some_ne_none _
    refine ⟨fun hi hj hw => ?_, fun hi hj hw => ?_⟩
    · have hopen := runs_open_quiet (d := s.ticked) hi hw hsorted hg (.inl hruns)
      have hclose := fire_close_overrun (d := s.ticked.windowOpened) (p := p) hj rfl hp
      exact hs.exec hdue (hopen.cons (Runs.one hclose)) (by decide)
    · have hclose := fire_close_overrun (d := s.ticked) hi hw hp
      have hopen := runs_open_quiet (d := s.ticked.windowOverrun p) hj rfl hsorted hg
        (.inl hruns)
      exact hs.exec hdue ((Runs.one hclose).cons hopen) (by decide)
  case closes =>
    intro i hi ha
    obtain ⟨hs, hdue⟩ := hsole i hi
    exact ⟨fun hw => hs.exec hdue (Runs.one (fire_close_again ha hw)) (by decide),
      fun hw hp => hs.exec hdue (Runs.one (fire_close_idle ha hw hp)) (by decide),
      fun p hw hp => hs.exec hdue (Runs.one (fire_close_overrun ha hw hp)) (by decide)⟩
  case wrapInvalid =>
    rw [tick_wraps hl hlast, wrapClock_invalid (d := s.dev.reachSecond) hv]
    rfl
  case wrapValid => exact ⟨_, tick_wraps hl hlast, wrapClock_valid (d := s.dev.reachSecond) hv⟩

end Sys2Proof.Machine
end

section
/-! ### What every step keeps of a volume (O9, O13) -/

namespace Sys2Proof.Machine

/-- Every listed volume is sound, and the table is in order. -/
structure Core.VolumesSound (c : Core) : Prop where
  order : c.volumes.Sorted
  volume : ∀ v x, c.volumes.find v = some x → x.Sound

/-- R61, R62: the record of a volume just defined is sound. -/
theorem Volume.Sound.of_defined {x : Volume} (hg : x.grains = []) (hs : x.snapshots = []) (he : x.epoch = 2)
    (hc : x.cut = none) : x.Sound where
  numbers := by simp [hs]
  below := by simp [hs]
  length := by simp [hs]
  epoch := by rw [he]; decide
  cut c h := by rw [hc] at h; cases h
  grains := hg ▸ .nil x.fill

/-- A sound record set keeps every volume sound. -/
theorem Core.VolumesSound.insert {c : Core} (hc : c.VolumesSound) (v : Nat) {y : Volume} (hy : y.Sound) :
    ({ c with volumes := c.volumes.insert v y } : Core).VolumesSound where
  order := hc.order.insert v y
  volume w x hx := by
    have hx : (c.volumes.insert v y).find w = some x := hx
    rw [Table.find_insert] at hx
    split at hx
    · cases hx; exact hy
    · exact hc.volume w x hx

/-- A volume that leaves the table leaves the others sound. -/
theorem Core.VolumesSound.erase {c : Core} (hc : c.VolumesSound) (v : Nat) :
    ({ c with volumes := c.volumes.erase v } : Core).VolumesSound where
  order := hc.order.erase v
  volume w x hx := by
    have hx : (c.volumes.erase v).find w = some x := hx
    rw [Table.find_erase] at hx
    split at hx
    · cases hx
    · exact hc.volume w x hx

/-- A change of every record that keeps each sound keeps all sound. -/
theorem Core.VolumesSound.map {c : Core} (hc : c.VolumesSound) {f : Volume → Volume}
    (hf : ∀ x, x.Sound → (f x).Sound) :
    ({ c with volumes := c.volumes.map fun e => (e.1, f e.2) } : Core).VolumesSound where
  order := List.pairwise_map.2 hc.order
  volume w x hx := by
    have hx : Table.find (c.volumes.map fun e => (e.1, f e.2)) w = some x := hx
    rw [find_map] at hx
    obtain ⟨z, hz, rfl⟩ := Option.map_eq_some_iff.1 hx
    exact hf z (hc.volume w z hz)

theorem Prim.volumesSound {c c' : Core} (h : Prim c c') (hc : c.VolumesSound) : c'.VolumesSound := by
  cases h with
  | volume v x y hx hstep => exact hc.insert v (hstep.sound (hc.volume v x hx))
  | remove v => exact hc.erase v
  | volumes f hf => exact hc.map fun x hx => (hf x).sound hx
  | _ => exact ⟨hc.order, hc.volume⟩

theorem Extra.volumesSound {allow : Special → Prop} {c c' : Core} (h : Extra allow c c') (hc : c.VolumesSound) :
    c'.VolumesSound := by
  cases h with
  | prim _ hp => exact hp.volumesSound hc
  | define v x _ _ hg hs he hcut => exact hc.insert v (.of_defined hg hs he hcut)
  | _ => exact ⟨hc.order, hc.volume⟩

/-- Settles O9: each single change of the state keeps every volume sound (`VolumeStep.sound`), so every step does. -/
theorem volumesKept : Obligations.VolumesKept := by
  intro s t hs ht
  have hkept : t.dev.core.VolumesSound :=
    step_kept Core.VolumesSound (fun _ _ _ _ h => h.volumesSound)
      (fun _ => ⟨List.Pairwise.nil, fun _ _ h => by cases h⟩) (fun _ _ _ hd => ⟨hd.order, hd.volume⟩)
      ⟨hs.order, hs.volume⟩ ht
  exact ⟨hkept.order, hkept.volume⟩

/-! #### Place and epoch -/

/-- R61, R65: the volume y is x later on: its place stands, and its E has not fallen. -/
structure Volume.Later (x y : Volume) : Prop where
  base : y.base = x.base
  capacity : y.capacity = x.capacity
  epoch : x.epoch ≤ y.epoch

theorem Volume.Later.refl (x : Volume) : x.Later x := ⟨rfl, rfl, le_rfl⟩

theorem Volume.Later.trans {x y z : Volume} (h : x.Later y) (h' : y.Later z) : x.Later z :=
  ⟨h'.base.trans h.base, h'.capacity.trans h.capacity, h.epoch.trans h'.epoch⟩

theorem VolumeStep.later {x y : Volume} (h : VolumeStep x y) : x.Later y where
  base := h.base
  capacity := h.capacity
  epoch := by
    rcases h.epoch with ⟨he, _⟩ | ⟨he, _⟩
    · exact he.ge
    · omega

/-- Every volume of the second table is one of the first, later on. -/
def volumesLater (t t' : Table Volume) : Prop :=
  ∀ v y, t'.find v = some y → ∃ x, t.find v = some x ∧ x.Later y

theorem volumesLater.refl (t : Table Volume) : volumesLater t t := fun _ y hy => ⟨y, hy, .refl y⟩

theorem volumesLater.trans {a b c : Table Volume} (h : volumesLater a b) (h' : volumesLater b c) : volumesLater a c := by
  intro v z hz
  obtain ⟨y, hy, hyz⟩ := h' v z hz
  obtain ⟨x, hx, hxy⟩ := h v y hy
  exact ⟨x, hx, hxy.trans hyz⟩

theorem volumesLater.insert {t : Table Volume} {v : Nat} {x y : Volume} (hx : t.find v = some x) (h : x.Later y) :
    volumesLater t (t.insert v y) := by
  intro w z hz
  rw [Table.find_insert] at hz
  split at hz
  · rename_i hw; cases hz; exact ⟨x, hw ▸ hx, h⟩
  · exact ⟨z, hz, .refl z⟩

theorem volumesLater.erase (t : Table Volume) (v : Nat) : volumesLater t (t.erase v) := by
  intro w z hz
  rw [Table.find_erase] at hz
  split at hz
  · cases hz
  · exact ⟨z, hz, .refl z⟩

theorem volumesLater.map (t : Table Volume) {f : Volume → Volume} (hf : ∀ x : Volume, x.Later (f x)) :
    volumesLater t (t.map fun e => (e.1, f e.2)) := by
  intro w z hz
  rw [find_map] at hz
  obtain ⟨x, hx, rfl⟩ := Option.map_eq_some_iff.1 hz
  exact ⟨x, hx, hf x⟩

theorem Prim.volumesLater {c c' : Core} (h : Prim c c') : Machine.volumesLater c.volumes c'.volumes := by
  cases h with
  | volume v x y hx hstep => exact .insert hx hstep.later
  | remove v => exact .erase _ v
  | volumes f hf => exact .map _ fun x => (hf x).later
  | _ => exact .refl _

/-- A command that may not define a volume leaves only volumes that there were. -/
theorem Extra.volumesLater {allow : Special → Prop} {c c' : Core} (ha : ¬ allow .define) (h : Extra allow c c') :
    Machine.volumesLater c.volumes c'.volumes := by
  cases h with
  | prim _ hp => exact hp.volumesLater
  | define _ _ hdef => exact absurd hdef ha
  | _ => exact .refl _

/-- R62: only VOLUME DEFINE is allowed a new volume. -/
theorem not_allowed_define {i : Instr} (h : ∀ p tag, i ≠ .volumeDefine p tag) : ¬ allowed i .define := by
  cases i with
  | volumeDefine p tag => exact absurd rfl (h p tag)
  | _ => exact id

/-- R179: RESET# going high leaves the volumes. -/
theorem exec_resetRelease_volumes {l : Lines} {s t : State} (h : exec (.resetRelease l) s = .next t) :
    t.dev.volumes = s.dev.volumes := by
  simp only [exec, execResetRelease] at h
  cases h
  split <;> rfl

/-- Every command but VOLUME DEFINE leaves only volumes that there were. -/
theorem exec_volumesLater {i : Instr} {s t : State} (hi : ∀ p tag, i ≠ .volumeDefine p tag) (h : exec i s = .next t) :
    volumesLater s.dev.volumes t.dev.volumes := by
  by_cases hassert : i = .resetAssert
  · subst hassert
    cases h
    exact fun v y hy => by cases hy
  · by_cases hrel : ∃ l, i = .resetRelease l
    · obtain ⟨l, rfl⟩ := hrel
      exact exec_resetRelease_volumes h ▸ .refl _
    · exact (exec_wide hassert (fun l hl => hrel ⟨l, hl⟩) h).kept (fun c => volumesLater s.dev.volumes c.volumes)
        (fun c c' he hc => hc.trans (he.volumesLater (not_allowed_define hi))) (.refl _)

/-- From t to t' at most one volume has been defined, and no other has changed (R62). -/
def volumeAdded (t t' : Table Volume) : Prop := t' = t ∨ ∃ v x, t.find v = none ∧ t' = t.insert v x

theorem volumeDefine_added (d : Device) (p : PortId) (tag : Nat) (args : List Arg) :
    volumeAdded d.volumes (d.volumeDefine p tag args).volumes := by
  have hdeny (st : MgmtStatus) : volumeAdded d.volumes (d.deny p tag st).volumes :=
    .inl (congrArg Core.volumes (core_deny d p tag st))
  unfold Device.volumeDefine
  split
  · split
    · exact hdeny _
    · exact .inr ⟨_, _, defineRefusal_none (by assumption), rfl⟩
  · exact hdeny _

theorem exec_volumeDefine_added {p : PortId} {tag : Nat} {s t : State} (h : exec (.volumeDefine p tag) s = .next t) :
    volumeAdded s.dev.volumes t.dev.volumes := by
  simp only [exec, execVolumeDefine] at h
  obtain ⟨-, hlow, hhigh⟩ := event_eq h
  cases hr : s.dev.resetLow with
  | true => exact .inl (by rw [hlow hr])
  | false =>
    rw [hhigh hr]
    have hcore {d' : Device} (hd : d'.core = s.dev.core) : d'.volumes = s.dev.volumes := congrArg Core.volumes hd
    exact take_ind (fun e : Device => volumeAdded s.dev.volumes e.volumes) _ p tag _ _ _ _ (fun _ hd => .inl (hcore hd))
      fun d' args hd => hcore hd ▸ volumeDefine_added d' p tag args

/-- Settles O13: a command that defines no volume makes only changes that leave place and E (`exec_volumesLater`), and
VOLUME DEFINE only adds a volume (`exec_volumeDefine_added`). -/
theorem volumeKeepsPlaceAndEpochRises : Obligations.VolumeKeepsPlaceAndEpochRises := by
  intro i s t v y h hy
  by_cases hdef : ∃ p tag, i = .volumeDefine p tag
  · obtain ⟨p, tag, rfl⟩ := hdef
    have hy : t.dev.volumes.find v = some y := hy
    rcases exec_volumeDefine_added h with hsame | ⟨w, x, hnone, hadd⟩
    · rw [hsame] at hy
      exact .inl ⟨y, hy, rfl, rfl, le_rfl⟩
    · rw [hadd, Table.find_insert] at hy
      split at hy
      · rename_i hv
        exact .inr ⟨hv ▸ hnone, p, tag, rfl⟩
      · exact .inl ⟨y, hy, rfl, rfl, le_rfl⟩
  · obtain ⟨x, hx, hlater⟩ := exec_volumesLater (fun p tag hi => hdef ⟨p, tag, hi⟩) h v y hy
    exact .inl ⟨x, hx, hlater.base, hlater.capacity, hlater.epoch⟩

end Sys2Proof.Machine
end

section
/-! ### PRESERVE AREA and VOLUME DEFINE (O29, O30) -/

namespace Sys2Proof.Machine

/-- Chapter 4: a volume number outside 1 to 64. -/
theorem badVolume_iff (v : Nat) : badVolume v = true ↔ v = 0 ∨ v > 64 := by
  simp [badVolume]

/-! #### PRESERVE AREA (R60) -/

section
variable {s : State} {p : PortId} {tag : Nat} {t : Txn} {base n : Nat}

theorem exec_preserveArea (h : s.Issued p tag .preserveArea t [.num base, .num n]) :
    exec (.preserveArea p tag) s = .next { s with dev := (s.dev.taken p tag t).preserveArea p tag [.num base, .num n] } := by
  simp only [exec, execPreserveArea, event_high _ h.high, takeNow_issued h]

end

/-- Settles O29: the two checks in order (`deny_taken`), then the area is stored and answered (`reply_taken`). -/
theorem preserveAreaSets : Obligations.PreserveAreaSets := by
  intro s p tag t base n h bad Answers
  have hexec := exec_preserveArea h
  refine ⟨fun hb => hexec.trans ?_, fun hb hv => hexec.trans ?_, fun hb hv => hexec.trans ?_⟩
  · rw [Device.preserveArea, if_pos hb, deny_taken]
  · rw [Device.preserveArea, if_neg hb, if_pos (show (s.dev.taken p tag t).volumes ≠ [] from hv), deny_taken]
  · rw [Device.preserveArea, if_neg hb, if_neg (not_not.2 (show (s.dev.taken p tag t).volumes = [] from hv))]
    have hset := reply_taken { s.dev with area := some { base := base, slots := n }, pres.free := List.range n } p tag t
    exact congrArg (fun d => Host.Outcome.next { s with dev := d }) (hset .ok none [.num 8 base, .num 4 n])

/-! #### The checks of VOLUME DEFINE (R62) -/

/-- R62 check 1: an argument out of its range, or a volume that runs past the pool. -/
def defineBad (v base capacity reserve : Nat) : Prop :=
  v = 0 ∨ v > 64 ∨ capacity = 0 ∨ capacity > 2147483648 ∨ reserve > 4194304 ∨ base + 8 * capacity - 1 > 68719476735

/-- R62 check 4: the new volume's blocks meet the preserve area or a defined volume. -/
def Device.Overlapped (d : Device) (a : Area) (base capacity : Nat) : Prop :=
  (base < a.base + 8 * a.slots ∧ a.base < base + 8 * capacity)
    ∨ ∃ e ∈ d.volumes, base < e.2.base + 8 * e.2.capacity ∧ e.2.base < base + 8 * capacity

section
variable {d : Device} {v base capacity reserve : Nat} {a : Area}

theorem overlapped_iff : d.Overlapped a base capacity ↔
    overlaps base (8 * capacity) a.base (8 * a.slots) = true
      ∨ (d.volumes.any fun e => overlaps base (8 * capacity) e.2.base (8 * e.2.capacity)) = true := by
  simp [Device.Overlapped, overlaps]

theorem defineRefusal_bad (hb : defineBad v base capacity reserve) :
    d.defineRefusal v base capacity reserve = some .badArgument := by
  unfold Device.defineRefusal
  simp only [badVolume_iff, or_assoc]
  exact if_pos hb

/-- What follows R62's first check. -/
theorem defineRefusal_good (hb : ¬ defineBad v base capacity reserve) : d.defineRefusal v base capacity reserve =
    if (d.volume? v).isSome then some .conflict
    else match d.area with
      | none => some .conflict
      | some a =>
        if overlaps base (8 * capacity) a.base (8 * a.slots)
            ∨ (d.volumes.any fun e => overlaps base (8 * capacity) e.2.base (8 * e.2.capacity)) then some .conflict
        else if d.totalCapacity + capacity > Config.totalGrains then some .full
        else if d.totalReserve + reserve > a.slots then some .full
        else none := by
  unfold Device.defineRefusal
  simp only [badVolume_iff, or_assoc]
  exact if_neg hb

theorem defineRefusal_defined (hb : ¬ defineBad v base capacity reserve) (hv : d.volume? v ≠ none) :
    d.defineRefusal v base capacity reserve = some .conflict := by
  rw [defineRefusal_good hb, if_pos (Option.isSome_iff_ne_none.2 hv)]

theorem defineRefusal_noArea (hb : ¬ defineBad v base capacity reserve) (hv : d.volume? v = none) (ha : d.area = none) :
    d.defineRefusal v base capacity reserve = some .conflict := by
  rw [defineRefusal_good hb, hv, ha]
  rfl

section
variable (hb : ¬ defineBad v base capacity reserve) (hv : d.volume? v = none) (ha : d.area = some a)
include hb hv ha

/-- What follows R62's third check. -/
theorem defineRefusal_placed [Decidable (d.Overlapped a base capacity)] : d.defineRefusal v base capacity reserve =
    if d.Overlapped a base capacity then some .conflict
    else if d.totalCapacity + capacity > 2147483648 then some .full
    else if d.totalReserve + reserve > a.slots then some .full
    else none := by
  rw [defineRefusal_good hb, hv, ha]
  simp only [overlapped_iff, Option.isSome_none, Bool.false_eq_true, if_false]

theorem defineRefusal_overlapped (ho : d.Overlapped a base capacity) :
    d.defineRefusal v base capacity reserve = some .conflict := by
  classical rw [defineRefusal_placed hb hv ha, if_pos ho]

variable (ho : ¬ d.Overlapped a base capacity)
include ho

theorem defineRefusal_capacity (hc : d.totalCapacity + capacity > 2147483648) :
    d.defineRefusal v base capacity reserve = some .full := by
  classical rw [defineRefusal_placed hb hv ha, if_neg ho, if_pos hc]

variable (hc : d.totalCapacity + capacity ≤ 2147483648)
include hc

theorem defineRefusal_reserve (hr : d.totalReserve + reserve > a.slots) :
    d.defineRefusal v base capacity reserve = some .full := by
  classical rw [defineRefusal_placed hb hv ha, if_neg ho, if_neg (not_lt.2 hc), if_pos hr]

theorem defineRefusal_passes (hr : d.totalReserve + reserve ≤ a.slots) :
    d.defineRefusal v base capacity reserve = none := by
  classical rw [defineRefusal_placed hb hv ha, if_neg ho, if_neg (not_lt.2 hc), if_neg (not_lt.2 hr)]

end

end

/-! #### VOLUME DEFINE -/

section
variable {s : State} {p : PortId} {tag : Nat} {t : Txn} {v base capacity reserve imp anchor : Nat}

theorem exec_volumeDefine_refused {st : MgmtStatus}
    (h : s.Issued p tag .volumeDefine t [.num v, .num base, .num capacity, .num reserve, .num imp, .num anchor])
    (hr : s.dev.defineRefusal v base capacity reserve = some st) :
    exec (.volumeDefine p tag) s = .next { s with dev := s.dev.answered p tag t st none [] } := by
  have hr : (s.dev.taken p tag t).defineRefusal v base capacity reserve = some st := hr
  simp only [exec, execVolumeDefine, event_high _ h.high, takeNow_issued h, Device.volumeDefine, hr, deny_taken]

theorem exec_volumeDefine_accepted
    (h : s.Issued p tag .volumeDefine t [.num v, .num base, .num capacity, .num reserve, .num imp, .num anchor])
    (hr : s.dev.defineRefusal v base capacity reserve = none) :
    exec (.volumeDefine p tag) s = .next { s with
      dev := (s.dev.taken p tag t).setVolume v
        (Volume.defined base capacity reserve (imp ≠ 0) (anchor ≠ 0) { port := p, tag := tag }) } := by
  have hr : (s.dev.taken p tag t).defineRefusal v base capacity reserve = none := hr
  simp only [exec, execVolumeDefine, event_high _ h.high, takeNow_issued h, Device.volumeDefine, hr]

end

/-- The flags of a VOLUME DEFINE as the numbers they set (R63). -/
theorem ite_decide_ne_zero {α : Type} (n : Nat) (a b : α) :
    (if decide (n ≠ 0) then a else b) = if n = 0 then b else a := by
  by_cases h : n = 0 <;> simp [h]

/-- Settles O30: the checks in their order, then the PREPARING record is set. -/
theorem volumeDefineStarts : Obligations.VolumeDefineStarts := by
  intro s p tag t v base capacity reserve imp anchor h bad shares total Refused
  refine ⟨fun hb => exec_volumeDefine_refused h (defineRefusal_bad hb),
    fun hb hv => exec_volumeDefine_refused h (defineRefusal_defined hb hv),
    fun hb hv ha => exec_volumeDefine_refused h (defineRefusal_noArea hb hv ha), fun a ha hb hv =>
    ⟨fun ho => exec_volumeDefine_refused h (defineRefusal_overlapped hb hv ha ho),
      fun ho hc => exec_volumeDefine_refused h (defineRefusal_capacity hb hv ha ho hc),
      fun ho hc hr => exec_volumeDefine_refused h (defineRefusal_reserve hb hv ha ho hc hr), fun ho hc hr => ?_⟩⟩
  rw [exec_volumeDefine_accepted h (defineRefusal_passes hb hv ha ho hc hr), Volume.defined, ite_decide_ne_zero,
    ite_decide_ne_zero]
  rfl

end Sys2Proof.Machine
end

section
/-! ### VOLUME READ and SNAPSHOT LIST (O31) -/

namespace Sys2Proof.Machine

/-! #### The records sent, in the statements' layout (R186) -/

theorem volStateName_eq (x : Option Volume) : volStateName x = match x with
    | none => .undefined
    | some x => match x.state with
      | .preparing => .preparing
      | .ready => .ready
      | .removing => .removing := by
  cases x with
  | none => rfl
  | some x => unfold volStateName VolState.name; cases x.state <;> rfl

theorem Volume.cutName_eq (x : Volume) : x.cutName = if x.cut = none then .idle else .cutting := by
  unfold Volume.cutName Volume.cutting
  cases x.cut <;> rfl

theorem reportItems_eq (o : Option PassReport) : reportItems o = match o with
    | none => [.num 1 0, .raw (List.replicate 51 0)]
    | some r => [.num 1 1, .name r.outcome.name] ++ Item.optNum 4 r.snapshot ++ [.num 4 r.sent]
        ++ Item.optName (r.reason.map PassReason.name) ++ Item.optTime r.endTime := by
  cases o with
  | none => rfl
  | some r => simp [reportItems, fields]

/-- The record of VOLUME READ and of an answered VOLUME DEFINE, group by group (R61, R63, R74). -/
theorem volumeItems_eq (x : Option Volume) : volumeItems x =
    [.name (volStateName x)] ++ Item.optNum 8 (x.map Volume.base) ++ Item.optNum 4 (x.map Volume.capacity)
      ++ Item.optNum 4 (x.map Volume.epoch) ++ Item.optNum 4 (x.map Volume.reserve)
      ++ Item.optNum 4 (x.map Volume.slotsHeld) ++ Item.optNum 1 (x.map fun x => if x.reserveArmed then 1 else 0)
      ++ Item.optName (x.map fun x => if x.cut = none then .idle else .cutting) ++ Item.optNum 1 (x.map Volume.inFlight)
      ++ Item.optNum 1 (x.map Volume.retention) ++ Item.optName (x.map fun x => x.enrolment.name)
      ++ Item.optNum 2 (x.bind Volume.target) ++ Item.optNum 4 (x.map Volume.anchor)
      ++ reportItems (x.bind Volume.report) := by
  have hcut : x.map Volume.cutName = x.map fun x => if x.cut = none then .idle else .cutting :=
    congrArg (fun f => Option.map f x) (funext Volume.cutName_eq)
  unfold volumeItems
  rw [hcut]
  simp only [fields, List.flatten_cons, List.flatten_nil, List.append_nil, List.append_assoc]

/-- What VOLUME READ adds to the record: the volume's preserve entries and pending entries (R74). -/
theorem volumeReadItems_eq (d : Device) (v : Nat) : d.volumeReadItems v =
    volumeItems (d.volume? v)
      ++ Item.optNum 4 ((d.volume? v).map fun _ => (d.pres.map.filter fun e => e.volume = v).length)
      ++ Item.optNum 2 ((d.volume? v).map fun _ => (d.pres.table.filter fun e => e.2.volume = v).length) := by
  simp only [Device.volumeReadItems, fields, List.flatten_cons, List.flatten_nil, List.append_nil, List.append_assoc]

theorem Volume.snapshotItems_eq (x : Volume) (n : Snapshot) : x.snapshotItems n =
    [.num 4 n.number, .name n.kind.name] ++ Item.optTime n.cutTime
      ++ [.name (if n.state = .active then .active else .retiring), .num 1 n.pins]
      ++ Item.optName (if n.state = .retiring then
          some (if x.sweeps.head? = some n.number then .running else .waiting) else none) := by
  have hname : n.state.name = if n.state = .active then .active else .retiring := by cases n.state <;> rfl
  simp only [Volume.snapshotItems, fields, hname, List.flatten_cons, List.flatten_nil, List.append_nil, List.append_assoc]

theorem snapshotListItems_eq (d : Device) (v : Nat) : d.snapshotListItems v =
    [.name (volStateName (d.volume? v))] ++ Item.optNum 4 ((d.volume? v).map Volume.epoch)
      ++ Item.optName ((d.volume? v).map fun x => if x.cut = none then .idle else .cutting)
      ++ Item.optNum 2 ((d.volume? v).map fun _ => (d.heldOf v).length)
      ++ Item.optNum 1 ((d.volume? v).map Volume.retention)
      ++ (match d.volume? v with
          | none => [.num 1 0]
          | some x => .num 1 x.snapshots.length :: (x.snapshots.map x.snapshotItems).flatten) := by
  have hcut : (d.volume? v).map Volume.cutName = (d.volume? v).map fun x => if x.cut = none then .idle else .cutting :=
    congrArg (fun f => Option.map f (d.volume? v)) (funext Volume.cutName_eq)
  simp only [Device.snapshotListItems, hcut, fields, List.flatten_cons, List.flatten_nil, List.append_nil, List.append_assoc]
  cases d.volume? v with
  | none => rfl
  | some x => simp only [Item.counted, List.length_map]

/-! #### The reads -/

section
variable {s : State} {p : PortId} {tag : Nat} {t : Txn} {v : Nat}

theorem exec_volumeRead (h : s.Issued p tag .volumeRead t [.num v]) :
    exec (.volumeRead p tag) s = .next { s with dev := (s.dev.taken p tag t).volumeRead p tag [.num v] } := by
  simp only [exec, execVolumeRead, event_high _ h.high, takeNow_issued h]

theorem exec_snapshotList (h : s.Issued p tag .snapshotList t [.num v]) :
    exec (.snapshotList p tag) s = .next { s with dev := (s.dev.taken p tag t).snapshotList p tag [.num v] } := by
  simp only [exec, execSnapshotList, event_high _ h.high, takeNow_issued h]

/-- A command just taken leaves every write's job (R173). -/
theorem job_taken {d : Device} (ht : d.txn? p tag = some t) (w : WriteId) : (d.taken p tag t).job? w = d.job? w := by
  cases w with
  | slot k => rfl
  | server q g =>
    have htaken : (d.taken p tag t).txn? q g
        = if txnKey q g = txnKey p tag then some { t with command := none } else d.txn? q g := Table.find_insert ..
    by_cases hk : txnKey q g = txnKey p tag
    · have hq : d.txn? q g = some t := by rw [← ht]; exact congrArg d.txns.find hk
      simp only [Device.job?, htaken, hk, if_true, hq]
    · simp only [Device.job?, htaken, hk, if_false]

theorem heldOf_taken {d : Device} (ht : d.txn? p tag = some t) (v : Nat) : (d.taken p tag t).heldOf v = d.heldOf v := by
  simp only [Device.heldOf, Device.writeVolume, job_taken ht]
  rfl

theorem badVolume_false (h1 : 1 ≤ v) (h64 : v ≤ 64) : badVolume v = false := by
  rw [← Bool.not_eq_true, badVolume_iff]
  omega

end

/-- Settles O31: each read is refused for a bad number (`deny_taken`) or answered with its record (`reply_taken`); the
taking of the command changes nothing that the records show. -/
theorem volumeReadsAnswer : Obligations.VolumeReadsAnswer := by
  intro s p tag t v x state cutting
  refine ⟨fun h => ⟨fun hb => ?_, fun h1 h64 => ?_⟩, fun h => ⟨fun hb => ?_, fun h1 h64 => ?_⟩⟩
  · simp only [exec_volumeRead h, Device.volumeRead, (badVolume_iff v).2 hb, if_true, deny_taken]
  · have hitems : (s.dev.taken p tag t).volumeReadItems v = s.dev.volumeReadItems v := rfl
    simp only [exec_volumeRead h, Device.volumeRead, badVolume_false h1 h64, Bool.false_eq_true, if_false, reply_taken,
      hitems, volumeReadItems_eq, volumeItems_eq, volStateName_eq, reportItems_eq]
    rfl
  · simp only [exec_snapshotList h, Device.snapshotList, (badVolume_iff v).2 hb, if_true, deny_taken]
  · intro record
    have hitems : (s.dev.taken p tag t).snapshotListItems v = s.dev.snapshotListItems v := by
      simp only [Device.snapshotListItems, heldOf_taken h.txn]
      rfl
    have hrecord (x : Volume) : x.snapshotItems = record x := funext x.snapshotItems_eq
    simp only [exec_snapshotList h, Device.snapshotList, badVolume_false h1 h64, Bool.false_eq_true, if_false, reply_taken,
      hitems, snapshotListItems_eq, volStateName_eq, hrecord]
    rfl

end Sys2Proof.Machine
end

section
/-! ### The end of a map fill, and the removal of a volume (O32, O44) -/

namespace Sys2Proof.Machine

/-! #### The end of a removal (R72, R73) -/

/-- R72: the three conditions that end the removal of volume v, with record x. -/
def Device.AtEnd (d : Device) (v : Nat) (x : Volume) : Prop :=
  x.inFlight = 0 ∧ (∀ n ∈ x.snapshots, n.state = .active) ∧ ∀ e ∈ d.pres.table, e.2.volume ≠ v

/-- R73: the preserve entries of a volume, in map order. -/
def Device.entriesOf (d : Device) (v : Nat) : List PreserveEntry := d.pres.map.filter fun e => e.volume = v

/-- R73: the part with what volume v held freed: its entries, their slots, and its record. -/
def Device.withoutVolume (d : Device) (v : Nat) : Device := { d with
  pres.map := d.pres.map.filter fun e => e.volume ≠ v
  pres.free := d.pres.free ++ (d.entriesOf v).map PreserveEntry.slot
  volumes := d.volumes.erase v }

theorem withoutVolume_taken (d : Device) (p : PortId) (tag : Nat) (t : Txn) (v : Nat) :
    (d.taken p tag t).withoutVolume v = (d.withoutVolume v).taken p tag t := rfl

/-- What the record held is of no matter once it is gone. -/
theorem withoutVolume_setVolume (d : Device) (v : Nat) (x : Volume) :
    (d.setVolume v x).withoutVolume v = d.withoutVolume v := by
  simp only [Device.withoutVolume, Device.setVolume, Table.erase_insert]
  rfl

theorem Volume.hasRetiring_iff (x : Volume) : x.hasRetiring = false ↔ ∀ n ∈ x.snapshots, n.state = .active := by
  have hstate (n : Snapshot) : ¬ n.state = .retiring ↔ n.state = .active := by cases n.state <;> simp
  simp [Volume.hasRetiring, hstate]

section
variable {d : Device} {v : Nat} {x : Volume}

theorem removalDone_iff (d : Device) (v : Nat) (x : Volume) :
    d.removalDone v x = true ↔ x.state = .removing ∧ d.AtEnd v x := by
  simp [Device.removalDone, Device.AtEnd, x.hasRetiring_iff, and_assoc]

/-- A volume with no cut is looked at for the end of its removal alone (R72, R103). -/
theorem volumeCheck_uncut (hv : d.volume? v = some x) (hc : x.cut = none) : perform (.volumeCheck v) d =
    if d.removalDone v x then (d.finishRemoval v x, []) else (d, []) := by
  show volumeCheck v d = _
  simp only [volumeCheck, removalCheck, hv, hc]

theorem volumeCheck_removed (hv : d.volume? v = some x) (hc : x.cut = none) (hs : x.state = .removing)
    (h : d.AtEnd v x) : perform (.volumeCheck v) d = (d.finishRemoval v x, []) := by
  rw [volumeCheck_uncut hv hc, if_pos ((removalDone_iff d v x).2 ⟨hs, h⟩)]

theorem volumeCheck_stands (hv : d.volume? v = some x) (hc : x.cut = none) (h : ¬ d.AtEnd v x) :
    perform (.volumeCheck v) d = (d, []) := by
  rw [volumeCheck_uncut hv hc, if_neg fun hd => h ((removalDone_iff d v x).1 hd).2]

/-- The end of a removal answers its VOLUME REMOVE with the number of entries freed (R73). -/
theorem finishRemoval_eq {p : PortId} {tag : Nat} {t : Txn} (ha : x.answers = some { port := p, tag := tag })
    (ht : d.txn? p tag = some t) : d.finishRemoval v x =
      (d.withoutVolume v).answered p tag t .ok none [.num 4 (d.entriesOf v).length] := by
  unfold Device.finishRemoval Device.answer
  rw [ha]
  exact reply_eq (d.withoutVolume v) ht _ _ _

end

/-! #### The two ends standing alone -/

section
variable {s : State} (hl : s.dev.resetLow = false)
include hl

theorem exec_mapFillEnd (v : Nat) : exec (.mapFillEnd v) s = .next { s with dev := s.dev.endFill v } := by
  simp only [exec, execMapFillEnd, event_high _ hl]

theorem exec_removalEnd_removing {v : Nat} {x : Volume} (hv : s.dev.volume? v = some x) (hs : x.state = .removing) :
    exec (.removalEnd v) s = .next { s with dev := settle (s.dev, [.volumeCheck v]) } := by
  simp only [exec, execRemovalEnd, event_high _ hl, Device.isRemoving, hv, hs, decide_true, if_true]

theorem exec_removalEnd_other {v : Nat} (h : ∀ x, s.dev.volume? v = some x → x.state ≠ .removing) :
    exec (.removalEnd v) s = .next s := by
  have hnot : s.dev.isRemoving v = false := by
    unfold Device.isRemoving
    cases hv : s.dev.volume? v with
    | none => rfl
    | some x => exact decide_eq_false (h x hv)
  simp only [exec, execRemovalEnd, event_high _ hl, hnot, Bool.false_eq_true, if_false]

end

section
variable {d : Device} {v : Nat} {x : Volume}

theorem endFill_none (hv : d.volume? v = none) : d.endFill v = d := by
  simp only [Device.endFill, hv]

theorem endFill_other (hv : d.volume? v = some x) (hs : x.state ≠ .preparing) : d.endFill v = d := by
  simp only [Device.endFill, hv, hs, if_false]

/-- The end of a map fill makes the volume READY and answers its VOLUME DEFINE (R63). -/
theorem endFill_preparing {p : PortId} {tag : Nat} {t : Txn} (hv : d.volume? v = some x) (hs : x.state = .preparing)
    (ha : x.answers = some { port := p, tag := tag }) (ht : d.txn? p tag = some t) : d.endFill v =
      (d.setVolume v { x with state := .ready, answers := none }).answered p tag t .ok none
        (volumeItems (some { x with state := .ready, answers := none })) := by
  simp only [Device.endFill, hv, hs, if_true, Device.answer, ha]
  exact reply_eq (d.setVolume v { x with state := .ready, answers := none }) ht _ _ _

end

/-- Settles O44: the fill's end by the volume's state (`endFill_preparing`), the removal's by its conditions
(`volumeCheck_removed`, `volumeCheck_stands`). -/
theorem fillsAndRemovalsEnd : Obligations.FillsAndRemovalsEnd := by
  intro s v hl
  refine ⟨fun hv => ⟨?_, exec_removalEnd_other hl fun x hx => ?_⟩, fun x hv =>
    ⟨fun hs => ?_, fun p tag t hs ha ht => ?_, fun hs => exec_removalEnd_other hl fun y hy => ?_, fun hs hc hend => ?_,
      fun p tag t hs hc hend ha ht => ?_⟩⟩
  · rw [exec_mapFillEnd hl, endFill_none hv]
  · rw [hv] at hx; cases hx
  · rw [exec_mapFillEnd hl, endFill_other hv hs]
  · rw [exec_mapFillEnd hl, endFill_preparing hv hs ha ht, volumeItems_eq, reportItems_eq]
    rfl
  · rw [hv] at hy; cases hy; exact hs
  · rw [exec_removalEnd_removing hl hv hs, (Runs.one (volumeCheck_stands hv hc hend)).settle (by decide)]
  · rw [exec_removalEnd_removing hl hv hs, (Runs.one (volumeCheck_removed hv hc hs hend)).settle (by decide),
      finishRemoval_eq ha ht]
    rfl

/-! #### VOLUME REMOVE (R72) -/

/-- R72 check 4: something still wants volume v, with record x: a pin, the duplication queue, the running pass or a
restore. -/
def Device.Wanted (d : Device) (v : Nat) (x : Volume) : Prop :=
  (∃ n ∈ x.snapshots, n.pins > 0) ∨ (∃ e ∈ d.dup.queue, e.volume = v) ∨ (∃ q, d.dup.pass = some q ∧ q.volume = v)
    ∨ ∃ r ∈ d.copy.restores, r.state ≠ .ended ∧ ∃ e ∈ r.extents, e.destVolume = v

section
variable {d : Device} {v : Nat} {x : Volume}

theorem wanted_iff (d : Device) (v : Nat) (x : Volume) :
    d.Wanted v x ↔ (x.snapshots.any fun n => n.pins > 0) = true ∨ d.volumeWanted v = true := by
  cases hp : d.dup.pass with
  | none => simp [Device.Wanted, Device.volumeWanted, hp]
  | some q => simp [Device.Wanted, Device.volumeWanted, hp, or_assoc]

theorem removeRefusal_bad (hb : v = 0 ∨ v > 64) : d.removeRefusal v = some .badArgument :=
  if_pos ((badVolume_iff v).2 hb)

variable (h1 : 1 ≤ v) (h64 : v ≤ 64)
include h1 h64

theorem removeRefusal_undefined (hv : d.volume? v = none) : d.removeRefusal v = some .notFound := by
  simp only [Device.removeRefusal, badVolume_false h1 h64, Bool.false_eq_true, if_false, hv]

variable (hv : d.volume? v = some x)
include hv

theorem removeRefusal_busy (h : x.state ≠ .ready ∨ x.cut ≠ none) : d.removeRefusal v = some .busy := by
  have h : x.state ≠ .ready ∨ x.cutting = true := h.imp_right Option.isSome_iff_ne_none.2
  simp only [Device.removeRefusal, badVolume_false h1 h64, Bool.false_eq_true, if_false, hv, h, if_true]

variable (hs : x.state = .ready) (hc : x.cut = none)
include hs hc

/-- What follows R72's third check. -/
theorem removeRefusal_ready [Decidable (d.Wanted v x)] :
    d.removeRefusal v = if d.Wanted v x then some .conflict else none := by
  simp only [Device.removeRefusal, badVolume_false h1 h64, Bool.false_eq_true, if_false, hv, hs, Volume.cutting, hc,
    ne_eq, not_true_eq_false, Option.isSome_none, or_self, wanted_iff]

theorem removeRefusal_wanted (hw : d.Wanted v x) : d.removeRefusal v = some .conflict := by
  classical rw [removeRefusal_ready h1 h64 hv hs hc, if_pos hw]

theorem removeRefusal_passes (hw : ¬ d.Wanted v x) : d.removeRefusal v = none := by
  classical rw [removeRefusal_ready h1 h64 hv hs hc, if_neg hw]

end

/-- R72: the record of a volume being removed, its VOLUME REMOVE to be answered. -/
def Volume.leaving (x : Volume) (txn : TxnRef) : Volume := { x with state := .removing, answers := some txn }

section
variable {s : State} {p : PortId} {tag : Nat} {t : Txn} {v : Nat} {x : Volume}
variable (h : s.Issued p tag .volumeRemove t [.num v])
include h

theorem exec_volumeRemove_refused {st : MgmtStatus} (hr : s.dev.removeRefusal v = some st) :
    exec (.volumeRemove p tag) s = .next { s with dev := s.dev.answered p tag t st none [] } := by
  have hr : (s.dev.taken p tag t).removeRefusal v = some st := hr
  simp only [exec, execVolumeRemove, event_high _ h.high, takeThen_issued h, Device.volumeRemove, hr, Device.denyEffect,
    settle_nil, deny_taken]

theorem exec_volumeRemove_accepted (hv : s.dev.volume? v = some x) (hr : s.dev.removeRefusal v = none) :
    exec (.volumeRemove p tag) s = .next { s with
      dev := settle ((s.dev.taken p tag t).setVolume v (x.leaving { port := p, tag := tag }), [.volumeCheck v]) } := by
  have hr : (s.dev.taken p tag t).removeRefusal v = none := hr
  have hv : (s.dev.taken p tag t).volume? v = some x := hv
  simp only [exec, execVolumeRemove, event_high _ h.high, takeThen_issued h, Device.volumeRemove, hr, Device.onVolume, hv,
    Volume.leaving]

end

/-- Settles O32: the checks in their order; then the REMOVING volume is looked at, and stands or ends at once. -/
theorem volumeRemoveStarts : Obligations.VolumeRemoveStarts := by
  intro s p tag t v h Refused
  refine ⟨fun hb => exec_volumeRemove_refused h (removeRefusal_bad hb),
    fun h1 h64 hv => exec_volumeRemove_refused h (removeRefusal_undefined h1 h64 hv), fun x h1 h64 hv =>
    ⟨fun hb => exec_volumeRemove_refused h (removeRefusal_busy h1 h64 hv hb),
      fun hs hc hw => exec_volumeRemove_refused h (removeRefusal_wanted h1 h64 hv hs hc hw),
      fun hs hc hw hend => ?_, fun hs hc hw hend => ?_⟩⟩
  all_goals
    rw [exec_volumeRemove_accepted h hv (removeRefusal_passes h1 h64 hv hs hc hw)]
  · have hstands := volumeCheck_stands (x := x.leaving { port := p, tag := tag })
      (volume_setVolume (s.dev.taken p tag t) v _) hc hend
    rw [(Runs.one hstands).settle (by decide)]
    rfl
  · have hremoved := volumeCheck_removed (x := x.leaving { port := p, tag := tag })
      (volume_setVolume (s.dev.taken p tag t) v _) hc rfl hend
    have htxn : ((s.dev.taken p tag t).setVolume v (x.leaving { port := p, tag := tag })).txn? p tag
        = some { t with command := none } := txn_taken s.dev p tag t
    rw [(Runs.one hremoved).settle (by decide), finishRemoval_eq rfl htxn, withoutVolume_setVolume, withoutVolume_taken,
      answered_taken]
    rfl

end Sys2Proof.Machine
end

section
/-! ### RESERVE SET (O33) -/

namespace Sys2Proof.Machine

/-! #### The checks (R70) -/

/-- R70 check 1: an argument out of its range. -/
def reserveBad (v limit retention : Nat) : Prop := v = 0 ∨ v > 64 ∨ limit > 4194304 ∨ retention > 15

/-- R60: the number of preserve slots, 0 with no area set. -/
def Device.slotCount (d : Device) : Nat :=
  match d.area with
  | none => 0
  | some a => a.slots

section
variable {d : Device} {v limit retention : Nat} {x : Volume}

theorem reserveRefusal_bad (hb : reserveBad v limit retention) :
    d.reserveRefusal v limit retention = some .badArgument := by
  unfold Device.reserveRefusal
  simp only [badVolume_iff, or_assoc]
  exact if_pos hb

variable (hb : ¬ reserveBad v limit retention)
include hb

/-- What follows R70's first check. -/
theorem reserveRefusal_good : d.reserveRefusal v limit retention =
    match d.volume? v with
    | none => some .notFound
    | some x =>
      if x.state = .removing then some .notFound
      else if limit < x.slotsHeld then some .conflict
      else if d.totalReserve - x.reserve + limit > d.slotCount then some .full
      else none := by
  have hslots : (d.area.map Area.slots).getD 0 = d.slotCount := by unfold Device.slotCount; cases d.area <;> rfl
  unfold Device.reserveRefusal
  simp only [badVolume_iff, or_assoc, hslots]
  exact if_neg hb

theorem reserveRefusal_undefined (hv : d.volume? v = none) :
    d.reserveRefusal v limit retention = some .notFound := by
  rw [reserveRefusal_good hb, hv]

variable (hv : d.volume? v = some x)
include hv

theorem reserveRefusal_removing (hs : x.state = .removing) :
    d.reserveRefusal v limit retention = some .notFound := by
  simp only [reserveRefusal_good hb, hv, hs, if_true]

variable (hs : x.state ≠ .removing)
include hs

theorem reserveRefusal_held (hh : limit < x.slotsHeld) : d.reserveRefusal v limit retention = some .conflict := by
  simp only [reserveRefusal_good hb, hv, hs, if_false, hh, if_true]

variable (hh : limit ≥ x.slotsHeld)
include hh

theorem reserveRefusal_full (hf : d.totalReserve - x.reserve + limit > d.slotCount) :
    d.reserveRefusal v limit retention = some .full := by
  simp only [reserveRefusal_good hb, hv, hs, if_false, not_lt.2 hh, hf, if_true]

theorem reserveRefusal_passes (hf : d.totalReserve - x.reserve + limit ≤ d.slotCount) :
    d.reserveRefusal v limit retention = none := by
  simp only [reserveRefusal_good hb, hv, hs, if_false, not_lt.2 hh, not_lt.2 hf]

end

/-! #### The reserve checks (R71) -/

/-- R71: the RESERVE_LOW notice is due. -/
abbrev Volume.Low (x : Volume) : Prop :=
  x.reserveArmed = true ∧ x.reserve > 0 ∧ x.slotsHeld ≥ x.reserve - x.reserve / 8

/-- R71: a volume's record after the RESERVE_LOW check. -/
def Volume.lowChecked (x : Volume) : Volume := { x with reserveArmed := if x.Low then false else x.reserveArmed }

/-- R71: a volume's record after the re-arm check. -/
def Volume.rearmChecked (x : Volume) : Volume :=
  { x with reserveArmed := x.reserveArmed || decide (x.slotsHeld ≤ x.reserve - x.reserve / 4) }

/-- R71: the part after the notice of the RESERVE_LOW check, if it is due; the management unit alone changes. -/
def Device.lowNoted (d : Device) (v : Nat) (x : Volume) : Device := { d with
  mgmt := if x.Low then (d.noted .reserveLow (.volume v) (.number x.slotsHeld)).mgmt else d.mgmt }

theorem lowNoted_eq (d : Device) (v : Nat) (x : Volume) :
    d.lowNoted v x = if x.Low then d.noted .reserveLow (.volume v) (.number x.slotsHeld) else d := by
  unfold Device.lowNoted
  split <;> rfl

section
variable {d : Device} {v : Nat} {x : Volume}

theorem onVolume_eq (hv : d.volume? v = some x) (f : Volume → Volume) : d.onVolume v f = d.setVolume v (f x) := by
  simp only [Device.onVolume, hv]

/-- The RESERVE_LOW check of a record just set (R71). -/
theorem reserveLowCheck_setVolume (d : Device) (v : Nat) (x : Volume) :
    (d.setVolume v x).reserveLowCheck v = (d.lowNoted v x).setVolume v x.lowChecked := by
  unfold Device.reserveLowCheck Volume.lowChecked
  rw [volume_setVolume, lowNoted_eq]
  dsimp only
  by_cases h : x.Low
  · rw [if_pos h, if_pos h, if_pos h, setVolume_setVolume, notify_eq]
    rfl
  · rw [if_neg h, if_neg h, if_neg h]

theorem Volume.rearmChecked_eq (x : Volume) : x.rearmChecked =
    if x.reserveArmed = false ∧ x.slotsHeld ≤ x.reserve - x.reserve / 4 then { x with reserveArmed := true } else x := by
  unfold Volume.rearmChecked
  split
  · rename_i h
    rw [decide_eq_true h.2, Bool.or_true]
  · rename_i h
    cases ha : x.reserveArmed
    · rw [decide_eq_false fun hle => h ⟨ha, hle⟩, Bool.or_false, ← ha]
    · rw [Bool.true_or, ← ha]

/-- The re-arm check of a record just set (R71). -/
theorem reserveRearm_setVolume (d : Device) (v : Nat) (x : Volume) :
    (d.setVolume v x).reserveRearm v = d.setVolume v x.rearmChecked := by
  unfold Device.reserveRearm
  rw [onVolume_eq (volume_setVolume d v x), setVolume_setVolume, Volume.rearmChecked_eq]

/-- The record a RESERVE SET stores, before its checks (R70). -/
def Volume.reserved (x : Volume) (limit retention : Nat) : Volume := { x with reserve := limit, retention := retention }

/-- An accepted RESERVE SET stores the limit and the retention and runs both checks (R70, R71). -/
theorem setReserve_eq (hv : d.volume? v = some x) (limit retention : Nat) : d.setReserve v limit retention =
    (d.lowNoted v (x.reserved limit retention)).setVolume v (x.reserved limit retention).lowChecked.rearmChecked := by
  unfold Device.setReserve
  rw [onVolume_eq hv]
  show ((d.setVolume v (x.reserved limit retention)).reserveLowCheck v).reserveRearm v = _
  rw [reserveLowCheck_setVolume, reserveRearm_setVolume]

/-! #### The service of the slot-wait queue (R87) -/

/-- The record of a volume that holds one slot more, with the RESERVE_LOW check (R71, R80). -/
def Volume.slotTaken (x : Volume) : Volume := ({ x with slotsHeld := x.slotsHeld + 1 } : Volume).lowChecked

/-- A volume below its limit takes the head of the free queue, with the RESERVE_LOW check (R71, R80). -/
theorem takeSlot_eq {slot : Nat} {frees : List Nat} (hv : d.volume? v = some x) (hf : d.pres.free = slot :: frees)
    (hlt : x.slotsHeld < x.reserve) : d.takeSlot v =
      some ((({ d with pres.free := frees } : Device).lowNoted v { x with slotsHeld := x.slotsHeld + 1 }).setVolume v
        x.slotTaken, slot) := by
  unfold Device.takeSlot Volume.slotTaken
  simp only [hv, hf, hlt, if_true, reserveLowCheck_setVolume]

theorem grainAddr_eq (hv : d.volume? v = some x) (g : Nat) : d.grainAddr v g = x.base + 8 * g := by
  simp only [Device.grainAddr, hv]

/-- The part with the pending entry of grain g of volume v set. -/
def Device.withEntry (d : Device) (v g : Nat) (m : Pending) : Device :=
  { d with pres.table := d.pres.table.insert (pendKey v g) m }

theorem entry_withEntry (d : Device) (v g : Nat) (m : Pending) : (d.withEntry v g m).entry? v g = some m :=
  Table.find_insert_same _ _ _

theorem withEntry_withEntry (d : Device) (v g : Nat) (m n : Pending) :
    (d.withEntry v g m).withEntry v g n = d.withEntry v g n := by
  simp only [Device.withEntry, Table.insert_insert]

theorem onEntry_eq {g : Nat} {m : Pending} (hm : d.entry? v g = some m) (f : Pending → Pending) :
    d.onEntry v g f = d.withEntry v g (f m) := by
  simp only [Device.onEntry, hm, Device.withEntry]

/-- The entry at the head of the slot-wait queue leaves it (R87). -/
theorem leaveSlotWait_head {g : Nat} {waits : List Nat} {m : Pending} (hv : d.volume? v = some x)
    (hw : x.slotWait = g :: waits) (hg : g ∉ waits) (hm : d.entry? v g = some m) : d.leaveSlotWait v g =
      (d.setVolume v { x with slotWait := waits }).withEntry v g { m with phase := .reading } := by
  have hwaits : x.slotWait.filter (· ≠ g) = waits := by
    rw [hw, List.filter_cons_of_neg (by simp), List.filter_eq_self]
    exact fun k hk => decide_eq_true fun hkg => hg (hkg ▸ hk)
  unfold Device.leaveSlotWait
  rw [onVolume_eq hv, hwaits]
  exact onEntry_eq (d := d.setVolume v { x with slotWait := waits }) hm _

/-- With the pool link UP the preserve read of an entry that has its slot is requested (R80). -/
theorem startPreserveRead_up {g : Nat} {m : Pending} (hv : d.volume? v = some x) (hm : d.entry? v g = some m)
    (hl : d.pool.link = .up) (base q slot : Nat) : d.startPreserveRead v g base q slot =
      ((d.withEntry v g { m with phase := .preserving base q slot }).joinPool
        { requester := .preserve v g, op := .read (x.base + 8 * g) 8 }, []) := by
  have hup : ¬ (d.withEntry v g { m with phase := .preserving base q slot }).pool.link = .down := by
    show ¬ d.pool.link = .down
    rw [hl]
    decide
  have haddr : (d.withEntry v g { m with phase := .preserving base q slot }).grainAddr v g = x.base + 8 * g :=
    grainAddr_eq (d := d.withEntry v g _) hv g
  unfold Device.startPreserveRead
  rw [onEntry_eq hm]
  dsimp only
  rw [if_neg hup, haddr]

/-- The part that the statement names, by the operations that lead to it. -/
theorem slotServed_eq (d : Device) (v g : Nat) (x : Volume) (m : Pending) (base q slot : Nat) (waits frees : List Nat) :
    d.slotServed v g x m base q slot waits frees =
      (((({ d with pres.free := frees } : Device).lowNoted v { x with slotsHeld := x.slotsHeld + 1 }).setVolume v
        { x.slotTaken with slotWait := waits }).withEntry v g { m with phase := .preserving base q slot }).joinPool
          { requester := .preserve v g, op := .read (x.base + 8 * g) 8 } := by
  by_cases h : ({ x with slotsHeld := x.slotsHeld + 1 } : Volume).Low
  · have hx : x.reserveArmed = true ∧ x.reserve > 0 ∧ x.slotsHeld + 1 ≥ x.reserve - x.reserve / 8 := h
    simp only [Device.slotServed, if_pos hx, Device.lowNoted, Volume.slotTaken, Volume.lowChecked]
    rfl
  · have hx : ¬ (x.reserveArmed = true ∧ x.reserve > 0 ∧ x.slotsHeld + 1 ≥ x.reserve - x.reserve / 8) := h
    simp only [Device.slotServed, if_neg hx, Device.lowNoted, Volume.slotTaken, Volume.lowChecked]
    rfl

/-- The head of the slot-wait queue is served, and the queue is looked at again (R87). -/
theorem serveSlots_head {g base q slot : Nat} {waits frees : List Nat} {m : Pending} (hv : d.volume? v = some x)
    (hw : x.slotWait = g :: waits) (hg : g ∉ waits) (hm : d.entry? v g = some m) (hp : m.phase = .slotWait base q)
    (hf : d.pres.free = slot :: frees) (hlt : x.slotsHeld < x.reserve) (hl : d.pool.link = .up) :
    perform (.serveSlots v) d = (d.slotServed v g x m base q slot waits frees, [.serveSlots v]) := by
  let e : Device := ({ d with pres.free := frees } : Device).lowNoted v { x with slotsHeld := x.slotsHeld + 1 }
  let y : Volume := { x.slotTaken with slotWait := waits }
  let f : Device := ((e.setVolume v x.slotTaken).setVolume v y).withEntry v g { m with phase := .reading }
  have htake : d.takeSlot v = some (e.setVolume v x.slotTaken, slot) := takeSlot_eq hv hf hlt
  have hleave : (e.setVolume v x.slotTaken).leaveSlotWait v g = f :=
    leaveSlotWait_head (volume_setVolume e v x.slotTaken) hw hg hm
  have hvol : f.volume? v = some y := volume_setVolume _ v y
  have hread : f.startPreserveRead v g base q slot = (d.slotServed v g x m base q slot waits frees, []) := by
    rw [startPreserveRead_up hvol (entry_withEntry _ _ _ _) hl, withEntry_withEntry, setVolume_setVolume, slotServed_eq]
    rfl
  show serveSlots v d = _
  simp only [serveSlots, hv, hw, hm, hp, htake, hleave, hread]
  rfl

/-- The slot-wait queue after one service: at the limit, or with either queue empty, it stands (R87). -/
theorem serveSlots_served {g base q slot : Nat} {waits frees : List Nat} {m : Pending}
    (h : x.reserve = x.slotsHeld + 1 ∨ waits = [] ∨ frees = []) :
    perform (.serveSlots v) (d.slotServed v g x m base q slot waits frees)
      = (d.slotServed v g x m base q slot waits frees, []) := by
  have hvol : (d.slotServed v g x m base q slot waits frees).volume? v = some { x.slotTaken with slotWait := waits } := by
    rw [slotServed_eq]
    unfold Device.volume?
    rw [joinPool_volumes]
    exact Table.find_insert_same _ _ _
  have hfree : (d.slotServed v g x m base q slot waits frees).pres.free = frees := by
    rw [slotServed_eq, joinPool_pres]
    rfl
  rcases h with hlimit | hwaits | hfrees
  · exact serveSlots_none hvol (.inr hlimit.le)
  · exact serveSlots_quiet hvol hwaits
  · exact serveSlots_none hvol (.inl (hfree.trans hfrees))

end

/-! #### RESERVE SET -/

/-- R70, R71: the record of a volume whose limit and retention a RESERVE SET has stored, both checks run. -/
def Volume.reserveSet (x : Volume) (limit retention : Nat) : Volume := (x.reserved limit retention).lowChecked.rearmChecked

/-- R70, R71: the part once a RESERVE SET has been stored and answered. -/
def Device.reserveStored (d : Device) (p : PortId) (tag : Nat) (t : Txn) (v limit retention : Nat) (x : Volume) : Device :=
  ((d.lowNoted v (x.reserved limit retention)).setVolume v (x.reserveSet limit retention)).answered p tag t .ok none
    [.num 4 limit, .num 1 retention, .num 4 x.slotsHeld]

theorem reply_setReserve {d : Device} {v : Nat} {x : Volume} (hv : d.volume? v = some x) (p : PortId) (tag : Nat) (t : Txn)
    (limit retention : Nat) :
    ((d.taken p tag t).setReserve v limit retention).reply p tag .ok none
      [.num 4 limit, .num 1 retention, .num 4 (((d.taken p tag t).setReserve v limit retention).slotsHeld v)]
      = d.reserveStored p tag t v limit retention x := by
  have hset : (d.taken p tag t).setReserve v limit retention
      = ((d.lowNoted v (x.reserved limit retention)).setVolume v (x.reserveSet limit retention)).taken p tag t :=
    setReserve_eq (d := d.taken p tag t) hv limit retention
  have hheld : ((d.taken p tag t).setReserve v limit retention).slotsHeld v = x.slotsHeld := by
    have hvol : ((d.taken p tag t).setReserve v limit retention).volume? v = some (x.reserveSet limit retention) := by
      rw [hset]
      exact volume_setVolume _ v _
    rw [Device.slotsHeld, hvol]
    rfl
  rw [hheld, hset, reply_taken]
  rfl

section
variable {s : State} {p : PortId} {tag : Nat} {t : Txn} {v limit retention : Nat}
variable (h : s.Issued p tag .reserveSet t [.num v, .num limit, .num retention])
include h

theorem exec_reserveSet_refused {st : MgmtStatus} (hr : s.dev.reserveRefusal v limit retention = some st) :
    exec (.reserveSet p tag) s = .next { s with dev := s.dev.answered p tag t st none [] } := by
  have hr : (s.dev.taken p tag t).reserveRefusal v limit retention = some st := hr
  simp only [exec, execReserveSet, event_high _ h.high, takeThen_issued h, Device.reserveSet, hr, Device.denyEffect,
    settle_nil, deny_taken]

theorem exec_reserveSet_accepted {x : Volume} (hv : s.dev.volume? v = some x)
    (hr : s.dev.reserveRefusal v limit retention = none) : exec (.reserveSet p tag) s = .next { s with
      dev := settle (s.dev.reserveStored p tag t v limit retention x, [.serveSlots v]) } := by
  have hr : (s.dev.taken p tag t).reserveRefusal v limit retention = none := hr
  simp only [exec, execReserveSet, event_high _ h.high, takeThen_issued h, Device.reserveSet, hr, reply_setReserve hv]

end

/-- Settles O33: the checks in their order; then the record is stored (`reply_setReserve`), and the slot-wait queue stands
(`serveSlots_none`) or its head is served (`serveSlots_head`) and no other (`serveSlots_served`). -/
theorem reserveSetStores : Obligations.ReserveSetStores := by
  intro s p tag t v limit retention h bad slots Refused
  refine ⟨fun hb => exec_reserveSet_refused h (reserveRefusal_bad hb),
    fun hb hv => exec_reserveSet_refused h (reserveRefusal_undefined hb hv), fun x hb hv => ?_⟩
  intro total low armed y e f
  refine ⟨fun hs => exec_reserveSet_refused h (reserveRefusal_removing hb hv hs),
    fun hs hh => exec_reserveSet_refused h (reserveRefusal_held hb hv hs hh),
    fun hs hh hf => exec_reserveSet_refused h (reserveRefusal_full hb hv hs hh hf), fun hs hh hf => ?_⟩
  have hstored : s.dev.reserveStored p tag t v limit retention x = f := by
    have he : e = s.dev.lowNoted v (x.reserved limit retention) := (lowNoted_eq s.dev v (x.reserved limit retention)).symm
    show _ = Device.answered { e with volumes := s.dev.volumes.insert v y } p tag t .ok none _
    rw [he]
    rfl
  have hexec := exec_reserveSet_accepted h hv (reserveRefusal_passes hb hv hs hh hf)
  rw [hstored] at hexec
  have hvol : f.volume? v = some y := Table.find_insert_same _ _ _
  have hpres : f.pres = s.dev.pres := by rw [← hstored]; rfl
  have hpool : f.pool = s.dev.pool := by rw [← hstored]; rfl
  rw [hexec]
  refine ⟨rfl, fun hstands => ?_, fun g waits m base q slot frees hw hg hm hp hfree hlt hl hone => ?_⟩
  · have hquiet : perform (.serveSlots v) f = (f, []) := by
      rcases hstands with hw | hfree | hlimit
      · exact serveSlots_quiet hvol hw
      · exact serveSlots_none hvol (.inl (by rw [hpres, hfree]))
      · exact serveSlots_none hvol (.inr hlimit.le)
    rw [(Runs.one hquiet).settle (by decide)]
  · have hentry : f.entry? v g = some m := by rw [Device.entry?, hpres]; exact hm
    have hserved := serveSlots_head hvol hw hg hentry hp (by rw [hpres, hfree]) hlt (by rw [hpool, hl])
    rw [(Runs.task hserved (Runs.one (serveSlots_served hone))).settle (by decide)]

end Sys2Proof.Machine
end

section
/-! ### Retirements, and the entries that wait for slots (R84, R87, R88, R90, R107, R111) -/

namespace Sys2Proof.Machine

/-! #### Snapshots of a volume -/

theorem Volume.activeIn_iff (x : Volume) (lo hi : Nat) :
    x.activeIn lo hi = true ↔ ∃ n ∈ x.snapshots, n.state = .active ∧ lo ≤ n.number ∧ n.number ≤ hi := by
  simp [Volume.activeIn, and_assoc]

theorem Snapshot.loose_iff (n : Snapshot) : n.loose = true ↔ n.state = .active ∧ n.pins = 0 := by
  simp [Snapshot.loose]

/-- R107, R108: the volume once the snapshot a of its list has become RETIRING with nothing to answer. -/
def Volume.retires (x : Volume) (before : List Snapshot) (a : Snapshot) (after : List Snapshot) : Volume := { x with
  snapshots := before ++ { a with state := .retiring, answers := none } :: after
  sweeps := x.sweeps ++ [a.number]
  sweepAt := if x.sweeps = [] then none else x.sweepAt
  sweepFreed := if x.sweeps = [] then 0 else x.sweepFreed }

theorem Volume.startRetirement_eq {x : Volume} {before after : List Snapshot} {a : Snapshot}
    (hs : x.snapshots = before ++ a :: after) (hn : ∀ b ∈ before ++ after, b.number ≠ a.number) :
    x.startRetirement a.number none = x.retires before a after := by
  have hid (f : Snapshot → Snapshot) (l : List Snapshot) (hl : ∀ b ∈ l, b ∈ before ++ after) :
      l.map (fun b => if b.number = a.number then f b else b) = l :=
    (List.map_congr_left fun b hb => if_neg (hn b (hl b hb))).trans (List.map_id l)
  have hmap (f : Snapshot → Snapshot) : x.snapshots.map (fun b => if b.number = a.number then f b else b)
      = before ++ f a :: after := by
    rw [hs, List.map_append, List.map_cons, if_pos rfl, hid f before fun b => List.mem_append_left _,
      hid f after fun b => List.mem_append_right _]
  unfold Volume.startRetirement Volume.retires
  by_cases h : x.sweeps = []
  · simp only [h, if_true, hmap]
  · simp only [h, if_false, hmap]

theorem Volume.retires_fresh {x : Volume} {before after : List Snapshot} {a : Snapshot} (hat : x.sweepAt = none)
    (hf : x.sweepFreed = 0) : x.retires before a after = { x with
      snapshots := before ++ { a with state := .retiring, answers := none } :: after
      sweeps := x.sweeps ++ [a.number] } := by
  simp only [Volume.retires, hat, hf, ite_self]

theorem Volume.retires_first {x : Volume} {before after : List Snapshot} {a : Snapshot} (h : x.sweeps = []) :
    x.retires before a after = { x with
      snapshots := before ++ { a with state := .retiring, answers := none } :: after
      sweeps := [a.number], sweepAt := none, sweepFreed := 0 } := by
  simp only [Volume.retires, h, if_true, List.nil_append]

section
variable {d : Device} {v : Nat} {x : Volume}

/-! #### Volumes and entries under the arbiter -/

@[simp] theorem volume_joinPool (d : Device) (r : PoolRequest) (v : Nat) : (d.joinPool r).volume? v = d.volume? v := by
  rw [Device.volume?, joinPool_volumes]
  rfl

/-! #### The request for a retirement (R88, R111) -/

theorem askRetirement_retiring (hv : d.volume? v = some x) (h : ∃ n ∈ x.snapshots, n.state = .retiring) :
    perform (.askRetirement v) d = (d, []) := by
  have hret : x.hasRetiring = true := by simpa [Volume.hasRetiring] using h
  show askRetirement v d = _
  simp only [askRetirement, hv, hret, if_true]

/-- R111: the oldest ACTIVE unpinned snapshot starts retiring. -/
theorem askRetirement_starts {before after : List Snapshot} {a : Snapshot} (hv : d.volume? v = some x)
    (hact : ∀ b ∈ x.snapshots, b.state = .active) (hs : x.snapshots = before ++ a :: after)
    (hpins : ∀ b ∈ before, b.pins ≠ 0) (ha : a.pins = 0) (hn : ∀ b ∈ before ++ after, b.number ≠ a.number) :
    perform (.askRetirement v) d = (d.setVolume v (x.retires before a after), []) := by
  have hret : x.hasRetiring = false := x.hasRetiring_iff.2 hact
  have hstate : a.state = .active := hact a (by simp [hs])
  have hfind : x.snapshots.find? Snapshot.loose = some a := by
    rw [hs, List.find?_append, List.find?_eq_none.2 fun b hb => by simp [Snapshot.loose_iff, hpins b hb]]
    exact List.find?_cons_of_pos (a.loose_iff.2 ⟨hstate, ha⟩)
  have hstart : d.startRetirement v a.number none = d.setVolume v (x.retires before a after) := by
    rw [Device.startRetirement, onVolume_eq hv, Volume.startRetirement_eq hs hn]
  show askRetirement v d = _
  simp only [askRetirement, hv, hret, hfind, hstart]
  rfl

/-- R88: with no candidate the entries that wait fail. -/
theorem askRetirement_none (hv : d.volume? v = some x) (h : ∀ b ∈ x.snapshots, b.state = .active ∧ b.pins ≠ 0) :
    perform (.askRetirement v) d = (d, d.failWaits v x.slotWait) := by
  have hret : x.hasRetiring = false := x.hasRetiring_iff.2 fun b hb => (h b hb).1
  have hfind : x.snapshots.find? Snapshot.loose = none :=
    List.find?_eq_none.2 fun b hb => by simp [Snapshot.loose_iff, (h b hb).2]
  show askRetirement v d = _
  simp only [askRetirement, hv, hret, hfind]
  rfl

theorem failWaits_one {g b q : Nat} {m : Pending} (hm : d.entry? v g = some m) (hp : m.phase = .slotWait b q) :
    d.failWaits v [g] = [.failWait v g q] := by
  simp only [Device.failWaits, List.filterMap_cons, hm, hp, List.filterMap_nil]

/-! #### A waiting write and its entry -/

section
variable {g : Nat} {m : Pending} {p : PortId} {tag : Nat} {t : Txn}

/-- The volume's only SLOT_WAIT entry leaves the queue (R85, R88, R90). -/
theorem leaveSlotWait_sole (hv : d.volume? v = some x) (hsw : x.slotWait = [g]) (hm : d.entry? v g = some m) :
    d.leaveSlotWait v g = (d.setVolume v { x with slotWait := [] }).withEntry v g { m with phase := .reading } :=
  leaveSlotWait_head hv hsw List.not_mem_nil hm

/-- R9, R29, R66: an admitted WRITE that charges nothing and is on no waiter list ends. -/
theorem writeEnd_uncharged (ht : d.txn? p tag = some t) (hk : t.kind = .write) (hc : t.job.charge = some 0)
    (hleave : d.leaveWaits (.server p tag) t.job = d) (hv : d.volume? t.job.volume = some x) (st : Status) :
    perform (.writeEnd (.server p tag) st) d =
      ((d.setVolume t.job.volume { x with inFlight := x.inFlight - 1 }).ended p tag t st 0 [],
        t.job.waits.map (Task.giveUp t.job.volume) ++ [.volumeCheck t.job.volume]) := by
  have hcount : (if st = .ok then 0 else 0) = 0 := ite_self 0
  show endWrite (.server p tag) st d = _
  simp only [endWrite, job_server ht hk, hc, hleave, Device.settleCharge, if_true, lowerInFlight_eq hv,
    Device.reportWrite, hcount, List.append_nil]
  exact congrArg (·, _) (endTxn_eq (d.setVolume t.job.volume { x with inFlight := x.inFlight - 1 }) (t := t) ht _ _ _)

/-- R88: the entry that waits fails and its one write, which charges nothing, ends with RESERVE_FULL; here no copy read
waits for the entry's place. -/
theorem runs_failWait {b q : Nat} (hv : d.volume? v = some x) (hm : d.entry? v g = some m)
    (hp : m.phase = .slotWait b q) (hr : m.readers = 0) (hw : m.waiters = [.server p tag]) (hsw : x.slotWait = [g])
    (hrw : d.pres.readerWait = []) (hcut : x.cut = none) (hs : x.state ≠ .removing) (ht : d.txn? p tag = some t)
    (hk : t.kind = .write) (htv : t.job.volume = v) (hc : t.job.charge = some 0) (htw : t.job.waits = [g]) :
    Runs 8 [.failWait v g q] d (Device.ended { d with
      volumes := d.volumes.insert v { x with slotWait := [], inFlight := x.inFlight - 1 }
      pres.table := d.pres.table.erase (pendKey v g) } p tag t .reserveFull 0 []) := by
  subst htv
  let y : Volume := { x with slotWait := [] }
  let e : Pending := { m with phase := .reading, waiters := [] }
  let f : Device := (d.setVolume t.job.volume y).withEntry t.job.volume g e
  let z : Volume := { y with inFlight := x.inFlight - 1 }
  let h : Device := (f.setVolume t.job.volume z).ended p tag t .reserveFull 0 []
  have hfe : f.entry? t.job.volume g = some e := entry_withEntry _ _ _ _
  have hfv : f.volume? t.job.volume = some y := volume_setVolume d _ y
  have hhe : h.entry? t.job.volume g = some e := hfe
  have hhv : h.volume? t.job.volume = some z := volume_setVolume f _ z
  have hfail : perform (.failWait t.job.volume g q) d
      = (f, [.writeEnd (.server p tag) .reserveFull, .dropEntry t.job.volume g]) := by
    have hon : (d.leaveSlotWait t.job.volume g).onEntry t.job.volume g (fun e => { e with waiters := [] }) = f := by
      rw [leaveSlotWait_sole hv hsw hm, onEntry_eq (entry_withEntry _ _ _ _), withEntry_withEntry]
    show failWait t.job.volume g q d = _
    simp only [failWait, hm, hp, if_true, hon, hw]
    rfl
  have hleave : f.leaveWaits (.server p tag) t.job = f := by
    show t.job.waits.foldl _ f = f
    rw [htw, List.foldl_cons, List.foldl_nil, onEntry_eq hfe]
    exact withEntry_withEntry _ _ _ _ _
  have hend : perform (.writeEnd (.server p tag) .reserveFull) f
      = (h, [.giveUp t.job.volume g, .volumeCheck t.job.volume]) := by
    rw [writeEnd_uncharged (d := f) ht hk hc hleave hfv, htw]
    rfl
  have hgive : perform (.giveUp t.job.volume g) h = (h, []) :=
    giveUp_quiet fun n hn => .inl fun b' p' => by
      cases hhe.symm.trans hn
      exact PendPhase.noConfusion
  have hcheck : perform (.volumeCheck t.job.volume) h = (h, []) := volumeCheck_quiet hhv hcut hs
  have hdrop : Runs 4 [.dropEntry t.job.volume g] h (h.removeEntry t.job.volume g) :=
    dropEntry_runs hhe rfl hr rfl hrw hhv hs
  have hgone : h.removeEntry t.job.volume g = Device.ended { d with
      volumes := d.volumes.insert t.job.volume { x with slotWait := [], inFlight := x.inFlight - 1 }
      pres.table := d.pres.table.erase (pendKey t.job.volume g) } p tag t .reserveFull 0 [] := by
    simp only [h, f, Device.removeEntry, Device.ended, Device.withEntry, Device.setVolume, Table.erase_insert,
      Table.insert_insert]
    rfl
  rw [← hgone]
  exact Runs.task hfail ((Runs.task hend ((Runs.one hgive).cons (Runs.one hcheck))).cons hdrop)

/-- R84, R8: an entry with no reader is removed, and its one waiting WRITE, its grain in need of no preservation now,
goes on to the pool; here no copy read waits for the entry's place. -/
theorem runs_dropEntry_waiter (hv : d.volume? v = some x) (hs : x.state ≠ .removing) (hm : d.entry? v g = some m)
    (hp : m.phase = .reading) (hr : m.readers = 0) (hw : m.waiters = [.server p tag]) (hrw : d.pres.readerWait = [])
    (hl : d.pool.link = .up) (ht : d.txn? p tag = some t) (hk : t.kind = .write) (htv : t.job.volume = v)
    (hc : t.job.charge ≠ none) (hst : t.job.stage = .admitting) (htw : t.job.waits = [g]) (hn : x.needs g = false) :
    Runs 6 [.dropEntry v g] d (Device.joinPool { d with
        volumes := d.volumes.insert v { x with grains := Table.put x.fill x.grains g x.epoch }
        pres.table := d.pres.table.erase (pendKey v g)
        txns := d.txns.insert (txnKey p tag) { t with job := { t.job with stage := .queued, waits := [] } } }
      { requester := .server p tag, op := .write (x.base + t.job.first) t.job.blocks t.job.payload }) := by
  subst htv
  let e : Device := d.removeEntry t.job.volume g
  let u : Txn := { t with job := { t.job with waits := [] } }
  let y : Volume := x.setW g x.epoch
  let f : Device := (e.setTxn p tag u).setVolume t.job.volume y
  have hdrop := dropEntry_perform hm hp hr
  rw [hw] at hdrop
  have hlook : perform (.reevaluate (.server p tag) t.job.volume g) e = (f, []) := by
    have hje : e.job? (.server p tag) = some t.job := job_server (d := e) ht hk
    have hwaits : t.job.waits.filter (· ≠ g) = [] := by simp [htw]
    have hneeds : (e.setTxn p tag u).needs t.job.volume g = false := by
      have hv' : (e.setTxn p tag u).volume? t.job.volume = some x := hv
      simp only [Device.needs, hv', hn]
    have hcur : (e.setTxn p tag u).setCurrent t.job.volume g = f := onVolume_eq (d := e.setTxn p tag u) hv _
    show reevaluateGrain (.server p tag) t.job.volume g e = _
    simp only [reevaluateGrain, hje, if_neg hc, onJob_server (d := e) ht, hwaits]
    rw [if_neg (by rw [hneeds]; decide), hcur]
  have hstart : perform (.startPreservation t.job.volume g) f = (f, []) :=
    startPreservation_quiet (Table.find_erase_same _ _)
  have hft : f.txn? p tag = some u := txn_setTxn e p tag u
  have hfv : f.volume? t.job.volume = some y := volume_setVolume _ _ y
  let r : PoolRequest :=
    { requester := .server p tag, op := .write (x.base + t.job.first) t.job.blocks t.job.payload }
  let q : Device := f.setTxn p tag { u with job := { u.job with stage := .queued } }
  have hhand : perform (.handOn (.server p tag)) f = (q.joinPool r, []) := by
    have hop : q.jobOp u.job false = r.op := by
      have hqv : q.volume? u.job.volume = some y := hfv
      simp only [Device.jobOp, hqv]
      rfl
    show handOnWrite (.server p tag) f = _
    simp only [handOnWrite, job_server hft hk]
    rw [if_pos ⟨hc, rfl, hst⟩, if_neg (by rw [show f.pool.link = .up from hl]; decide), onJob_server hft]
    exact congrArg (fun op => (q.joinPool { requester := .server p tag, op := op }, [])) hop
  have hserve : perform .serveReaders (q.joinPool r) = (q.joinPool r, []) :=
    serveReaders_quiet (by rw [joinPool_pres]; exact hrw)
  have hremoval : perform (.removalCheck t.job.volume) (q.joinPool r) = (q.joinPool r, []) :=
    removalCheck_quiet (x := y) ((volume_joinPool q r _).trans hfv) hs
  have hq : q = { d with
      volumes := d.volumes.insert t.job.volume { x with grains := Table.put x.fill x.grains g x.epoch }
      pres.table := d.pres.table.erase (pendKey t.job.volume g)
      txns := d.txns.insert (txnKey p tag) { t with job := { t.job with stage := .queued, waits := [] } } } := by
    simp only [q, f, Device.setTxn, Device.setVolume, Table.insert_insert]
    rfl
  rw [← hq]
  exact Runs.task hdrop ((Runs.one hlook).cons ((Runs.one hstart).cons ((Runs.one hhand).cons
    ((Runs.one hserve).cons (Runs.one hremoval)))))

end

end

end Sys2Proof.Machine
end

section
/-! ### The visits of a sweep, and the end of a retirement (O45) -/

namespace Sys2Proof.Machine

/-! #### The visits (R89, R109) -/

/-- R109: the running sweep of volume v has not come to the entry yet. -/
def Volume.ToVisit (x : Volume) (v : Nat) (e : PreserveEntry) : Prop :=
  e.volume = v ∧ ∀ g f, x.sweepAt = some (g, f) → g < e.grain ∨ (g = e.grain ∧ f < e.first)

section
variable {d : Device} {v : Nat} {x : Volume}

theorem nextVisit_none_iff : d.nextVisit v x = none ↔ ∀ e ∈ d.pres.map, ¬ x.ToVisit v e := by
  unfold Device.nextVisit Volume.ToVisit
  rw [List.find?_eq_none]
  cases x.sweepAt with
  | none => simp
  | some a =>
    obtain ⟨g, f⟩ := a
    simp [Prod.ext_iff]

/-- R109: the first entry in map order that the sweep has not come to is the next it visits. -/
theorem nextVisit_eq_some {before after : List PreserveEntry} {e : PreserveEntry} (hs : d.pres.map = before ++ e :: after)
    (hb : ∀ f ∈ before, ¬ x.ToVisit v f) (he : x.ToVisit v e) : d.nextVisit v x = some e := by
  have hbefore : Device.nextVisit { d with pres.map := before } v x = none := nextVisit_none_iff.2 hb
  have hsole : ¬ Device.nextVisit { d with pres.map := [e] } v x = none :=
    fun h => nextVisit_none_iff.1 h e (List.mem_singleton_self e) he
  unfold Device.nextVisit at hbefore hsole ⊢
  rw [hs, List.find?_append, hbefore, Option.none_or]
  exact List.find?_cons_of_pos (by simpa using hsole)

theorem sweepVisit_idle (hv : d.volume? v = some x) (h : x.sweeps = [] ∨ d.nextVisit v x = none) :
    sweepVisit v d = (d, []) := by
  unfold sweepVisit
  rw [hv]
  dsimp only
  split
  · rfl
  · rename_i hsw
    rw [h.resolve_left hsw]

/-- R109: an entry in whose range an ACTIVE snapshot lies is kept. -/
theorem sweepVisit_keeps {e : PreserveEntry} (hv : d.volume? v = some x) (hsw : x.sweeps ≠ [])
    (hn : d.nextVisit v x = some e) (ha : x.activeIn e.first e.last = true) :
    sweepVisit v d = (d.setVolume v { x with sweepAt := some (e.grain, e.first) }, []) := by
  simp only [sweepVisit, hv, if_neg hsw, hn, ha, if_true]

/-- R89, R109: the volume whose sweep has freed the entry e. -/
def Volume.swept (x : Volume) (e : PreserveEntry) : Volume :=
  ({ x with sweepAt := some (e.grain, e.first), sweepFreed := x.sweepFreed + 1 } : Volume).slotBack

/-- R89, R109: an entry in whose range none lies is freed, its slot at the tail of the free queue. -/
theorem sweepVisit_frees {e : PreserveEntry} (hv : d.volume? v = some x) (hsw : x.sweeps ≠ [])
    (hn : d.nextVisit v x = some e) (ha : x.activeIn e.first e.last = false) :
    sweepVisit v d = ({ d with
      pres.map := d.pres.map.filter (· ≠ e)
      pres.free := d.pres.free ++ [e.slot]
      volumes := d.volumes.insert v (x.swept e) }, [.serveSlots v]) := by
  let y : Volume := { x with sweepAt := some (e.grain, e.first) }
  let f : Device := { d.setVolume v y with pres.map := d.pres.map.filter (· ≠ e) }
  have hfv : f.volume? v = some y := volume_setVolume d v y
  have hback := returnSlot_eq (volume_setVolume f v { y with sweepFreed := y.sweepFreed + 1 }) e.slot
  simp only [sweepVisit, hv, if_neg hsw, hn, ha, Bool.false_eq_true, if_false]
  refine Prod.ext ?_ rfl
  show (f.onVolume v fun x => { x with sweepFreed := x.sweepFreed + 1 }).returnSlot v e.slot = _
  rw [onVolume_eq hfv, hback]
  simp only [f, Device.setVolume, Table.insert_insert]
  rfl

/-! #### The end of a retirement (R110) -/

theorem endRetirement_idle (hv : d.volume? v = some x) (h : x.sweeps = [] ∨ d.nextVisit v x ≠ none) :
    endRetirement v d = (d, []) := by
  unfold endRetirement
  rw [hv]
  dsimp only
  split
  · rfl
  · rename_i k rest hsw
    exact if_pos (Option.isSome_iff_ne_none.2 (h.resolve_left (by simp [hsw])))

/-- R110: the volume once the record k has left its list, the rest of the sweep order still to come. -/
def Volume.retired (x : Volume) (k : Nat) (rest : List Nat) : Volume := { x with
  snapshots := x.snapshots.filter fun m => m.number ≠ k, sweeps := rest, sweepAt := none, sweepFreed := 0 }

/-- R110: the part after SNAPSHOT_RETIRED for record k of volume v, z the volume's record. -/
def Device.retiredTo (d : Device) (v : Nat) (x : Volume) (k : Nat) (z : Volume) : Device :=
  { d.noted .snapshotRetired (.snapshot v k) (.number x.sweepFreed) with volumes := d.volumes.insert v z }

theorem volume_retiredTo (d : Device) (v : Nat) (x : Volume) (k : Nat) (z : Volume) :
    (d.retiredTo v x k z).volume? v = some z := Table.find_insert_same _ _ _

theorem retiredTo_setVolume (d : Device) (v : Nat) (x : Volume) (k : Nat) (z y : Volume) :
    (d.retiredTo v x k z).setVolume v y = d.retiredTo v x k y := by
  simp only [Device.retiredTo, Device.setVolume, Table.insert_insert]

/-- R110: a sweep that has visited every entry ends; what follows are the looks at the entries that wait (R90), at the
volume's cut, the answer of its RETIRE, and the look at the volume. -/
theorem endRetirement_eq {k : Nat} {rest : List Nat} {n : Snapshot} (hv : d.volume? v = some x)
    (hsw : x.sweeps = k :: rest) (hn : d.nextVisit v x = none) (hf : x.snapshots.find? (fun m => m.number = k) = some n) :
    endRetirement v d = (d.retiredTo v x k (x.retired k rest),
      x.slotWait.map (Task.lapse v) ++ [.askIfWaiting v, .roomFreed v]
        ++ n.answers.toList.map (Task.answerRetire · x.sweepFreed) ++ [.volumeCheck v]) := by
  simp only [endRetirement, hv, hsw, hn, Option.isSome_none, Bool.false_eq_true, if_false, hf, Option.bind_some,
    notify_eq]
  rfl

theorem roomFreed_uncut (hv : d.volume? v = some x) (hc : x.cut = none) : perform (.roomFreed v) d = (d, []) := by
  show roomFreed v d = _
  simp only [roomFreed, hv, hc]

/-- R110: a cut that waits for room in the list gets it. -/
theorem roomFreed_cut {c : CutRecord} (hv : d.volume? v = some x) (hc : x.cut = some c) (hl : x.snapshots.length < 16) :
    perform (.roomFreed v) d = (d.setVolume v { x with cut := some { c with room := .have } }, [.volumeCheck v]) := by
  show roomFreed v d = _
  simp only [roomFreed, hv, hc]
  exact if_pos hl

theorem askIfWaiting_none (hv : d.volume? v = some x) (h : x.slotWait = []) : perform (.askIfWaiting v) d = (d, []) := by
  show askIfWaiting v d = _
  simp only [askIfWaiting, hv, h, if_true]

theorem askIfWaiting_some (hv : d.volume? v = some x) (h : x.slotWait ≠ []) :
    perform (.askIfWaiting v) d = (d, [.askRetirement v]) := by
  show askIfWaiting v d = _
  simp only [askIfWaiting, hv, if_neg h]

/-- R90: an entry whose need has not lapsed stands. -/
theorem lapse_stands {g b q : Nat} {m : Pending} (hv : d.volume? v = some x) (hm : d.entry? v g = some m)
    (hp : m.phase = .slotWait b q) (ha : x.activeIn b (q - 1) = true) : perform (.lapse v g) d = (d, []) := by
  show lapseWait v g d = _
  simp only [lapseWait, hv, hm, hp, ha, if_true]

/-- R90: an entry whose need has lapsed leaves the queue. -/
theorem lapse_leaves {g b q : Nat} {m : Pending} (hv : d.volume? v = some x) (hm : d.entry? v g = some m)
    (hp : m.phase = .slotWait b q) (ha : x.activeIn b (q - 1) = false) :
    perform (.lapse v g) d = (d.leaveSlotWait v g, [.dropEntry v g]) := by
  show lapseWait v g d = _
  simp only [lapseWait, hv, hm, hp, ha, Bool.false_eq_true, if_false]

/-- R110: with no cut to get room, and the volume not REMOVING, the looks after a retirement find nothing. -/
theorem runs_retired_uncut (hv : d.volume? v = some x) (hc : x.cut = none) (hs : x.state ≠ .removing) :
    Runs 2 [.roomFreed v, .volumeCheck v] d d :=
  (Runs.one (roomFreed_uncut hv hc)).cons (Runs.one (volumeCheck_quiet hv hc hs))

/-- R90, R110: with no entry that waits for a slot besides, nothing follows a retirement. -/
theorem runs_retired_quiet (hv : d.volume? v = some x) (hw : x.slotWait = []) (hc : x.cut = none)
    (hs : x.state ≠ .removing) : Runs 3 [.askIfWaiting v, .roomFreed v, .volumeCheck v] d d :=
  (Runs.one (askIfWaiting_none hv hw)).cons (runs_retired_uncut hv hc hs)

end

/-! #### The commands -/

section
variable {s : State} {v b : Nat} {x : Volume} {d : Device}

theorem exec_sweepVisit (hl : s.dev.resetLow = false) {e : Device} {ts : List Task} (he : sweepVisit v s.dev = (e, ts))
    (hr : Runs b ts e d) (hb : b ≤ 100) : exec (.sweepVisit v) s = .next { s with dev := d } := by
  simp only [exec, execSweepVisit, event_high _ hl, he, hr.settle (by omega : b ≤ 4294967296)]

theorem exec_retirementEnd (hl : s.dev.resetLow = false) {e : Device} {ts : List Task}
    (he : endRetirement v s.dev = (e, ts)) (hr : Runs b ts e d) (hb : b ≤ 100) :
    exec (.retirementEnd v) s = .next { s with dev := d } := by
  simp only [exec, execRetirementEnd, event_high _ hl, he, hr.settle (by omega : b ≤ 4294967296)]

end

/-- Settles O45: a visit by the entry it comes to (`nextVisit_eq_some`); the end of a retirement (`endRetirement_eq`) by
what the looks that follow it find: nothing, a cut that waits for room, or an entry that waits for a slot. -/
theorem sweepsVisitAndEnd : Obligations.SweepsVisitAndEnd := by
  intro s v x hl hv later
  refine ⟨fun h => ⟨?_, ?_⟩, fun h => ?_, fun e hm he => ?_, fun before e after hsw hs hb he => ?visit,
    fun k rest n hsw hnone hs hf => ?ends⟩
  · exact exec_sweepVisit hl (sweepVisit_idle hv (.inl h)) (.nil _) (by decide)
  · exact exec_retirementEnd hl (endRetirement_idle hv (.inl h)) (.nil _) (by decide)
  · exact exec_sweepVisit hl (sweepVisit_idle hv (.inr (nextVisit_none_iff.2 h))) (.nil _) (by decide)
  · have hnext : s.dev.nextVisit v x ≠ none := fun h => nextVisit_none_iff.1 h e hm he
    exact exec_retirementEnd hl (endRetirement_idle hv (.inr hnext)) (.nil _) (by decide)
  case visit =>
    have hnext : s.dev.nextVisit v x = some e := nextVisit_eq_some hs hb he
    refine ⟨fun hact => ?_, fun hact => ?_⟩
    · exact exec_sweepVisit hl (sweepVisit_keeps hv hsw hnext ((x.activeIn_iff _ _).2 hact)) (.nil _) (by decide)
    · have hnone : x.activeIn e.first e.last = false :=
        Bool.eq_false_iff.2 fun h => let ⟨n, hn, ha⟩ := (x.activeIn_iff _ _).1 h; hact n hn ha
      have hfrees := sweepVisit_frees hv hsw hnext hnone
      intro y freed
      have hfv : freed.volume? v = some y := volume_setVolume _ v y
      refine ⟨fun hw => ?_, fun g waits m base q slot frees hw hg hm hp hfree hlt hup hone => ?_⟩
      · exact exec_sweepVisit hl hfrees (Runs.one (serveSlots_quiet (d := freed) hfv hw)) (by decide)
      · have hserved := serveSlots_head (d := freed) hfv hw hg hm hp hfree hlt hup
        exact exec_sweepVisit hl hfrees (Runs.task hserved (Runs.one (serveSlots_served (x := y) hone))) (by decide)
  case ends =>
    have hend := endRetirement_eq hv hsw (nextVisit_none_iff.2 hnone) hf
    intro y
    have hvol : (s.dev.retiredTo v x k y).volume? v = some y := volume_retiredTo s.dev v x k y
    refine ⟨fun hw hc ha => ?_, fun p tag t hw hc ha ht => ?_, fun c hw hc ha hfl hroom => ?_,
      fun g base q m p tag t hw hc ha hm hp hr hwt hrw hup ht hk htv hch hst htw => ?waits⟩
    all_goals rw [hw, ha] at hend
    · exact exec_retirementEnd hl hend (runs_retired_quiet hvol hw hc hs) (by decide)
    · have hanswer : perform (.answerRetire { port := p, tag := tag } x.sweepFreed) (s.dev.retiredTo v x k y)
          = ((s.dev.retiredTo v x k y).answered p tag t .ok none [.num 4 x.sweepFreed], []) :=
        congrArg (·, []) (reply_eq (s.dev.retiredTo v x k y) (t := t) ht _ _ _)
      exact exec_retirementEnd hl hend ((Runs.one (askIfWaiting_none hvol hw)).cons
        ((Runs.one (roomFreed_uncut hvol hc)).cons ((Runs.one hanswer).cons
          (Runs.one (volumeCheck_quiet (x := y) hvol hc hs))))) (by decide)
    · have hroom' := roomFreed_cut hvol hc hroom
      rw [retiredTo_setVolume] at hroom'
      have hcheck := volumeCheck_drains (volume_retiredTo s.dev v x k { y with cut := some { c with room := .have } })
        (Option.some_ne_none _) hfl
      exact exec_retirementEnd hl hend ((Runs.one (askIfWaiting_none hvol hw)).cons
        ((Runs.task hroom' (Runs.one hcheck)).cons (Runs.one hcheck))) (by decide)
    case waits =>
      intro needed
      have hentry : (s.dev.retiredTo v x k y).entry? v g = some m := hm
      have hneeded : y.activeIn base (q - 1) = true ↔ needed := y.activeIn_iff _ _
      have hwaits : y.slotWait ≠ [] := by rw [show y.slotWait = [g] from hw]; exact List.cons_ne_nil _ _
      have asks {b : Nat} {e : Device} (hn : needed) (hrun : Runs b [.askRetirement v] (s.dev.retiredTo v x k y) e)
          (hrest : Runs 2 [.roomFreed v, .volumeCheck v] e e) (hb : b ≤ 90) :
          exec (.retirementEnd v) s = .next { s with dev := e } :=
        exec_retirementEnd hl hend ((Runs.one (lapse_stands hvol hentry hp (hneeded.2 hn))).cons
          ((Runs.task (askIfWaiting_some hvol hwaits) hrun).cons hrest)) (by omega)
      refine ⟨fun hn hneeds => ?_, fun hn hret => ?_, fun before a after hn hact hs' hpins ha' hnum => ?_,
        fun hn hall => ?_⟩
      · have hlapse := lapse_leaves hvol hentry hp (Bool.eq_false_iff.2 fun h => hn (hneeded.1 h))
        rw [leaveSlotWait_sole hvol hw hentry, retiredTo_setVolume] at hlapse
        let z : Volume := { y with slotWait := [] }
        let left : Device := (s.dev.retiredTo v x k z).withEntry v g { m with phase := .reading }
        have hdrop := runs_dropEntry_waiter (d := left) (volume_retiredTo s.dev v x k z) hs (entry_withEntry _ _ _ _) rfl
          hr hwt hrw hup ht hk htv (by simp [hch]) hst htw hneeds
        simp only [left, Device.withEntry, Device.retiredTo, Table.erase_insert, Table.insert_insert] at hdrop
        refine exec_retirementEnd hl hend ((Runs.task hlapse hdrop).cons (runs_retired_quiet
          (x := { z with grains := Table.put x.fill x.grains g x.epoch }) ?_ rfl hc hs)) (by decide)
        rw [volume_joinPool]
        exact Table.find_insert_same _ _ _
      · exact asks hn (Runs.one (askRetirement_retiring hvol hret)) (runs_retired_uncut hvol hc hs) (by decide)
      · have hstart := askRetirement_starts hvol hact hs' hpins ha' hnum
        rw [retiredTo_setVolume] at hstart
        have hlooks := runs_retired_uncut (volume_retiredTo s.dev v x k (y.retires before a after)) hc hs
        rw [Volume.retires_fresh rfl rfl] at hstart hlooks
        exact asks hn (Runs.one hstart) hlooks (by decide)
      · have hnone := askRetirement_none hvol hall
        rw [show y.slotWait = [g] from hw, failWaits_one hentry hp] at hnone
        have hfail := runs_failWait hvol hentry hp hr hwt hw hrw hc hs ht hk htv hch htw
        simp only [Device.retiredTo, Table.insert_insert] at hfail
        let z : Volume := { y with slotWait := [], inFlight := x.inFlight - 1 }
        exact asks hn (Runs.task hnone hfail) (runs_retired_uncut (x := z) (Table.find_insert_same _ _ _) hc hs) (by decide)

end Sys2Proof.Machine
end

section
/-! ### A WRITE whose grain needs preservation (R66, R78 to R81, R87, R88, R111) -/

namespace Sys2Proof.Machine

/-! #### What the arbiter leaves of transactions (R13) -/

/-- What the arbiter's bookkeeping and every issue keep, the joining of a request keeps. -/
theorem joinPool_keeps {P : Device → Prop} (hpool : ∀ (d : Device) (q : Pool), P d → P { d with pool := q })
    (hissue : ∀ (d : Device) (k : PoolTagId) (r : PoolRequest), P d → P (d.issue k r)) {d : Device} (h : P d)
    (r : PoolRequest) : P (d.joinPool r) := by
  have hone {d e : Device} (hd : P d) (he : d.grantOne = some e) : P e := by
    have key (q : Pool) (k : PoolTagId) (u : PoolRequest) (h : some (({ d with pool := q } : Device).issue k u) = some e) :
        P e := Option.some.inj h ▸ hissue _ k u (hpool d q hd)
    unfold Device.grantOne at he
    (repeat' split at he) <;> first | exact key _ _ _ he | exact absurd he (by simp)
  have hloop (n : Nat) : ∀ d : Device, P d → P (grantLoop n d) := by
    induction n with
    | zero => exact fun _ hd => hd
    | succ n ih =>
      intro d hd
      unfold grantLoop
      cases hg : d.grantOne with
      | none => exact hd
      | some e => exact ih e (hone hd hg)
  unfold Device.joinPool Device.grantPool
  cases r.requester <;> exact hloop _ _ (hpool d _ h)

/-- R13: of a transaction the arbiter changes the stage alone. -/
theorem txn_joinPool {d : Device} (r : PoolRequest) {p : PortId} {tag : Nat} {u : Txn}
    (h : (d.joinPool r).txn? p tag = some u) :
    ∃ t st, d.txn? p tag = some t ∧ u = { t with job := { t.job with stage := st } } := by
  let P (e : Device) : Prop := ∀ u, e.txn? p tag = some u →
    ∃ t st, d.txn? p tag = some t ∧ u = { t with job := { t.job with stage := st } }
  have hissue (e : Device) (k : PoolTagId) (r : PoolRequest) (he : P e) : P (e.issue k r) := by
    obtain ⟨q, op⟩ := r
    intro u hu
    cases q with
    | preserve v g => exact he u hu
    | slot j =>
      refine he u ?_
      simp only [Device.issue, Device.onJob] at hu
      (repeat' split at hu) <;> exact hu
    | server q n =>
      cases hq : e.txn? q n with
      | none =>
        have hq' : (e.setTag k (.busy (.server q n) e.clock.now)).txn? q n = none := hq
        simp only [Device.issue, Device.onTxn, hq'] at hu
        exact he u hu
      | some y =>
        rw [issue_server e k op hq] at hu
        have hu : Table.find (e.txns.insert (txnKey q n) _) (txnKey p tag) = some u := hu
        rw [Table.find_insert] at hu
        split at hu
        · rename_i hkey
          have hy : e.txn? p tag = some y := by rw [Device.txn?, hkey]; exact hq
          obtain ⟨t, st, ht, rfl⟩ := he y hy
          exact ⟨t, _, ht, (Option.some.inj hu).symm⟩
        · exact he u hu
  exact joinPool_keeps (P := P) (fun _ _ hd => hd) hissue (fun t ht => ⟨t, t.job.stage, ht, rfl⟩) r u h

/-- R8, R79: with no grain left to take, a WRITE that waits on an entry, or one that has ended, is not handed on. -/
theorem runs_walk_waiting {d : Device} {p : PortId} {tag : Nat} (h : ∀ t, d.txn? p tag = some t → t.job.waits ≠ []) :
    Runs 2 [.walk (.server p tag) []] d d := by
  have hjob {j : Job} (hj : d.job? (.server p tag) = some j) : j.waits ≠ [] := by
    simp only [Device.job?] at hj
    cases ht : d.txn? p tag with
    | none => simp [ht] at hj
    | some t =>
      simp only [ht] at hj
      split at hj
      · exact Option.some.inj hj ▸ h t ht
      · cases hj
  have hhand : perform (.handOn (.server p tag)) d = (d, []) := by
    show handOnWrite (.server p tag) d = _
    unfold handOnWrite
    cases hj : d.job? (.server p tag) with
    | none => rfl
    | some j => exact if_neg fun k => hjob hj k.2.1
  have hwalk : perform (.walk (.server p tag) []) d = (d, [])
      ∨ perform (.walk (.server p tag) []) d = (d, [.handOn (.server p tag)]) := by
    show walkGrains (.server p tag) [] d = _ ∨ walkGrains (.server p tag) [] d = _
    unfold walkGrains
    cases d.job? (.server p tag) with
    | none => exact .inl rfl
    | some j =>
      by_cases hc : j.charge = none
      · exact .inl (if_pos hc)
      · exact .inr (if_neg hc)
  rcases hwalk with hw | hw
  · exact (Runs.one hw).mono (by decide)
  · exact Runs.task hw (Runs.one hhand)

/-! #### The start of a preservation (R80) -/

section
variable {d : Device} {v g : Nat} {x : Volume} {m : Pending}

/-- R80: with a slot to take, a preservation takes it and requests the preserve read; here no RESERVE_LOW is armed. -/
theorem startPreservation_takes {slot : Nat} {frees : List Nat} (hv : d.volume? v = some x) (hm : d.entry? v g = some m)
    (hp : m.phase = .reading) (hf : d.pres.free = slot :: frees) (hlt : x.slotsHeld < x.reserve)
    (ha : x.reserveArmed = false) (hl : d.pool.link = .up) : perform (.startPreservation v g) d =
      (((({ d with pres.free := frees } : Device).setVolume v { x with slotsHeld := x.slotsHeld + 1 }).withEntry v g
        { m with phase := .preserving (x.w g) x.epoch slot }).joinPool
          { requester := .preserve v g, op := .read (x.base + 8 * g) 8 }, []) := by
  let y : Volume := { x with slotsHeld := x.slotsHeld + 1 }
  let e : Device := ({ d with pres.free := frees } : Device).setVolume v y
  have hlow : ¬ y.Low := fun h => by
    rw [Volume.Low, show y.reserveArmed = x.reserveArmed from rfl, ha] at h
    exact absurd h.1 (by decide)
  have htake : d.takeSlot v = some (e, slot) := by
    rw [takeSlot_eq hv hf hlt, lowNoted_eq, if_neg hlow, Volume.slotTaken, Volume.lowChecked, if_neg hlow]
  have hread := startPreserveRead_up (d := e) (x := y) (volume_setVolume _ v y) (g := g) (m := m) hm hl (x.w g) x.epoch slot
  show startPreservation v g d = _
  simp only [startPreservation, hv, hm, hp, if_true, htake, hread]
  rfl

/-- R80, R87: with none to take the entry joins the slot-wait queue, and a retirement is asked for. -/
theorem startPreservation_waits (hv : d.volume? v = some x) (hm : d.entry? v g = some m) (hp : m.phase = .reading)
    (hnone : d.pres.free = [] ∨ x.reserve ≤ x.slotsHeld) : perform (.startPreservation v g) d =
      ((d.withEntry v g { m with phase := .slotWait (x.w g) x.epoch }).setVolume v
        { x with slotWait := x.slotWait ++ [g] }, [.askRetirement v]) := by
  have hv' : (d.withEntry v g { m with phase := .slotWait (x.w g) x.epoch }).volume? v = some x := hv
  show startPreservation v g d = _
  simp only [startPreservation, hv, hm, hp, if_true, takeSlot_none hv hnone, onEntry_eq hm, onVolume_eq hv']

end

/-! #### Admission of a WRITE whose one touched grain needs preservation -/

/-- R66, R79: the record of an admitted WRITE that charges nothing and waits on the entry of its grain. -/
def waitingRecord (h : Header) (payload : List Byte) (epoch : Nat) : Txn :=
  { kind := .write, owed := true, command := none
    job := { h.job payload .admitting with charge := some 0, epoch := some epoch, waits := [h.first / 8] } }

/-- R79: the part with a WRITE of a volume of this epoch waiting on the new entry of its grain, the entry in this phase
and the volume's record z. -/
def Device.entryMade (d : Device) (p : PortId) (h : Header) (payload : List Byte) (epoch : Nat) (z : Volume)
    (phase : PendPhase) : Device := { d with
  volumes := d.volumes.insert h.volume z
  pres.table := d.pres.table.insert (pendKey h.volume (h.first / 8))
    { volume := h.volume, grain := h.first / 8, phase := phase, readers := 0, waiters := [.server p h.tag] }
  txns := d.txns.insert (txnKey p h.tag) (waitingRecord h payload epoch) }

section
variable (d : Device) (p : PortId) (h : Header) (payload : List Byte) (epoch : Nat) (z : Volume) (phase : PendPhase)

@[simp] theorem volume_entryMade : (d.entryMade p h payload epoch z phase).volume? h.volume = some z :=
  Table.find_insert_same _ _ _

@[simp] theorem entry_entryMade : (d.entryMade p h payload epoch z phase).entry? h.volume (h.first / 8) = some
    { volume := h.volume, grain := h.first / 8, phase := phase, readers := 0, waiters := [.server p h.tag] } :=
  Table.find_insert_same _ _ _

theorem entryMade_setVolume (y : Volume) :
    (d.entryMade p h payload epoch z phase).setVolume h.volume y = d.entryMade p h payload epoch y phase := by
  simp only [Device.entryMade, Device.setVolume, Table.insert_insert]

theorem entryMade_withEntry (phase' : PendPhase) : (d.entryMade p h payload epoch z phase).withEntry h.volume (h.first / 8)
    { volume := h.volume, grain := h.first / 8, phase := phase', readers := 0, waiters := [.server p h.tag] }
      = d.entryMade p h payload epoch z phase' := by
  simp only [Device.entryMade, Device.withEntry, Table.insert_insert]

end

/-- R6, R84: a WRITE that ends within its event, its entry removed again, leaves its completion and the volume's record. -/
theorem entryMade_ended {d : Device} {p : PortId} {h : Header} (ht : d.txn? p h.tag = none)
    (he : d.entry? h.volume (h.first / 8) = none) (hu : (d.port p).link = .up) (payload : List Byte) (epoch : Nat)
    (z y : Volume) (phase : PendPhase) (st : Status) :
    Device.ended { d.entryMade p h payload epoch z phase with
        volumes := (d.entryMade p h payload epoch z phase).volumes.insert h.volume y
        pres.table := (d.entryMade p h payload epoch z phase).pres.table.erase (pendKey h.volume (h.first / 8)) }
      p h.tag (waitingRecord h payload epoch) st 0 [] = { d with
        volumes := d.volumes.insert h.volume y
        out := d.out ++ [.completion p { kind := 2, tag := h.tag, status := st, count := 0, data := [] }] } := by
  simp only [Device.entryMade, Device.ended, Table.insert_insert, Table.erase_insert]
  rw [Table.erase_of_find_none d.txns (txnKey p h.tag) ht,
    Table.erase_of_find_none d.pres.table (pendKey h.volume (h.first / 8)) he, if_pos ⟨rfl, hu⟩]
  rfl

/-- R23: a frame within one grain touches that grain alone. -/
theorem touched_one {h : Header} (hb : h.first % 8 + h.blocks ≤ 8) (payload : List Byte) (st : Stage) :
    (h.job payload st).touched = [h.first / 8] := by
  have hcount : touchedCount h.first h.blocks = 1 := by
    unfold touchedCount
    omega
  show (List.range (touchedCount h.first h.blocks)).map _ = _
  rw [hcount]
  rfl

section
variable {d e : Device} {p : PortId} {h : Header} {payload : List Byte} {x : Volume} {b : Nat}

/-- R66, R78, R79: an admitted WRITE that charges nothing makes the entry of its one grain, which needs preservation; what
follows is the preservation's start. -/
theorem runs_admission_entry (hd : h.declared = 0) (hb : h.first % 8 + h.blocks ≤ 8) (hv : d.volume? h.volume = some x)
    (hn : x.needs (h.first / 8) = true) (he : d.entry? h.volume (h.first / 8) = none) (ht : d.pres.table.length < 256)
    (hr : Runs b [.startPreservation h.volume (h.first / 8), .walk (.server p h.tag) []]
      (d.entryMade p h payload x.epoch { x with inFlight := x.inFlight + 1 } .reading) e) :
    Runs (b + 1 + 1) [.admission (.server p h.tag)] (d.setTxn p h.tag (writeRecord h payload)) e := by
  let j : Job := h.job payload .admitting
  let w : WriteId := .server p h.tag
  let up : Volume := { x with inFlight := x.inFlight + 1 }
  let stamped : Device := (d.setTxn p h.tag (admittedRecord h payload .admitting 0 x.epoch)).setVolume h.volume up
  have htouched : j.touched = [h.first / 8] := touched_one hb payload .admitting
  have hcharge : j.chargeOf = 0 := by
    rw [Job.chargeOf, show j.declared = 0 from hd, Nat.zero_min]
  have hadmit : perform (.admission w) (d.setTxn p h.tag (writeRecord h payload)) = (stamped, [.walk w [h.first / 8]]) := by
    have hjob : (d.setTxn p h.tag (writeRecord h payload)).job? w = some j := job_server (txn_setTxn d p h.tag _) rfl
    have hroom : ¬ (stamped.newEntries j).length + stamped.pres.table.length > Config.pendingPlaces := by
      have hle : (stamped.newEntries j).length ≤ 1 := by
        rw [Device.newEntries, htouched]
        exact List.length_filter_le _ _
      have : stamped.pres.table.length < 256 := ht
      show ¬ _ > 256
      omega
    have hstamp : (d.setTxn p h.tag (writeRecord h payload)).stampWrite w j 0 = stamped := stampWrite_server hv j rfl
    show admitWrite w _ = _
    simp only [admitWrite, hjob, hcharge, admission_free, hstamp, htouched]
    exact if_neg hroom
  have hstamped : stamped.txn? p h.tag = some (admittedRecord h payload .admitting 0 x.epoch) := txn_setTxn d p h.tag _
  have hwalk : perform (.walk w [h.first / 8]) stamped =
      (d.entryMade p h payload x.epoch up .reading, [.startPreservation h.volume (h.first / 8), .walk w []]) := by
    have hneeds : stamped.needs h.volume (h.first / 8) = true := by
      have hvs : stamped.volume? h.volume = some up := volume_setVolume _ _ up
      rw [Device.needs, hvs]
      exact hn
    have hes : stamped.entry? h.volume (h.first / 8) = none := he
    have hmake : stamped.createEntry w h.volume (h.first / 8) = d.entryMade p h payload x.epoch up .reading := by
      let m : Pending := { volume := h.volume, grain := h.first / 8, phase := .reading, readers := 0, waiters := [w] }
      refine (onJob_server (d := stamped.setEntry m) hstamped fun j => { j with waits := j.waits ++ [h.first / 8] }).trans ?_
      simp only [stamped, Device.setTxn, Device.setVolume, Device.setEntry, Table.insert_insert]
      rfl
    have hvol : (admittedRecord h payload .admitting 0 x.epoch).job.volume = h.volume := rfl
    have hch : (admittedRecord h payload .admitting 0 x.epoch).job.charge ≠ none := Option.some_ne_none 0
    show walkGrains w [h.first / 8] stamped = _
    simp only [walkGrains, w, job_server hstamped rfl, hvol, if_neg hch, hes, hneeds, if_true]
    exact congrArg (·, _) hmake
  exact Runs.task hadmit (Runs.task hwalk hr)

end

end Sys2Proof.Machine
end

section
/-! ### A preservation from its write to the map or back (O59) -/

namespace Sys2Proof

/-! #### Tables -/

/-- A key that is listed leaves a shorter table. -/
theorem Table.length_erase_lt {α : Type} {t : Table α} {k : Nat} {v : α} (h : t.find k = some v) :
    (t.erase k).length < t.length :=
  List.length_filter_lt_length_iff_exists.2 ⟨(k, v), Table.mem_of_find t h, by simp⟩

/-- A key set before another one and then erased leaves no trace. -/
theorem Table.erase_insert_insert {α : Type} (t : Table α) {k k' : Nat} (v v' : α) (h : k ≠ k') :
    ((t.insert k v).insert k' v').erase k = (t.insert k' v').erase k := by
  have skip (w : α) (u : Table α) : Table.erase ((k, w) :: u) k = u.erase k := by simp [Table.erase]
  have keep {a : Nat} (ha : a ≠ k) (w : α) (u : Table α) : Table.erase ((a, w) :: u) k = (a, w) :: u.erase k := by
    simp [Table.erase, ha]
  induction t with
  | nil =>
    by_cases hlt : k' < k
    · simp [Table.insert, hlt, keep h.symm, skip]
    · simp [Table.insert, hlt, h, skip]
  | cons e t ih =>
    obtain ⟨a, w⟩ := e
    rcases Nat.lt_trichotomy k a with hka | rfl | hka
    · rw [Table.insert, if_pos hka]
      rcases Nat.lt_or_gt_of_ne h with hkk | hkk
      · rw [Table.insert, if_neg (by omega), if_neg h, skip]
      · rw [Table.insert, if_pos hkk, keep h.symm, skip, Table.insert, if_pos (by omega), keep h.symm]
    · rw [Table.insert, if_neg (lt_irrefl _), if_pos rfl]
      rcases Nat.lt_or_gt_of_ne h with hkk | hkk
      · simp only [Table.insert, if_neg (Nat.not_lt.2 hkk.le), if_neg h, skip]
      · simp only [Table.insert, if_pos hkk, keep h.symm, skip]
    · rw [Table.insert, if_neg (by omega), if_neg (by omega)]
      rcases Nat.lt_trichotomy k' a with hk | rfl | hk
      · simp only [Table.insert, if_pos hk, keep h.symm, keep (Nat.ne_of_lt hka), Table.erase_insert]
      · simp only [Table.insert, lt_irrefl, if_false, if_true, keep h.symm, Table.erase_insert]
      · simp only [Table.insert, if_neg (Nat.not_lt.2 hk.le), if_neg (Nat.ne_of_lt hk), keep (Nat.ne_of_lt hka), ih]

end Sys2Proof

namespace Sys2Proof.Machine

theorem insertBefore_append {α : Type} {f : α → α → Bool} {x : α} {before after : List α}
    (hb : ∀ y ∈ before, f x y = false) (ha : ∀ y ∈ after, f x y = true) :
    insertBefore f x (before ++ after) = before ++ x :: after := by
  induction before with
  | nil =>
    cases after with
    | nil => rfl
    | cons y after => exact if_pos (ha y List.mem_cons_self)
  | cons y before ih =>
    have hy : ¬ f x y = true := by simp [hb y List.mem_cons_self]
    show (if f x y = true then _ else _) = _
    rw [if_neg hy]
    exact congrArg (y :: ·) (ih fun z hz => hb z (List.mem_cons_of_mem _ hz))

/-! #### The arbiter and the preservation unit -/

theorem issue_setPres (d : Device) (q : Preservation) (k : PoolTagId) (r : PoolRequest) :
    ({ d with pres := q } : Device).issue k r = { d.issue k r with pres := q } := by
  obtain ⟨a, op⟩ := r
  cases a with
  | preserve v g => rfl
  | server p tag =>
    have h1 (y : PoolTag) : (({ d with pres := q } : Device).setTag k y).txn? p tag = d.txn? p tag := rfl
    have h2 (y : PoolTag) : (d.setTag k y).txn? p tag = d.txn? p tag := rfl
    simp only [Device.issue, Device.onTxn, h1, h2]
    cases d.txn? p tag <;> rfl
  | slot j =>
    have h1 (y : PoolTag) : (({ d with pres := q } : Device).setTag k y).slot? j = d.slot? j := rfl
    have h2 (y : PoolTag) : (d.setTag k y).slot? j = d.slot? j := rfl
    simp only [Device.issue, Device.onJob, h1, h2]
    cases d.slot? j with
    | none => rfl
    | some z => cases hp : z.phase <;> simp only [hp] <;> rfl

theorem grantOne_setPres (d : Device) (q : Preservation) :
    ({ d with pres := q } : Device).grantOne = d.grantOne.map fun e => { e with pres := q } := by
  have key (u : Pool) (k : PoolTagId) (r : PoolRequest) :
      some (({ { d with pres := q } with pool := u } : Device).issue k r)
        = (some (({ d with pool := u } : Device).issue k r)).map fun e => { e with pres := q } :=
    congrArg some (issue_setPres { d with pool := u } q k r)
  unfold Device.grantOne
  dsimp only
  split
  · split
    · exact key _ _ _
    · rfl
  · split
    · rfl
    · split
      · exact key _ _ _
      · split <;> exact key _ _ _
      · exact key _ _ _
      · rfl

/-- The preservation unit takes no part in the arbiter's grants. -/
theorem joinPool_setPres (d : Device) (q : Preservation) (r : PoolRequest) :
    ({ d with pres := q } : Device).joinPool r = { d.joinPool r with pres := q } := by
  have hloop (n : Nat) : ∀ d : Device, grantLoop n { d with pres := q } = { grantLoop n d with pres := q } := by
    induction n with
    | zero => exact fun _ => rfl
    | succ n ih =>
      intro d
      simp only [grantLoop, grantOne_setPres]
      cases d.grantOne with
      | none => rfl
      | some e => exact ih e
  unfold Device.joinPool Device.grantPool
  cases r.requester with
  | server p tag => exact hloop _ { d with pool.pathQ := d.pool.pathQ ++ [r] }
  | preserve v g => exact hloop _ { d with pool.preserveQ := d.pool.preserveQ ++ [r] }
  | slot j => exact hloop _ { d with pool.copyQ := d.pool.copyQ ++ [r] }

/-! #### POOL DONE with no request waiting -/

/-- R9: any other end than OK counts as MEDIA_ERROR. -/
theorem doneStatus_failed {st : PoolStatus} (h : st ≠ .ok) : doneStatus st = .mediaError := by
  cases st with
  | ok => exact absurd rfl h
  | mediaError => rfl
  | refused => rfl

/-- R13: with no request waiting a POOL DONE makes no grant; what is left is its outcome. -/
theorem exec_poolDone {s : State} {k : PoolTagId} {r : Requester} {m b : Nat} {st : PoolStatus} {data : List Byte}
    {d : Device} (hl : s.dev.resetLow = false) (hk : s.dev.pool.tags[k] = .busy r m) (h1 : s.dev.pool.preserveQ = [])
    (h2 : s.dev.pool.pathQ = []) (h3 : s.dev.pool.copyQ = [])
    (hr : Runs b [.poolEnd r (doneStatus st) data] (s.dev.setTag k .free) d) (hb : b ≤ 100) :
    exec (.poolDone k st data) s = .next { s with dev := d } := by
  simp only [exec, execPoolDone, event_high _ hl]
  rw [donePool_busy hk (grantOne_idle _ h1 h2 h3), hr.settle (by omega)]

/-! #### The ends of the preserve read and of the preserve store (R81, R82) -/

section
variable {d : Device} {v g base p slot : Nat} {e : Pending} {x : Volume}

/-- R81: the end of the preserve read leads to the preserve store. -/
theorem poolEnd_preserving {a : Area} (he : d.entry? v g = some e) (hp : e.phase = .preserving base p slot)
    (ha : d.area = some a) (hl : d.pool.link = .up) (data : List Byte) :
    perform (.poolEnd (.preserve v g) .ok data) d =
      ((d.withEntry v g { e with phase := .storing base p slot data }).joinPool
        { requester := .preserve v g, op := .write (a.base + 8 * slot) 8 data }, []) := by
  let f : Device := d.withEntry v g { e with phase := .storing base p slot data }
  have hup : ¬ f.pool.link = .down := by rw [show f.pool.link = .up from hl]; decide
  have haddr : f.slotAddr slot = a.base + 8 * slot := by simp only [Device.slotAddr, show f.area = some a from ha]
  show poolOutcome (.preserve v g) .ok data d = _
  simp only [poolOutcome, he, hp, if_true, onEntry_eq he]
  rw [if_neg hup, haddr]

theorem poolEnd_storing {buffer : List Byte} (he : d.entry? v g = some e) (hp : e.phase = .storing base p slot buffer)
    (data : List Byte) : perform (.poolEnd (.preserve v g) .ok data) d = (d, [.storeDone v g]) := by
  show poolOutcome (.preserve v g) .ok data d = _
  simp only [poolOutcome, he, hp, if_true]

/-- R82: the part with the preserve store of grain g of volume v ended: the preserve map, the free queue and the volume's
record as they then are, the entry in READING. -/
def Device.preserved (d : Device) (v g : Nat) (e : Pending) (map : List PreserveEntry) (frees : List Nat) (y : Volume) :
    Device := { d with
  pres.table := d.pres.table.insert (pendKey v g) { e with phase := .reading }
  pres.map := map
  pres.free := frees
  volumes := d.volumes.insert v y }

@[simp] theorem volume_preserved (map : List PreserveEntry) (frees : List Nat) (y : Volume) :
    (d.preserved v g e map frees y).volume? v = some y := Table.find_insert_same _ _ _

@[simp] theorem entry_preserved (map : List PreserveEntry) (frees : List Nat) (y : Volume) :
    (d.preserved v g e map frees y).entry? v g = some { e with phase := .reading } := Table.find_insert_same _ _ _

/-- The volume with its grain's epoch raised to p (R82). -/
theorem onVolume_raise {f : Device} (hv : f.volume? v = some x) (hw : x.w g < p) :
    f.onVolume v (fun x => if x.w g < p then x.setW g p else x) = f.setVolume v (x.setW g p) := by
  rw [onVolume_eq hv, if_pos hw]

/-- R82, R83: while an ACTIVE snapshot lies in its range the older image joins the map. -/
theorem storeDone_keeps {buffer : List Byte} (hv : d.volume? v = some x) (he : d.entry? v g = some e)
    (hp : e.phase = .storing base p slot buffer) (hw : x.w g < p) (ha : x.activeIn base (p - 1) = true) :
    perform (.storeDone v g) d = (d.preserved v g e
      (insertBefore PreserveEntry.before { volume := v, grain := g, first := base, last := p - 1, slot := slot } d.pres.map)
      d.pres.free (x.setW g p), [.dropEntry v g]) := by
  let f : Device := d.addPreserve { volume := v, grain := g, first := base, last := p - 1, slot := slot }
  have hfv : f.volume? v = some x := hv
  have hfe : (f.setVolume v (x.setW g p)).entry? v g = some e := he
  show storeDone v g d = _
  simp only [storeDone, hv, he, hp, ha, if_true]
  show ((f.onVolume v _).onEntry v g _, _) = _
  rw [onVolume_raise hfv hw, onEntry_eq hfe]
  rfl

/-- R82, R87: with none left the slot goes back to the free queue's tail, and the slot-wait queue is served. -/
theorem storeDone_returns {buffer : List Byte} (hv : d.volume? v = some x) (he : d.entry? v g = some e)
    (hp : e.phase = .storing base p slot buffer) (hw : x.w g < p) (ha : x.activeIn base (p - 1) = false) :
    perform (.storeDone v g) d = (d.preserved v g e d.pres.map (d.pres.free ++ [slot]) (x.slotBack.setW g p),
      [.serveSlots v, .dropEntry v g]) := by
  let f : Device := d.returnSlot v slot
  have hf : f = { d with pres.free := d.pres.free ++ [slot], volumes := d.volumes.insert v x.slotBack } :=
    returnSlot_eq hv slot
  have hfv : f.volume? v = some x.slotBack := by rw [hf]; exact Table.find_insert_same _ _ _
  have hfe : (f.setVolume v (x.slotBack.setW g p)).entry? v g = some e := by rw [hf]; exact he
  show storeDone v g d = _
  simp only [storeDone, hv, he, hp, ha, Bool.false_eq_true, if_false]
  show ((f.onVolume v _).onEntry v g _, _) = _
  rw [onVolume_raise hfv hw, onEntry_eq hfe, hf]
  simp only [Device.setVolume, Table.insert_insert]
  rfl

theorem PreserveEntry.before_iff (a b : PreserveEntry) : a.before b = true ↔ a.volume < b.volume
    ∨ (a.volume = b.volume ∧ (a.grain < b.grain ∨ (a.grain = b.grain ∧ a.first < b.first))) := by
  simp [PreserveEntry.before]

/-- R83: an entry joins the map after those that stand before it in the map's order and before the rest. -/
theorem insertBefore_preserve {e : PreserveEntry} {map before after : List PreserveEntry} (hm : map = before ++ after)
    (hb : ∀ f ∈ before, f.volume < e.volume
      ∨ f.volume = e.volume ∧ (f.grain < e.grain ∨ f.grain = e.grain ∧ f.first ≤ e.first))
    (ha : ∀ f ∈ after, e.volume < f.volume
      ∨ f.volume = e.volume ∧ (e.grain < f.grain ∨ f.grain = e.grain ∧ e.first < f.first)) :
    insertBefore PreserveEntry.before e map = before ++ e :: after := by
  rw [hm]
  refine insertBefore_append (fun f hf => Bool.eq_false_iff.2 fun h => ?_) fun f hf => (e.before_iff f).2 ?_
  · have := hb f hf
    rw [PreserveEntry.before_iff] at h
    omega
  · have := ha f hf
    omega

/-- The service of another grain's slot wait is the same whatever entry the grain g had, once that entry is removed. -/
theorem slotServed_removeEntry {g' b q n : Nat} {m : Pending} {waits frees : List Nat} (hne : g' ≠ g) :
    ((d.withEntry v g e).slotServed v g' x m b q n waits frees).removeEntry v g
      = (d.slotServed v g' x m b q n waits frees).removeEntry v g := by
  have hkey : pendKey v g ≠ pendKey v g' := fun h => hne (Nat.add_left_cancel h).symm
  let f : Device := ((({ d with pres.free := frees } : Device).lowNoted v { x with slotsHeld := x.slotsHeld + 1 }).setVolume v
    { x.slotTaken with slotWait := waits }).withEntry v g' { m with phase := .preserving b q n }
  let r : PoolRequest := { requester := .preserve v g', op := .read (x.base + 8 * g') 8 }
  let table : Table Pending :=
    (d.pres.table.insert (pendKey v g) e).insert (pendKey v g') { m with phase := .preserving b q n }
  have hd : d.slotServed v g' x m b q n waits frees = f.joinPool r := slotServed_eq d v g' x m b q n waits frees
  have he : (d.withEntry v g e).slotServed v g' x m b q n waits frees =
      { f.joinPool r with pres := { f.pres with table := table } } :=
    (slotServed_eq (d.withEntry v g e) v g' x m b q n waits frees).trans
      (joinPool_setPres f { f.pres with table := table } r)
  have htable : table.erase (pendKey v g) = f.pres.table.erase (pendKey v g) := Table.erase_insert_insert _ _ _ hkey
  rw [hd, he]
  unfold Device.removeEntry
  rw [joinPool_pres]
  exact congrArg (fun t => { f.joinPool r with pres := { f.pres with table := t } }) htable

/-- R87, R84: the slot given back goes to the head of the slot-wait queue, and then the entry of grain g, which nothing
waits for, is removed. -/
theorem runs_served_dropEntry {g' b q n : Nat} {m : Pending} {map : List PreserveEntry} {waits frees back : List Nat}
    (hne : g' ≠ g) (hr : e.readers = 0) (hw : e.waiters = []) (hrw : d.pres.readerWait = []) (hs : x.state ≠ .removing)
    (hsw : x.slotWait = g' :: waits) (hg : g' ∉ waits) (hm : d.entry? v g' = some m) (hp : m.phase = .slotWait b q)
    (hf : back = n :: frees) (hlt : x.slotsHeld < x.reserve) (hone : x.reserve = x.slotsHeld + 1 ∨ waits = [] ∨ frees = [])
    (hl : d.pool.link = .up) :
    Runs 6 [.serveSlots v, .dropEntry v g] (d.preserved v g e map back x)
      ((Device.slotServed { d with pres.map := map, pres.free := back, volumes := d.volumes.insert v x }
        v g' x m b q n waits frees).removeEntry v g) := by
  let f : Device := d.preserved v g e map back x
  let after : Device := f.slotServed v g' x m b q n waits frees
  have hkey : pendKey v g' ≠ pendKey v g := fun h => hne (Nat.add_left_cancel h)
  have hserved := serveSlots_head (d := f) (volume_preserved map back x) hsw hg
    ((Table.find_insert_other _ _ hkey).trans hm) hp hf hlt hl
  have hpres : after.pres.table = f.pres.table.insert (pendKey v g') { m with phase := .preserving b q n }
      ∧ after.pres.readerWait = d.pres.readerWait := by
    rw [show after = _ from slotServed_eq f v g' x m b q n waits frees, joinPool_pres]
    exact ⟨rfl, rfl⟩
  have hentry : after.entry? v g = some { e with phase := .reading } := by
    rw [Device.entry?, hpres.1, Table.find_insert_other _ _ hkey.symm]
    exact Table.find_insert_same _ _ _
  have hvol : after.volume? v = some { x.slotTaken with slotWait := waits } := by
    rw [show after = _ from slotServed_eq f v g' x m b q n waits frees, volume_joinPool]
    exact Table.find_insert_same _ _ _
  have hdrop := dropEntry_runs hentry rfl hr hw (hpres.2.trans hrw) hvol hs
  have hgone : after.removeEntry v g = _ := slotServed_removeEntry
    (d := { d with pres.map := map, pres.free := back, volumes := d.volumes.insert v x }) hne
  rw [hgone] at hdrop
  exact (Runs.task hserved (Runs.one (serveSlots_served (x := x) hone))).cons hdrop

/-- A consequence that does what another does leads where that one leads. -/
theorem Runs.of_perform_eq {b : Nat} {t u : Task} {d' : Device} (h : perform t d = perform u d) (hr : Runs b [u] d d') :
    Runs b [t] d d' := by
  have hstep (n : Nat) (rest : List Task) : carryOut n (t :: rest) d = carryOut n (u :: rest) d := by
    cases n with
    | zero => rfl
    | succ n => rw [carryOut_cons, carryOut_cons, h]
  obtain ⟨k, hk, hr⟩ := hr
  exact ⟨k, hk, fun n rest => (hstep _ _).trans (hr n rest)⟩

/-- R86: whatever it is that a preserve step fails with, its preservation fails. -/
theorem poolEnd_preserve_fails {st : Status} (hst : st ≠ .ok) (data : List Byte) :
    perform (.poolEnd (.preserve v g) st data) d = perform (.poolEnd (.preserve v g) .poolDown []) d := by
  show poolOutcome (.preserve v g) st data d = poolOutcome (.preserve v g) .poolDown [] d
  simp only [poolOutcome, if_neg hst, reduceCtorEq, if_false]

end

/-! #### A copy read that takes the place of a removed entry (R91 to R93) -/

section
variable {d : Device} {v g : Nat}

/-- R91: a grain not written since the snapshot is read live. -/
theorem resolve_live {k : Nat} {x : Volume} (hv : d.volume? v = some x) (h0 : 0 < x.w g) (hk : x.w g ≤ k) :
    d.resolve v k g = .live (x.w g) := by
  simp only [Device.resolve, hv, if_neg (Nat.ne_of_gt h0), if_pos hk]

/-- R93: the copy read at the head of the reader wait list, of a live grain with no entry, takes a place that is free. -/
theorem runs_serveReaders_one {j : SlotId} {z : CopySlot} {u : Volume} (hrw : d.pres.readerWait = [j])
    (hz : d.slot? j = some z) (hu : d.volume? z.volume = some u) (h0 : 0 < u.w z.grain) (hk : u.w z.grain ≤ z.snapshot)
    (hn : d.entry? z.volume z.grain = none) (ht : d.pres.table.length < 256) (hl : d.pool.link = .up) :
    Runs 3 [.serveReaders] d (Device.joinPool { d with
        pres.table := d.pres.table.insert (pendKey z.volume z.grain)
          { volume := z.volume, grain := z.grain, phase := .reading, readers := 1, waiters := [] }
        pres.readerWait := []
        copy.slots := d.copy.slots.set j.val (some { z with image := .live (u.w z.grain) }) j.isLt }
      { requester := .slot j, op := .read (u.base + 8 * z.grain) 8 }) := by
  have hplace (e : Device) (he : e.pres.table = d.pres.table) : e.hasPlace = true := by
    rw [Device.hasPlace, he]
    exact decide_eq_true ht
  let e : Device := { d with pres.readerWait := [] }
  let f : Device := e.setSlot j (some { z with image := .live (u.w z.grain) })
  have hserve : perform .serveReaders d = (e, [.startRead j, .serveReaders]) := by
    have hcan : d.canRead z = true := by
      simp only [Device.canRead, resolve_live hu h0 hk, hn, hplace d rfl, Bool.or_true]
    show serveReaders d = _
    simp only [serveReaders, hrw, hz, hcan, if_true]
    rfl
  have hstart : perform (.startRead j) e = (Device.joinPool (f.setEntry
      { volume := z.volume, grain := z.grain, phase := .reading, readers := 1, waiters := [] })
      { requester := .slot j, op := .read (u.base + 8 * z.grain) 8 }, []) := by
    have hez : e.slot? j = some z := hz
    have heu : e.volume? z.volume = some u := hu
    have hfn : f.entry? z.volume z.grain = none := hn
    have haddr : f.grainAddr z.volume z.grain = u.base + 8 * z.grain := grainAddr_eq (d := f) hu z.grain
    show startRead j e = _
    simp only [startRead, hez, resolve_live heu h0 hk]
    simp only [f] at hfn haddr
    simp only [hfn, hplace (e.setSlot j _) rfl, if_true, haddr, Device.requestRead]
    exact if_neg (by rw [show (f.setEntry _).pool.link = .up from hl]; decide)
  refine Runs.task hserve ((Runs.one hstart).cons (Runs.one (serveReaders_quiet ?_)))
  rw [joinPool_pres]
  rfl

/-- R84, R93: a removed entry that nothing else waits on leaves its place to the copy read at the head of the list. -/
theorem runs_dropEntry_reader {e : Pending} {x : Volume} {j : SlotId} {z : CopySlot} {u : Volume}
    (hv : d.volume? v = some x) (hs : x.state ≠ .removing) (he : d.entry? v g = some e) (hp : e.phase = .reading)
    (hr : e.readers = 0) (hw : e.waiters = []) (hrw : d.pres.readerWait = [j]) (hz : d.slot? j = some z)
    (hu : d.volume? z.volume = some u) (h0 : 0 < u.w z.grain) (hk : u.w z.grain ≤ z.snapshot)
    (hn : (d.removeEntry v g).entry? z.volume z.grain = none) (ht : (d.removeEntry v g).pres.table.length < 256)
    (hl : d.pool.link = .up) : Runs 6 [.dropEntry v g] d (Device.joinPool { d with
        pres.table := (d.pres.table.erase (pendKey v g)).insert (pendKey z.volume z.grain)
          { volume := z.volume, grain := z.grain, phase := .reading, readers := 1, waiters := [] }
        pres.readerWait := []
        copy.slots := d.copy.slots.set j.val (some { z with image := .live (u.w z.grain) }) j.isLt }
      { requester := .slot j, op := .read (u.base + 8 * z.grain) 8 }) := by
  have hdrop := dropEntry_perform he hp hr
  rw [hw] at hdrop
  have hstart : perform (.startPreservation v g) (d.removeEntry v g) = (d.removeEntry v g, []) :=
    startPreservation_quiet (Table.find_erase_same _ _)
  have hserve := runs_serveReaders_one (d := d.removeEntry v g) hrw hz hu h0 hk hn ht hl
  refine Runs.task hdrop ((Runs.one hstart).cons (hserve.cons (Runs.one (removalCheck_quiet (x := x) ?_ hs))))
  rw [volume_joinPool]
  exact hv

/-- R82, R93: the copy read at the head of the list takes the place of a stored entry that nothing else waits on. -/
theorem runs_preserved_reader {e : Pending} {y : Volume} {j : SlotId} {z : CopySlot} {u : Volume}
    {map : List PreserveEntry} {frees : List Nat} (he : d.entry? v g = some e) (hs : y.state ≠ .removing)
    (hr : e.readers = 0) (hw : e.waiters = []) (hrw : d.pres.readerWait = [j]) (hz : d.slot? j = some z)
    (hzv : z.volume ≠ v) (hu : d.volume? z.volume = some u) (h0 : 0 < u.w z.grain) (hk : u.w z.grain ≤ z.snapshot)
    (hn : d.entry? z.volume z.grain = none) (ht : d.pres.table.length ≤ 256) (hl : d.pool.link = .up) :
    Runs 6 [.dropEntry v g] (d.preserved v g e map frees y) (Device.joinPool { d with
        pres.table := (d.pres.table.erase (pendKey v g)).insert (pendKey z.volume z.grain)
          { volume := z.volume, grain := z.grain, phase := .reading, readers := 1, waiters := [] }
        pres.map := map
        pres.free := frees
        pres.readerWait := []
        volumes := d.volumes.insert v y
        copy.slots := d.copy.slots.set j.val (some { z with image := .live (u.w z.grain) }) j.isLt }
      { requester := .slot j, op := .read (u.base + 8 * z.grain) 8 }) := by
  let f : Device := d.preserved v g e map frees y
  have hgone : (f.removeEntry v g).pres.table = d.pres.table.erase (pendKey v g) := Table.erase_insert _ _ _
  have hfn : (f.removeEntry v g).entry? z.volume z.grain = none := by
    rw [Device.entry?, hgone, Table.find_erase]
    split
    · rfl
    · exact hn
  have hft : (f.removeEntry v g).pres.table.length < 256 := by
    rw [hgone]
    exact (Table.length_erase_lt he).trans_le ht
  have hfu : f.volume? z.volume = some u := (Table.find_insert_other _ _ hzv).trans hu
  have hdrop := runs_dropEntry_reader (d := f) (volume_preserved map frees y) hs (entry_preserved map frees y) rfl hr hw
    hrw hz hfu h0 hk hfn hft hl
  simp only [f, Device.preserved, Table.erase_insert] at hdrop
  exact hdrop

end

/-! #### The writes that make an entry -/

section
variable {s : State} {p : PortId} {h : Header} {payload : List Byte} {x : Volume} {b : Nat} {d : Device}

/-- R79: what the preservation that an accepted WRITE starts comes to is what the WRITE comes to; here it charges nothing
and touches one grain, which needs preservation and has no entry. -/
theorem exec_write_entry (hl : s.dev.resetLow = false) (hu : (s.dev.port p).link = .up) (hb : h.badWrite payload = false)
    (ht : s.dev.txn? p h.tag = none) (hf : (s.dev.port p).fence = none) (hpool : s.dev.pool.link = .up)
    (hv : s.dev.volume? h.volume = some x) (hs : x.state = .ready) (hr : h.first + h.blocks ≤ 8 * x.capacity)
    (hc : x.cut = none) (hd : h.declared = 0) (hone : h.first % 8 + h.blocks ≤ 8)
    (hn : x.needs (h.first / 8) = true) (he : s.dev.entry? h.volume (h.first / 8) = none)
    (hlen : s.dev.pres.table.length < 256)
    (hrun : Runs b [.startPreservation h.volume (h.first / 8), .walk (.server p h.tag) []]
      (s.dev.entryMade p h payload x.epoch { x with inFlight := x.inFlight + 1 } .reading) d) (hle : b ≤ 90) :
    exec (.write p h payload) s = .next { s with dev := d } := by
  rw [exec_write_accepted hl hu (dataRefusal_none_of hb ht hf hpool hv hs hr), acceptWrite_admission hv hc,
    (runs_admission_entry hd hone hv hn he hlen hrun).settle (by omega)]

end

/-- Settles O59: a WRITE by the start of the preservation it leads to (`exec_write_entry`), the preserve read by its
store, the store by what it does to the map or the free queue and then by who waits for the entry. -/
theorem preservationRuns : Obligations.PreservationRuns := by
  refine ⟨fun s p h payload x slot rest hl hu hb ht hf hpool hv hs hr hc hd hone => ?takes,
    fun s p h payload x hl hu hb ht hf hpool hv hs hr hc hd hone => ?waits,
    fun s k v g m e x a hl hk he hv ha hpool h1 h2 h3 hc hs => ?ends⟩
  case takes =>
    intro g hn hent hlen hfree hlt harm
    let up : Volume := { x with inFlight := x.inFlight + 1 }
    have hstart := startPreservation_takes (volume_entryMade s.dev p h payload x.epoch up .reading)
      (entry_entryMade s.dev p h payload x.epoch up .reading) rfl hfree hlt harm hpool
    simp only [Device.withEntry, Device.setVolume, Device.entryMade, Table.insert_insert] at hstart
    refine exec_write_entry hl hu hb ht hf hpool hv hs hr hc hd hone hn hent hlen
      ((Runs.one hstart).cons (runs_walk_waiting fun u hu' => ?_)) (by decide)
    obtain ⟨t, st, ht', rfl⟩ := txn_joinPool _ hu'
    cases ht'.symm.trans (Table.find_insert_same _ _ _)
    exact List.cons_ne_nil _ _
  case waits =>
    intro g hn hent hlen hnone waiting
    let y : Volume := { x with inFlight := x.inFlight + 1, slotWait := x.slotWait ++ [g] }
    have hstart := startPreservation_waits
      (volume_entryMade s.dev p h payload x.epoch { x with inFlight := x.inFlight + 1 } .reading)
      (entry_entryMade s.dev p h payload x.epoch { x with inFlight := x.inFlight + 1 } .reading) rfl hnone
    rw [entryMade_withEntry, entryMade_setVolume] at hstart
    have hvol : (waiting x).volume? h.volume = some y := Table.find_insert_same _ _ _
    have asks {b : Nat} {d : Device} (hr' : Runs b [.askRetirement h.volume] (waiting x) d)
        (hw : ∀ t, d.txn? p h.tag = some t → t.job.waits ≠ []) (hle : b ≤ 80) :
        exec (.write p h payload) s = .next { s with dev := d } :=
      exec_write_entry hl hu hb ht hf hpool hv hs hr hc hd hone hn hent hlen
        ((Runs.task hstart hr').cons (runs_walk_waiting hw)) (by omega)
    have hwaits (z : Volume) (t : Txn) (ht : (waiting z).txn? p h.tag = some t) : t.job.waits ≠ [] := by
      cases ht.symm.trans (Table.find_insert_same _ _ _)
      exact List.cons_ne_nil _ _
    refine ⟨fun hret => ?_, fun before a after hact hsn hpins ha hnum hsw => ?_, fun hall hsw hrw => ?_⟩
    · exact asks (Runs.one (askRetirement_retiring hvol hret)) (hwaits x) (by decide)
    · have hask := askRetirement_starts hvol hact hsn hpins ha hnum
      rw [Volume.retires_first (x := y) hsw] at hask
      simp only [waiting, Device.setVolume, Table.insert_insert] at hask
      exact asks (Runs.one hask) (hwaits _) (by decide)
    · have hmade : (waiting x).entry? h.volume g = some _ := Table.find_insert_same _ _ _
      have hone' : y.slotWait = [g] := by
        show x.slotWait ++ [g] = [g]
        rw [hsw]
        rfl
      have hask := askRetirement_none hvol hall
      rw [hone', failWaits_one hmade rfl] at hask
      have hfail := runs_failWait hvol hmade rfl rfl rfl hone' hrw hc (by rw [hs]; decide)
        (t := waitingRecord h payload x.epoch) (Table.find_insert_same _ _ _) rfl rfl rfl rfl
      refine (asks (Runs.task hask hfail) (fun t ht => ?_) (by decide)).trans ?_
      · cases ht.symm.trans (Table.find_erase_same _ _)
      · have hx : ({ y with slotWait := [], inFlight := y.inFlight - 1 } : Volume) = x := by
          show ({ x with slotWait := [] } : Volume) = x
          rw [← hsw]
        rw [hx]
        exact congrArg (fun d : Device => Host.Outcome.next { s with dev := d })
          (entryMade_ended ht hent hu payload x.epoch y x (.slotWait (x.w g) x.epoch) .reserveFull)
  case ends =>
    intro freed
    have fe : freed.entry? v g = some e := he
    have fv : freed.volume? v = some x := hv
    refine ⟨fun base p slot data hp => ?_, fun base p slot buffer data hp hr hw => ?stored,
      fun slot st data hp hst hr hw hsw hrw => ?_⟩
    · exact exec_poolDone hl hk h1 h2 h3 (Runs.one (poolEnd_preserving fe hp ha hpool data)) (by decide)
    case stored =>
      intro Ends
      have stores {b : Nat} {ts : List Task} {f d : Device} (hdone : perform (.storeDone v g) freed = (f, ts))
          (hrun : Runs b ts f d) (hle : b ≤ 90) : exec (.poolDone k .ok data) s = .next { s with dev := d } :=
        exec_poolDone hl hk h1 h2 h3 (Runs.task (poolEnd_storing fe hp data) (Runs.task hdone hrun)) (by omega)
      have ends (map : List PreserveEntry) (frees : List Nat) (grains : Table Nat) (held : Nat) (armed : Bool)
          (hexec : ∀ {b : Nat} {d : Device}, Runs b [.dropEntry v g] (freed.preserved v g e map frees
              { x with grains := grains, slotsHeld := held, reserveArmed := armed }) d → b ≤ 80 →
            exec (.poolDone k .ok data) s = .next { s with dev := d }) :
          Ends map frees { x with grains := grains, slotsHeld := held, reserveArmed := armed } := by
        let y : Volume := { x with grains := grains, slotsHeld := held, reserveArmed := armed }
        let f : Device := freed.preserved v g e map frees y
        have hfv : f.volume? v = some y := volume_preserved map frees y
        have hfe : f.entry? v g = some { e with phase := .reading } := entry_preserved map frees y
        refine ⟨fun hwt hrw => ?_, fun port tag t hwt hrw ht hkind htv hch hst htw hn => ?_,
          fun j z u hwt hrw hz hzv hu h0 hle hn hlen => ?_⟩
        · have hdrop := dropEntry_runs hfe rfl hr hwt hrw hfv hs
          simp only [f, Device.preserved, Device.removeEntry, Table.erase_insert] at hdrop
          exact hexec hdrop (by decide)
        · have hdrop := runs_dropEntry_waiter hfv hs hfe rfl hr hwt hrw hpool ht hkind htv hch hst htw hn
          simp only [f, Device.preserved, Table.erase_insert, Table.insert_insert] at hdrop
          exact hexec hdrop (by decide)
        · exact hexec (runs_preserved_reader he hs hr hwt hrw hz hzv hu h0 hle hn hlen hpool) (by decide)
      refine ⟨fun before after hact hmap hbefore hafter => ?_, fun hnone => ?_⟩
      · have hactive : x.activeIn base (p - 1) = true := (x.activeIn_iff _ _).2 hact
        have hdone := storeDone_keeps fv fe hp hw hactive
        rw [show freed.pres.map = s.dev.pres.map from rfl, insertBefore_preserve hmap hbefore hafter] at hdone
        exact ends _ _ _ _ _ fun hrun hle => stores hdone hrun (by omega)
      · have hactive : x.activeIn base (p - 1) = false :=
          Bool.eq_false_iff.2 fun h => let ⟨n, hn, hact⟩ := (x.activeIn_iff _ _).1 h; hnone n hn hact
        have hdone := storeDone_returns fv fe hp hw hactive
        intro y
        refine ⟨fun hsw => ?_, fun g' waits b q n frees f hsw hg' hne hf hfp hfree hlt hone hwt hrw => ?_⟩
        · exact ends _ _ _ _ _ fun hrun hle => stores hdone
            ((Runs.one (serveSlots_quiet (x := y) (volume_preserved _ _ _) hsw)).cons hrun) (by omega)
        · exact stores hdone (runs_served_dropEntry (x := y) hne hr hwt hrw hs hsw hg' hf hfp hfree hlt hone hpool)
            (by decide)
    · have hst' : doneStatus st ≠ .ok := by rw [doneStatus_failed hst]; decide
      exact exec_poolDone hl hk h1 h2 h3 (Runs.of_perform_eq (poolEnd_preserve_fails hst' data)
        (runs_poolEnd_preserve fe hr hw hp fv hs hsw hrw)) (by decide)

end Sys2Proof.Machine
end

section
/-! ### The ends of copy reads and of restore writes (O60) -/

namespace Sys2Proof.Machine

section
variable {d : Device} {j : SlotId} {z : CopySlot}

/-! #### Copy slots -/

@[simp] theorem slot_setSlot_same (o : Option CopySlot) : (d.setSlot j o).slot? j = o := Vector.getElem_set_self _

theorem slot_setSlot_ne {l : SlotId} (h : l ≠ j) (o : Option CopySlot) : (d.setSlot j o).slot? l = d.slot? l :=
  Vector.getElem_set_ne j.isLt l.isLt fun hjl => h (Fin.ext hjl.symm)

@[simp] theorem setSlot_setSlot (o o' : Option CopySlot) : (d.setSlot j o).setSlot j o' = d.setSlot j o' :=
  congrArg (fun v => ({ d with copy.slots := v } : Device)) (Vector.set_set ..)

/-- The work of a slot in WRITING is what the slot holds. -/
theorem onJob_slot {b : Job} {due : Option Nat} (hz : d.slot? j = some z) (hp : z.phase = .writing b due)
    (f : Job → Job) : d.onJob (.slot j) f = d.setSlot j (some { z with phase := .writing (f b) due }) := by
  simp only [Device.onJob, hz, hp]

/-! #### The record of a restore in the table -/

/-- The restore table holds record r, with those before and those after it. -/
structure Device.HoldsRestore (d : Device) (before : List Restore) (r : Restore) (after : List Restore) : Prop where
  list : d.copy.restores = before ++ r :: after
  others : ∀ q ∈ before ++ after, q.id ≠ r.id

section
variable {before after : List Restore} {r : Restore}

theorem Device.HoldsRestore.find (h : d.HoldsRestore before r after) : d.restore? r.id = some r := by
  obtain ⟨hl, ho⟩ := h
  have hbefore : before.find? (fun q => q.id = r.id) = none :=
    List.find?_eq_none.2 fun q hq => by simp [ho q (List.mem_append_left _ hq)]
  rw [Device.restore?, hl, List.find?_append, hbefore]
  simp

theorem Device.HoldsRestore.onRestore (h : d.HoldsRestore before r after) (f : Restore → Restore) :
    d.onRestore r.id f = { d with copy.restores := before ++ f r :: after } := by
  obtain ⟨hl, ho⟩ := h
  have hmap (l : List Restore) (hsub : ∀ q ∈ l, q ∈ before ++ after) :
      l.map (fun q => if q.id = r.id then f q else q) = l :=
    (List.map_congr_left fun q hq => if_neg (ho q (hsub q hq))).trans (List.map_id' l)
  rw [Device.onRestore, hl, List.map_append, List.map_cons, if_pos rfl, hmap before fun q => List.mem_append_left _,
    hmap after fun q => List.mem_append_right _]

/-- No stream is eligible beside a restore that is not, when no other restore runs and no pass does (R116). -/
theorem Device.HoldsRestore.grant_quiet (h : d.HoldsRestore before r after) (hr : r.eligible = false)
    (ho : ∀ q ∈ before ++ after, q.state ≠ .running) (hp : d.dup.pass = none) : perform .grant d = (d, []) := by
  refine grant_none (fun q hq => ?_) (passEligible_none hp)
  rw [h.list] at hq
  rcases List.mem_append.1 hq with hq | hq
  · exact Restore.not_eligible (ho q (List.mem_append_left _ hq))
  · rcases List.mem_cons.1 hq with rfl | hq
    · exact hr
    · exact Restore.not_eligible (ho q (List.mem_append_right _ hq))

theorem Device.HoldsRestore.extentCheck_quiet (h : d.HoldsRestore before r after) {i : Nat} (hc : r.current = some i)
    (hf : r.inFlight ≠ 0) : perform (.extentCheck r.id) d = (d, []) := by
  have hover : r.extentOver = false := by simp [Restore.extentOver, hf]
  show extentCheck r.id d = _
  simp only [extentCheck, h.find, hc, hover]
  rfl

/-- R124, R127: a copy of a restore ends; its slot is FREE and its restore is told. -/
theorem Device.HoldsRestore.finishCopy (h : d.HoldsRestore before r after) (hz : d.slot? j = some z)
    (hs : z.stream = .restore r.id) (st : Status) : d.finishCopy j st =
      ({ d.setSlot j none with copy.restores := before ++ r.copyEnded st :: after }, [.extentCheck r.id, .grant]) := by
  have hheld : (d.setSlot j none).HoldsRestore before r after := ⟨h.list, h.others⟩
  simp only [Device.finishCopy, hz, hs, hheld.onRestore]

end

/-! #### What a read's end leaves of its registration (R94) -/

/-- From d to e the read of the slot z has left its grain's entry, if it was registered on one; the entry keeps other
readers. -/
def Device.ReadLeft (d : Device) (z : CopySlot) (e : Device) : Prop :=
  (∃ n v, z.image = .slot n v) ∧ e = d
    ∨ ∃ v x, z.image = .live v ∧ d.entry? z.volume z.grain = some x ∧ x.readers ≥ 2
      ∧ e = d.withEntry z.volume z.grain { x with readers := x.readers - 1 }

/-- Nothing but the pending grain table changes. -/
theorem Device.ReadLeft.frame {e : Device} (h : d.ReadLeft z e) : e = { d with pres := e.pres } := by
  rcases h with ⟨_, rfl⟩ | ⟨v, x, _, _, _, rfl⟩ <;> rfl

/-- R94: a read's end leaves its registration, and then its stream hears of it. -/
theorem Device.ReadLeft.runs {e f : Device} {b : Nat} {st : Status} {data : List Byte} (h : d.ReadLeft z e)
    (hz : d.slot? j = some z) (hp : z.phase = .reading) (hr : Runs b [.readOutcome j st data] e f) :
    Runs (b + 3) [.poolEnd (.slot j) st data] d f := by
  have hpool : perform (.poolEnd (.slot j) st data) d = (d, [.readEnd j st data]) := by
    show poolOutcome (.slot j) st data d = _
    simp only [poolOutcome, hz, hp]
  refine Runs.task hpool ?_
  rcases h with ⟨⟨n, v, hi⟩, rfl⟩ | ⟨v, x, hi, he, hx, rfl⟩
  · have hend : perform (.readEnd j st data) e = (e, [.readOutcome j st data]) := by
      show endRead j st data e = _
      simp only [endRead, hz, hi]
    exact (Runs.task hend hr).mono (by omega)
  · let e : Device := d.withEntry z.volume z.grain { x with readers := x.readers - 1 }
    have hend : perform (.readEnd j st data) d = (e, [.dropEntry z.volume z.grain, .readOutcome j st data]) := by
      show endRead j st data d = _
      simp only [endRead, hz, hi, onEntry_eq he]
      rfl
    have hdrop : perform (.dropEntry z.volume z.grain) e = (e, []) := by
      refine dropEntry_quiet fun y hy => .inr ?_
      have hxy : some { x with readers := x.readers - 1 } = some y := (entry_withEntry ..).symm.trans hy
      rw [← Option.some.inj hxy]
      show x.readers - 1 ≠ 0
      omega
    exact (Runs.task hend ((Runs.one hdrop).cons hr)).mono (by omega)

/-! #### What the stream of a read does with its end (R119, R124, R144) -/

/-- A read of an ended pass, or one whose place in staging is gone, frees its slot; here no grant follows. -/
theorem runs_readOutcome_freed (hz : d.slot? j = some z)
    (hs : z.stream = .dropped ∨ z.stream = .pass ∧ d.placeOf j = none)
    (hg : perform .grant (d.setSlot j none) = (d.setSlot j none, [])) (st : Status) (data : List Byte) :
    Runs 2 [.readOutcome j st data] d (d.setSlot j none) := by
  have hout : perform (.readOutcome j st data) d = (d.setSlot j none, [.grant]) := by
    show readOutcome j st data d = _
    rcases hs with hs | ⟨hs, hpl⟩
    · simp only [readOutcome, hz, hs]
    · simp only [readOutcome, hz, hs, hpl, Option.isNone_none, if_true]
  exact Runs.task hout (Runs.one hg)

/-- A pass read that ends OK leaves its data in its slot. -/
theorem readOutcome_staged {pl : Place} (hz : d.slot? j = some z) (hs : z.stream = .pass) (hpl : d.placeOf j = some pl)
    (data : List Byte) :
    perform (.readOutcome j .ok data) d = (d.setSlot j (some { z with phase := .staging data }), []) := by
  show readOutcome j .ok data d = _
  simp only [readOutcome, hz, hs, hpl, Option.isNone_some, Bool.false_eq_true, if_false, if_true]

/-- R119: the end of a pass touches no slot that does not work for it. -/
theorem foldl_releasePassSlot_others (l : List SlotId) (h : ∀ k z, d.slot? k = some z → z.stream ≠ .pass) :
    l.foldl (fun d k => d.releasePassSlot k) d = d := by
  induction l with
  | nil => rfl
  | cons k l ih =>
    have hk : d.releasePassSlot k = d := by
      unfold Device.releasePassSlot
      cases hz : d.slot? k with
      | none => rfl
      | some z => exact if_neg (h k z hz)
    rw [List.foldl_cons, hk, ih]

/-- R153: the end of a pass none of whose grains is in a copy slot, whatever the other slots hold. -/
theorem closePass_others {q : Pass} {x : Volume} (hs : ∀ k z, d.slot? k = some z → z.stream ≠ .pass)
    (hv : d.volume? q.volume = some x) (o : PassOutcome) (r : Option PassReason) :
    d.closePass q o r = d.passClosed q x o r := by
  unfold Device.closePass Device.passClosed
  cases hn : q.snapshot with
  | none =>
    dsimp only
    rw [foldl_releasePassSlot_others _ hs,
      onVolume_eq (d := { d with dup.staging := [], dup.batches := [] }) (v := q.volume) (x := x) hv]
    simp only [reduceCtorEq, if_false, List.map_id', Pass.report, hn]
    rfl
  | some n =>
    have hu : d.unpin q.volume n = d.setVolume q.volume (x.unpinned n) := onVolume_eq hv _
    dsimp only
    rw [hu, foldl_releasePassSlot_others (d := d.setVolume q.volume (x.unpinned n)) _ hs,
      onVolume_eq (d := { d.setVolume q.volume (x.unpinned n) with dup.staging := [], dup.batches := [] })
        (x := x.unpinned n) (Table.find_insert_same _ _ _)]
    simp only [Option.some.injEq, Pass.report, hn, Device.setVolume, Table.insert_insert, Volume.unpinned,
      eq_comm (a := n)]
    rfl

/-- R153: a pass that nothing else waits on ends, and nothing follows. -/
theorem runs_passEnd_alone {q : Pass} {x : Volume} {o : PassOutcome} {why : PassReason} (hq : d.dup.pass = some q)
    (hv : d.volume? q.volume = some x) (ha : d.PassAlone) (ho : o ≠ .done) :
    Runs 4 [.passEnd o (some why)] d
      ((d.passClosed q x o (some why)).noted .passFailed (.volume q.volume) (.name why.name)) := by
  obtain ⟨hslots, hrestores, hqueue, htransmitter⟩ := ha
  let e : Device := (d.passClosed q x o (some why)).noted .passFailed (.volume q.volume) (.name why.name)
  have hend : perform (.passEnd o (some why)) d = (e, [.passStart, .grant, .transmit]) := by
    show passEnd o (some why) d = _
    simp only [passEnd, hq, closePass_others hslots hv, notify_eq]
    rfl
  have hstart : perform .passStart e = (e, []) := passStart_quiet (.inr (startable_none hqueue))
  have hgrant : perform .grant e = (e, []) :=
    grant_none (fun r hr => Restore.not_eligible (hrestores r hr)) (passEligible_none rfl)
  have htransmit : perform .transmit e = (e, []) := by
    rcases htransmitter with h | h
    · exact transmit_held h
    · exact transmit_nothing h (fun b hb => absurd hb List.not_mem_nil) rfl
  exact Runs.task hend ((Runs.one hstart).cons ((Runs.one hgrant).cons (Runs.one htransmit)))

/-- A pass read that fails ends the pass FAILED with READ (R119). -/
theorem runs_readOutcome_passFailed {q : Pass} {x : Volume} {pl : Place} {st : Status} (hz : d.slot? j = some z)
    (hs : z.stream = .pass) (hpl : d.placeOf j = some pl) (hst : st ≠ .ok) (hq : d.dup.pass = some q)
    (hv : d.volume? q.volume = some x) (ha : (d.setSlot j none).PassAlone) (data : List Byte) :
    Runs 5 [.readOutcome j st data] d
      (((d.setSlot j none).passClosed q x .failed (some .read)).noted .passFailed (.volume q.volume) (.name .read)) := by
  have hout : perform (.readOutcome j st data) d = (d.setSlot j none, [.passEnd .failed (some .read)]) := by
    show readOutcome j st data d = _
    simp only [readOutcome, hz, hs, hpl, Option.isNone_some, Bool.false_eq_true, if_false, if_neg hst]
  exact Runs.task hout (runs_passEnd_alone hq hv ha (by decide))

section
variable {before after : List Restore} {r : Restore}

/-- R101, R125: a restore read that ends OK becomes a write to the destination; a cut of that volume holds it. -/
theorem Device.HoldsRestore.runs_makeWrite_held {x : Volume} (h : d.HoldsRestore before r after) (hz : d.slot? j = some z)
    (hs : z.stream = .restore r.id) (hv : d.volume? z.destVolume = some x) (hc : x.cut ≠ none)
    (hl : d.cutHold.length < 256) (data : List Byte) :
    Runs 2 [.readOutcome j .ok data] d { d.setSlot j (some { z with
        phase := .writing { z.restoreJob r.account data with stage := .held } none }) with
      cutHold := d.cutHold ++ [.slot j] } := by
  let made : Device := d.setSlot j (some { z with phase := .writing (z.restoreJob r.account data) none })
  have hout : perform (.readOutcome j .ok data) d = (made, [.makeWrite j]) := by
    show readOutcome j .ok data d = _
    simp only [readOutcome, hz, hs, h.find, if_true, made]
  have hcutting : made.cutting z.destVolume = true := by
    simp only [Device.cutting, show made.volume? z.destVolume = some x from hv, Volume.cutting]
    exact Option.isSome_iff_ne_none.2 hc
  have hhold : made.joinHold (.slot j) = some { made.setSlot j (some { z with
        phase := .writing { z.restoreJob r.account data with stage := .held } none }) with
      cutHold := d.cutHold ++ [.slot j] } := by
    have hjob := onJob_slot (d := { made with cutHold := d.cutHold ++ [.slot j] }) (j := j) (slot_setSlot_same _) rfl
      fun b => { b with stage := .held }
    exact (if_pos hl).trans (congrArg some hjob)
  have hmake : perform (.makeWrite j) made = ({ d.setSlot j (some { z with
        phase := .writing { z.restoreJob r.account data with stage := .held } none }) with
      cutHold := d.cutHold ++ [.slot j] }, []) := by
    show makeWrite j made = _
    simp only [makeWrite, made, slot_setSlot_same, setSlot_setSlot]
    show enterWritePath (.slot j) z.destVolume made = _
    rw [enterWritePath, if_pos hcutting, hhold]
    simp only [made, setSlot_setSlot]
  exact Runs.task hout (Runs.one hmake)

end

end

/-! #### The end of a restore write (R127) -/

section
variable {d : Device} {j : SlotId} {z : CopySlot} {before after : List Restore} {r : Restore}

/-- The part with an admitted restore write of slot j ended, but for its restore: the charge settled, its volume's count
lowered, the slot FREE. -/
def Device.copyWritten (d : Device) (j : SlotId) (b : Job) (c : Nat) (w : Volume) (st : Status) : Device :=
  let e := d.settleCharge b.account c (decide (st = .ok))
  { d with
    accounts := e.accounts, groups := e.groups, clock := e.clock
    volumes := d.volumes.insert b.volume { w with inFlight := w.inFlight - 1 }
    copy.slots := d.copy.slots.set j.val none j.isLt }

/-- R127: a restore write that waits on no entry ends, and its restore looks at its extent; here its volume is neither
CUTTING nor REMOVING. -/
theorem Device.HoldsRestore.runs_writeEnd {b : Job} {c n : Nat} {w : Volume} {st : Status} {u : Device}
    (h : d.HoldsRestore before r after) (hz : d.slot? j = some z) (hs : z.stream = .restore r.id)
    (hp : z.phase = .writing b none) (hc : b.charge = some c) (hw : b.waits = []) (hv : d.volume? b.volume = some w)
    (hcut : w.cut = none) (hrm : w.state ≠ .removing) (hst : st ≠ .retry)
    (hr : Runs n [.extentCheck r.id, .grant]
      { d.copyWritten j b c w st with copy.restores := before ++ r.copyEnded st :: after } u) (data : List Byte) :
    Runs (n + 3) [.poolEnd (.slot j) st data] d u := by
  let ended : Device := { d.copyWritten j b c w st with copy.restores := before ++ r.copyEnded st :: after }
  have hpool : perform (.poolEnd (.slot j) st data) d = (d, [.writeEnd (.slot j) st]) := by
    show poolOutcome (.slot j) st data d = _
    simp only [poolOutcome, hz, hp]
  have hend : perform (.writeEnd (.slot j) st) d = (ended, [.volumeCheck b.volume, .extentCheck r.id, .grant]) := by
    let e : Device := d.settleCharge b.account c (decide (st = .ok))
    have hframe : e = { d with accounts := e.accounts, groups := e.groups, clock := e.clock } :=
      settleCharge_frame d b.account c (decide (st = .ok))
    let lowered : Device := e.setVolume b.volume { w with inFlight := w.inFlight - 1 }
    have hjob : d.job? (.slot j) = some b := by simp only [Device.job?, hz, hp]
    have hleave : d.leaveWaits (.slot j) b = d := by rw [Device.leaveWaits, hw]; rfl
    have hlower : e.lowerInFlight b.volume = lowered := lowerInFlight_eq (by rw [hframe]; exact hv)
    have hlowered : lowered = { d with
        accounts := e.accounts, groups := e.groups, clock := e.clock
        volumes := d.volumes.insert b.volume { w with inFlight := w.inFlight - 1 } } :=
      congrArg (fun f : Device => f.setVolume b.volume { w with inFlight := w.inFlight - 1 }) hframe
    have hheld : lowered.HoldsRestore before r after := by
      rw [hlowered]
      exact ⟨h.list, h.others⟩
    have hslot : lowered.slot? j = some z := by
      rw [hlowered]
      exact hz
    have hlast : ({ lowered.setSlot j none with copy.restores := before ++ r.copyEnded st :: after } : Device)
        = ended := by
      rw [hlowered]
      rfl
    show endWrite (.slot j) st d = _
    simp only [endWrite, hjob, hc, hleave, Device.reportWrite, if_neg hst]
    show ((((e.lowerInFlight b.volume).finishCopy j st).1, _) : Effect) = _
    rw [hlower, hheld.finishCopy hslot hs, hlast, hw]
    rfl
  have hcheck : perform (.volumeCheck b.volume) ended = (ended, []) :=
    volumeCheck_quiet (x := { w with inFlight := w.inFlight - 1 }) (Table.find_insert_same _ _ _) hcut hrm
  exact (Runs.task hpool (Runs.task hend ((Runs.one hcheck).cons hr))).mono (by omega)

/-! #### The record of a restore that has ended a copy -/

/-- What a copy's end makes of the extent it belongs to, once that ends (R127, R128). -/
def copyOutcome (st : PoolStatus) : ExtentOutcome := if st = .ok then .done else .failed .mediaError

/-- R127: the record once a copy of its RUNNING extent i has ended. -/
def Restore.counted (r : Restore) (i : Nat) (st : PoolStatus) : Restore := { r with
  inFlight := r.inFlight - 1
  copied := r.copied + if st = .ok then 1 else 0
  outcomes := if st = .ok then r.outcomes else r.outcomes.set i (copyOutcome st) }

/-- A restore whose extent i runs, with no cancel requested. -/
structure Restore.Extending (r : Restore) (i : Nat) : Prop where
  cancel : r.cancel = false
  current : r.current = some i
  outcome : r.outcomes[i]? = some .running

namespace Restore.Extending
variable {i : Nat}

theorem currentOutcome (h : r.Extending i) : r.currentOutcome = some .running := by
  simp only [Restore.currentOutcome, h.current, Option.bind_some, h.outcome]

theorem copyEnded (h : r.Extending i) (st : PoolStatus) : r.copyEnded (doneStatus st) = r.counted i st := by
  have hcur := h.currentOutcome
  by_cases hst : st = .ok
  · subst hst
    rfl
  · simp [Restore.copyEnded, Restore.counted, copyOutcome, doneStatus_failed hst, hst, hcur, h.cancel, h.current]

/-- After a copy that failed the extent has its outcome. -/
theorem counted_currentOutcome (h : r.Extending i) {st : PoolStatus} (hst : st ≠ .ok) :
    (r.counted i st).currentOutcome = some (.failed .mediaError) := by
  have hlt : i < r.outcomes.length := (List.getElem?_eq_some_iff.1 h.outcome).1
  simp [Restore.currentOutcome, Restore.counted, copyOutcome, hst, h.current, hlt]

/-- R128: the outcome the extent ends with, when it does. -/
theorem counted_finalOutcome (h : r.Extending i) (st : PoolStatus) : (r.counted i st).finalOutcome = copyOutcome st := by
  by_cases hst : st = .ok
  · subst hst
    have hcur : (r.counted i .ok).currentOutcome = some .running := h.currentOutcome
    simp only [Restore.finalOutcome, hcur, show (r.counted i .ok).cancel = false from h.cancel]
    rfl
  · simp only [Restore.finalOutcome, h.counted_currentOutcome hst, copyOutcome, if_neg hst]

end Restore.Extending

theorem counted_outcomes_set (r : Restore) (i : Nat) (st : PoolStatus) :
    (r.counted i st).outcomes.set i (copyOutcome st) = r.outcomes.set i (copyOutcome st) := by
  by_cases hst : st = .ok
  · simp only [Restore.counted, if_pos hst]
  · simp only [Restore.counted, if_neg hst, List.set_set]

/-- No grain of the restore's current extent is taken any more: the cursor is past it, or it has its outcome. -/
def Restore.Stopped (r : Restore) : Prop := r.hasGrains = false ∨ r.currentOutcome ≠ some .running

theorem Restore.Stopped.not_eligible (h : r.Stopped) : r.eligible = false := by
  rcases h with h | h <;> simp [Restore.eligible, h]

/-- R123: with no copy in flight either, the extent of a RUNNING restore is over. -/
theorem Restore.Stopped.extentOver (h : r.Stopped) {i : Nat} (hr : r.state = .running) (hf : r.inFlight = 0)
    (hc : r.current = some i) : r.extentOver = true := by
  rcases h with h | h <;> simp [Restore.extentOver, hr, hf, hc, h]

theorem Restore.Extending.counted_stopped {i : Nat} {e : Extent} {st : PoolStatus} (h : r.Extending i)
    (he : r.extents[i]? = some e) (hg : st = .ok → ∀ g, r.cursor = some g → e.source + e.count ≤ g) :
    (r.counted i st).Stopped := by
  by_cases hst : st = .ok
  · left
    have hext : r.currentExtent = some e := by simp only [Restore.currentExtent, h.current, Option.bind_some, he]
    show r.hasGrains = false
    cases hc : r.cursor with
    | none => simp only [Restore.hasGrains, hext, hc]
    | some g => simp only [Restore.hasGrains, hext, hc, decide_eq_false_iff_not, Nat.not_lt, hg hst g hc]
  · right
    rw [h.counted_currentOutcome hst]
    decide

/-! #### The end of an extent (R123, R128, R129) -/

/-- With other copies in flight the extent goes on, and no grant follows. -/
theorem Device.HoldsRestore.runs_extent_goesOn {i : Nat} (h : d.HoldsRestore before r after) (hc : r.current = some i)
    (hf : r.inFlight ≠ 0) (hs : r.Stopped) (ho : ∀ q ∈ before ++ after, q.state ≠ .running) (hp : d.dup.pass = none) :
    Runs 2 [.extentCheck r.id, .grant] d d :=
  (Runs.one (h.extentCheck_quiet hc hf)).cons (Runs.one (h.grant_quiet hs.not_eligible ho hp))

/-- R124: a restore read fails, with other copies in flight. -/
theorem Device.HoldsRestore.runs_readFailed {i : Nat} {st : PoolStatus} (h : d.HoldsRestore before r after)
    (hz : d.slot? j = some z) (hs : z.stream = .restore r.id) (hx : r.Extending i) (hst : st ≠ .ok) (hf : r.inFlight ≥ 2)
    (ho : ∀ q ∈ before ++ after, q.state ≠ .running) (hp : d.dup.pass = none) (data : List Byte) :
    Runs 3 [.readOutcome j (doneStatus st) data] d
      { d.setSlot j none with copy.restores := before ++ r.counted i st :: after } := by
  let u : Device := { d.setSlot j none with copy.restores := before ++ r.counted i st :: after }
  have hfail : ¬ doneStatus st = .ok := by rw [doneStatus_failed hst]; decide
  have hout : perform (.readOutcome j (doneStatus st) data) d = (u, [.extentCheck r.id, .grant]) := by
    show readOutcome j (doneStatus st) data d = _
    simp only [readOutcome, hz, hs, if_neg hfail, h.finishCopy hz hs, hx.copyEnded]
    rfl
  have hheld : u.HoldsRestore before (r.counted i st) after := ⟨rfl, h.others⟩
  have hstopped : (r.counted i st).Stopped := .inr (by rw [hx.counted_currentOutcome hst]; decide)
  have hfl : (r.counted i st).inFlight ≠ 0 := by show r.inFlight - 1 ≠ 0; omega
  exact Runs.task hout (hheld.runs_extent_goesOn hx.current hfl hstopped ho hp)

/-- R128, R132: the notice of extent i, which ends with outcome o, if the extent asks for it. -/
def Device.extentTold (d : Device) (e : Extent) (id i : Nat) (o : ExtentOutcome) : Device := { d with
  mgmt := if e.notify then (d.noted .restoreExtent (.restore id) (.extent o.name (i + 1))).mgmt else d.mgmt }

theorem extentTold_eq (e : Extent) (id i : Nat) (o : ExtentOutcome) : d.extentTold e id i o =
    if e.notify then d.noted .restoreExtent (.restore id) (.extent o.name (i + 1)) else d := by
  unfold Device.extentTold
  split <;> rfl

theorem notifyExtent_eq {i : Nat} {e : Extent} (he : r.extents[i]? = some e) (o : ExtentOutcome) :
    d.notifyExtent r i o = d.extentTold e r.id i o := by
  simp only [Device.notifyExtent, he, notify_eq, extentTold_eq]

/-- R129: the outcome of a restore whose extents have all ended. -/
def restoreOutcome (os : List ExtentOutcome) : RestoreOutcome :=
  if os.all fun o => o = .done then .done else .doneWithErrors

/-- R128: the part once extent i of a restore has its outcome, with its notice. -/
def Device.extentEnded (d : Device) (r : Restore) (i : Nat) : Device :=
  (d.onRestore r.id fun x => { x with outcomes := r.outcomes.set i r.finalOutcome }).notifyExtent r i r.finalOutcome

/-- R123, R129: an extent that is over ends; the next one starts, or the restore ends. -/
theorem Device.HoldsRestore.extentCheck_over {i : Nat} (h : d.HoldsRestore before r after) (hc : r.current = some i)
    (hov : r.extentOver = true) (hca : r.cancel = false) : perform (.extentCheck r.id) d =
      if i + 1 < r.extents.length then ((d.extentEnded r i).onRestore r.id fun x => x.enterExtent (i + 1), [.grant])
      else (((d.extentEnded r i).endRestore r (restoreOutcome (r.outcomes.set i r.finalOutcome)) none).notifyRestoreEnd
        r.id (restoreOutcome (r.outcomes.set i r.finalOutcome)) none, [.promote, .grant]) := by
  show extentCheck r.id d = _
  simp only [extentCheck, h.find, hc, hov, hca, if_true, Bool.false_eq_true, if_false]
  rfl

/-- The part with the outcome of extent i, written out. -/
theorem Device.HoldsRestore.extentEnded {i : Nat} {e : Extent} (h : d.HoldsRestore before r after)
    (he : r.extents[i]? = some e) : d.extentEnded r i = { d.extentTold e r.id i r.finalOutcome with
      copy.restores := before ++ { r with outcomes := r.outcomes.set i r.finalOutcome } :: after } := by
  rw [Device.extentEnded, h.onRestore, notifyExtent_eq he]
  rfl

/-- R120, R129: the record of a restore ended as its extents did. -/
def Restore.finished (r : Restore) (os : List ExtentOutcome) : Restore := { r with
  state := .ended, current := none, cursor := none, outcomes := os, outcome := some (restoreOutcome os), reason := none }

/-- R129, R133: the part with a restore ended as its extents did, its pin on the volume x dropped. -/
def Device.restoreFinished (d : Device) (before : List Restore) (r : Restore) (after : List Restore) (x : Volume)
    (os : List ExtentOutcome) : Device :=
  { d.noted .restoreEnd (.restore r.id) (.restoreEnd (restoreOutcome os).name none) with
    copy.restores := before ++ r.finished os :: after
    copy.endedOrder := d.copy.endedOrder ++ [r.id]
    volumes := d.volumes.insert r.source (x.unpinned r.snapshot) }

/-- R122: with no restore QUEUED none is promoted. -/
theorem promote_quiet (h : ∀ q ∈ d.copy.restores, q.state ≠ .queued) : perform .promote d = (d, []) := by
  have hf : d.copy.restores.find? (fun q => q.state = .queued) = none :=
    List.find?_eq_none.2 fun q hq => by simp [h q hq]
  show promoteRestore d = _
  unfold promoteRestore
  rw [hf]
  split <;> rfl

/-- R129: the last extent ends and with it the restore; here every other restore has ended and no pass runs. -/
theorem Device.HoldsRestore.runs_lastExtent {i : Nat} {e : Extent} {x : Volume} (h : d.HoldsRestore before r after)
    (hst : r.state = .running) (hca : r.cancel = false) (hc : r.current = some i) (hf : r.inFlight = 0) (hs : r.Stopped)
    (he : r.extents[i]? = some e) (hlen : r.extents.length = i + 1) (hx : d.volume? r.source = some x)
    (ho : ∀ q ∈ before ++ after, q.state = .ended) (hp : d.dup.pass = none) :
    Runs 4 [.extentCheck r.id, .grant] d ((d.extentTold e r.id i r.finalOutcome).restoreFinished before r after x
      (r.outcomes.set i r.finalOutcome)) := by
  let os : List ExtentOutcome := r.outcomes.set i r.finalOutcome
  let u : Device := (d.extentTold e r.id i r.finalOutcome).restoreFinished before r after x os
  let told : Device := { d.extentTold e r.id i r.finalOutcome with
    copy.restores := before ++ { r with outcomes := os } :: after }
  have hend : told.endRestore r (restoreOutcome os) none = { told with
      copy.restores := before ++ r.finished os :: after
      copy.endedOrder := d.copy.endedOrder ++ [r.id]
      volumes := d.volumes.insert r.source (x.unpinned r.snapshot) } := by
    have hheld : told.HoldsRestore before { r with outcomes := os } after := ⟨rfl, h.others⟩
    have hon := hheld.onRestore fun r => { r with
      state := .ended, current := none, cursor := none, outcome := some (restoreOutcome os), reason := none }
    let listed : Device := { told with
      copy.restores := before ++ r.finished os :: after, copy.endedOrder := d.copy.endedOrder ++ [r.id] }
    have hunpin : listed.unpin r.source r.snapshot = listed.setVolume r.source (x.unpinned r.snapshot) :=
      onVolume_eq (d := listed) hx _
    unfold Device.endRestore
    dsimp only at hon ⊢
    rw [hon]
    exact hunpin
  have hcheck : perform (.extentCheck r.id) d = (u, [.promote, .grant]) := by
    rw [h.extentCheck_over hc (hs.extentOver hst hf hc) hca, if_neg (by omega), h.extentEnded he, hend,
      Device.notifyRestoreEnd, notify_eq]
    rfl
  have hended : ∀ q ∈ u.copy.restores, q.state = .ended := by
    intro q hq
    rcases List.mem_append.1 (show q ∈ before ++ r.finished os :: after from hq) with hq | hq
    · exact ho q (List.mem_append_left _ hq)
    · rcases List.mem_cons.1 hq with rfl | hq
      · rfl
      · exact ho q (List.mem_append_right _ hq)
  have hpromote : perform .promote u = (u, []) := promote_quiet fun q hq => by rw [hended q hq]; decide
  have hgrant : perform .grant u = (u, []) :=
    grant_none (fun q hq => Restore.not_eligible (by rw [hended q hq]; decide)) (passEligible_none hp)
  exact (Runs.task hcheck ((Runs.one hpromote).cons (Runs.one hgrant))).cons (Runs.one hgrant)

end

/-! #### The grant of the freed slot to the next extent (R117, R118, R122) -/

section
variable {d : Device} {j : SlotId} {before after : List Restore} {r : Restore}

theorem freeSlot_only (hj : d.slot? j = none) (ho : ∀ l, l ≠ j → d.slot? l ≠ none) : d.freeSlot = some j := by
  unfold Device.freeSlot
  cases hf : (List.finRange 16).find? fun k => (d.slot? k).isNone with
  | none => simpa [hj] using List.find?_eq_none.1 hf j (List.mem_finRange j)
  | some l =>
    have hl : d.slot? l = none := by simpa using List.find?_some hf
    by_cases hlj : l = j
    · rw [hlj]
    · exact absurd hl (ho l hlj)

theorem slots_taken_setSlot (h : ∀ l, l ≠ j → d.slot? l ≠ none) (z : CopySlot) (l : SlotId) :
    (d.setSlot j (some z)).slot? l ≠ none := by
  by_cases hlj : l = j
  · rw [hlj, slot_setSlot_same]
    exact Option.some_ne_none z
  · rw [slot_setSlot_ne hlj]
    exact h l hlj

/-- The slots stay taken as the arbiter looks at its queues. -/
theorem slots_taken_joinPool (h : ∀ l, d.slot? l ≠ none) (q : PoolRequest) (l : SlotId) :
    (d.joinPool q).slot? l ≠ none := by
  refine joinPool_keeps (P := fun e => ∀ l, e.slot? l ≠ none) (fun _ _ h => h) (fun d k q hd => ?_) h q l
  obtain ⟨a, op⟩ := q
  cases a with
  | server p tag =>
    simp only [Device.issue, Device.onTxn]
    split <;> exact hd
  | preserve v g => exact hd
  | slot k =>
    simp only [Device.issue, Device.onJob]
    split
    · split
      · exact slots_taken_setSlot (fun l _ => hd l) _
      · exact hd
    · exact hd

/-- The only eligible restore is chosen (R117). -/
theorem Device.HoldsRestore.chosen (h : d.HoldsRestore before r after) (hr : r.eligible = true)
    (ho : ∀ q ∈ before ++ after, q.eligible = false) : d.chosenRestore = some r := by
  have hnone (l : List Restore) (hl : ∀ q ∈ l, q ∈ before ++ after) : l.filter Restore.eligible = [] :=
    List.filter_eq_nil_iff.2 fun q hq => by simp [ho q (hl q hq)]
  have hfilter : d.copy.restores.filter Restore.eligible = [r] := by
    rw [h.list, List.filter_append, List.filter_cons_of_pos hr, hnone before fun q => List.mem_append_left _,
      hnone after fun q => List.mem_append_right _]
    rfl
  unfold Device.chosenRestore
  rw [hfilter]
  by_cases hlt : d.copy.cursor < r.id <;> simp [hlt, h.find]

/-- R118: a grain that lies in a preserve slot needs a copy slot at once. -/
theorem takeGrains_slot {e : Extent} {t : Taking} {n v : Nat} (hlt : t.cursor < e.source + e.count)
    (hi : d.resolve r.source r.snapshot t.cursor = .slot n v) (m : Nat) : d.takeGrains r e (m + 1) t =
      { t with cursor := t.cursor + 1, found := some (t.cursor, .slot n v) } := by
  rw [Device.takeGrains, if_pos hlt, hi]

/-- R120: the slot record of grain g of a restore's extent f, whose image lies in preserve slot n. -/
def Restore.slotRecord (r : Restore) (f : Extent) (g n v : Nat) : CopySlot :=
  { stream := .restore r.id, volume := r.source, grain := g, snapshot := r.snapshot, image := .slot n v
    destVolume := f.destVolume, destGrain := f.dest + (g - f.source), declared := if f.fresh then 1 else 0
    phase := .reading }

/-- R117: the part with slot j given to the grain g of a restore's extent f. -/
def Device.slotGiven (d : Device) (j : SlotId) (before : List Restore) (r : Restore) (after : List Restore) (f : Extent)
    (g n v : Nat) : Device := { d with
  copy.restores := before ++ { r with cursor := some (g + 1), inFlight := r.inFlight + 1 } :: after
  copy.slots := d.copy.slots.set j.val (some (r.slotRecord f g n v)) j.isLt
  copy.lastServed := some .restore
  copy.cursor := r.id }

/-- R117, R118: the one FREE slot goes to the only eligible restore, whose next grain lies in a preserve slot. -/
theorem Device.HoldsRestore.perform_grant {f : Extent} {g n v : Nat} (h : d.HoldsRestore before r after)
    (hj : d.slot? j = none) (hfull : ∀ l, l ≠ j → d.slot? l ≠ none) (hr : r.eligible = true)
    (ho : ∀ q ∈ before ++ after, q.eligible = false) (hp : d.dup.pass = none) (hf : r.currentExtent = some f)
    (hpos : 0 < f.count) (hc : r.cursor = some g) (hi : d.resolve r.source r.snapshot g = .slot n v) :
    perform .grant d = (d.slotGiven j before r after f g n v, [.startRead j, .grant]) := by
  have hlt : g < f.source + f.count := by
    have hg : r.hasGrains = true := by simp only [Restore.eligible, Bool.and_eq_true] at hr; exact hr.1.2
    simpa [Restore.hasGrains, hf, hc] using hg
  obtain ⟨m, hm⟩ : ∃ m, f.count = m + 1 := ⟨f.count - 1, (Nat.sub_add_cancel hpos).symm⟩
  have htaken : d.takeGrains r f f.count { cursor := g, unwritten := 0, alreadyCurrent := 0, found := none } =
      { cursor := g + 1, unwritten := 0, alreadyCurrent := 0, found := some (g, .slot n v) } := by
    rw [hm]
    exact takeGrains_slot hlt hi m
  let moved : Device := { d with copy.restores := before ++ { r with cursor := some (g + 1) } :: after }
  have hmoved : moved.HoldsRestore before { r with cursor := some (g + 1) } after := ⟨rfl, h.others⟩
  have hcounted := hmoved.onRestore fun x => { x with inFlight := x.inFlight + 1 }
  show grantSlot d = _
  simp only [grantSlot, freeSlot_only hj hfull, h.chosen hr ho, passEligible_none hp, Bool.false_eq_true, if_false]
  simp only [Device.grantRestore, hf, hc, htaken, h.onRestore, Nat.add_zero]
  dsimp only at hcounted
  rw [hcounted]
  rfl

/-- R92: the image of a READING slot lies in a preserve slot, and its read is requested. -/
theorem startRead_slot {z : CopySlot} {ar : Area} {n v : Nat} (hz : d.slot? j = some z)
    (hi : d.resolve z.volume z.snapshot z.grain = .slot n v) (ha : d.area = some ar) (hl : d.pool.link = .up) :
    perform (.startRead j) d = ((d.setSlot j (some { z with image := .slot n v })).joinPool
      { requester := .slot j, op := .read (ar.base + 8 * n) 8 }, []) := by
  have haddr : d.slotAddr n = ar.base + 8 * n := by simp only [Device.slotAddr, ha]
  have hup : ¬ d.pool.link = .down := by rw [hl]; decide
  show startRead j d = _
  simp only [startRead, hz, hi, haddr, Device.requestRead]
  exact if_neg hup

/-- With the last FREE slot given away no grant is made. -/
theorem grant_quiet_slotGiven {f : Extent} {g n v : Nat} (hfull : ∀ l, l ≠ j → d.slot? l ≠ none) (q : PoolRequest) :
    perform .grant ((d.slotGiven j before r after f g n v).joinPool q) =
      ((d.slotGiven j before r after f g n v).joinPool q, []) :=
  have hgiven (l : SlotId) : (d.slotGiven j before r after f g n v).slot? l ≠ none :=
    slots_taken_setSlot (d := d) hfull (r.slotRecord f g n v) l
  grant_full (slots_taken_joinPool hgiven q)

/-- R117, R118: the one FREE slot is given to the only eligible restore and its read is requested. -/
theorem Device.HoldsRestore.runs_grant {f : Extent} {ar : Area} {g n v : Nat} (h : d.HoldsRestore before r after)
    (hj : d.slot? j = none) (hfull : ∀ l, l ≠ j → d.slot? l ≠ none) (hr : r.eligible = true)
    (ho : ∀ q ∈ before ++ after, q.eligible = false) (hp : d.dup.pass = none) (hf : r.currentExtent = some f)
    (hpos : 0 < f.count) (hc : r.cursor = some g) (hi : d.resolve r.source r.snapshot g = .slot n v) (ha : d.area = some ar)
    (hl : d.pool.link = .up) :
    Runs 3 [.grant] d ((d.slotGiven j before r after f g n v).joinPool
      { requester := .slot j, op := .read (ar.base + 8 * n) 8 }) := by
  let given : Device := d.slotGiven j before r after f g n v
  let u : Device := given.joinPool { requester := .slot j, op := .read (ar.base + 8 * n) 8 }
  have hslot : given.slot? j = some (r.slotRecord f g n v) :=
    slot_setSlot_same (d := d) (some (r.slotRecord f g n v))
  have hsame : given.setSlot j (some (r.slotRecord f g n v)) = given :=
    congrArg (fun w => ({ given with copy.slots := w } : Device)) (Vector.set_set ..)
  have hstart : perform (.startRead j) given = (u, []) := by
    have hread := startRead_slot (d := given) (ar := ar) hslot hi ha hl
    exact hread.trans (congrArg (fun e : Device => (e.joinPool _, ([] : List Task))) hsame)
  exact Runs.task (h.perform_grant hj hfull hr ho hp hf hpos hc hi)
    ((Runs.one hstart).cons (Runs.one (grant_quiet_slotGiven hfull _)))

/-- R122, R128: the extent ends and the next one starts; its first grain lies in a preserve slot and is given slot j, the
one that is FREE. -/
theorem Device.HoldsRestore.runs_nextExtent {i n v : Nat} {e f : Extent} {ar : Area} (h : d.HoldsRestore before r after)
    (hst : r.state = .running) (hca : r.cancel = false) (hc : r.current = some i) (hf : r.inFlight = 0) (hs : r.Stopped)
    (he : r.extents[i]? = some e) (hnext : r.extents[i + 1]? = some f) (hpos : 0 < f.count)
    (hlen : r.outcomes.length = r.extents.length) (hi : d.resolve r.source r.snapshot f.source = .slot n v)
    (ho : ∀ q ∈ before ++ after, q.eligible = false) (hp : d.dup.pass = none) (hj : d.slot? j = none)
    (hfull : ∀ l, l ≠ j → d.slot? l ≠ none) (ha : d.area = some ar) (hl : d.pool.link = .up) :
    Runs 5 [.extentCheck r.id, .grant] d (((d.extentTold e r.id i r.finalOutcome).slotGiven j before
        (Restore.enterExtent { r with outcomes := r.outcomes.set i r.finalOutcome } (i + 1)) after f f.source n v).joinPool
      { requester := .slot j, op := .read (ar.base + 8 * n) 8 }) := by
  let ended : Restore := { r with outcomes := r.outcomes.set i r.finalOutcome }
  let entered : Restore := ended.enterExtent (i + 1)
  let told : Device := { d.extentTold e r.id i r.finalOutcome with copy.restores := before ++ ended :: after }
  let u : Device := { d.extentTold e r.id i r.finalOutcome with copy.restores := before ++ entered :: after }
  have hlt : i + 1 < r.extents.length := (List.getElem?_eq_some_iff.1 hnext).1
  have hcheck : perform (.extentCheck r.id) d = (u, [.grant]) := by
    have htold : told.HoldsRestore before ended after := ⟨rfl, h.others⟩
    have hon : told.onRestore r.id (fun x => x.enterExtent (i + 1)) = u := htold.onRestore fun x => x.enterExtent (i + 1)
    rw [h.extentCheck_over hc (hs.extentOver hst hf hc) hca, if_pos hlt, h.extentEnded he, hon]
  have hcursor : entered.cursor = some f.source := by
    simp only [entered, ended, Restore.enterExtent, hnext, Option.map_some]
  have hextent : entered.currentExtent = some f := hnext
  have houtcome : entered.currentOutcome = some .running := by
    simp [entered, ended, Restore.enterExtent, Restore.currentOutcome, hlen, hlt]
  have heligible : entered.eligible = true := by
    have hgrains : entered.hasGrains = true := by simp [Restore.hasGrains, hextent, hcursor, hpos]
    simp only [Restore.eligible, show entered.state = .running from hst, show entered.cancel = false from hca, hgrains,
      houtcome]
    rfl
  have hu : u.HoldsRestore before entered after := ⟨rfl, h.others⟩
  have hgiven : u.slotGiven j before entered after f f.source n v
      = (d.extentTold e r.id i r.finalOutcome).slotGiven j before entered after f f.source n v := rfl
  have hgrant := hu.runs_grant hj hfull heligible ho hp hextent hpos hcursor hi ha hl
  have hquiet := grant_quiet_slotGiven (d := u) (before := before) (r := entered) (after := after) (f := f)
    (g := f.source) (n := n) (v := v) hfull { requester := .slot j, op := .read (ar.base + 8 * n) 8 }
  have hall := (Runs.task hcheck hgrant).cons (Runs.one hquiet)
  rw [hgiven] at hall
  exact hall

end

/-! #### POOL DONE for a copy slot -/

section
variable {s : State} {k : PoolTagId} {j : SlotId} {m : Nat} {z : CopySlot} (hl : s.dev.resetLow = false)
  (hk : s.dev.pool.tags[k] = .busy (.slot j) m) (hz : s.dev.slot? j = some z) (h1 : s.dev.pool.preserveQ = [])
  (h2 : s.dev.pool.pathQ = []) (h3 : s.dev.pool.copyQ = [])
include hl hk hz h1 h2 h3

/-- The end of a copy read is what its stream does with it. -/
theorem exec_copyRead {b : Nat} {st : PoolStatus} {data : List Byte} {d u : Device} (hp : z.phase = .reading)
    (hd : (s.dev.setTag k .free).ReadLeft z d) (hr : Runs b [.readOutcome j (doneStatus st) data] d u) (hb : b ≤ 90) :
    exec (.poolDone k st data) s = .next { s with dev := u } :=
  exec_poolDone hl hk h1 h2 h3 (hd.runs hz hp hr) (by omega)

/-- R127: the end of a restore write of extent i is what its restore does with the extent. -/
theorem exec_copyWrite {b : Job} {c i n : Nat} {w : Volume} {r : Restore} {before after : List Restore} {st : PoolStatus}
    {u : Device} (h : s.dev.HoldsRestore before r after) (hs : z.stream = .restore r.id) (hp : z.phase = .writing b none)
    (hc : b.charge = some c) (hw : b.waits = []) (hv : s.dev.volume? b.volume = some w) (hcut : w.cut = none)
    (hrm : w.state ≠ .removing) (hx : r.Extending i)
    (hr : Runs n [.extentCheck r.id, .grant] { (s.dev.setTag k .free).copyWritten j b c w (doneStatus st) with
      copy.restores := before ++ r.counted i st :: after } u) (hn : n ≤ 90) (data : List Byte) :
    exec (.poolDone k st data) s = .next { s with dev := u } := by
  have hheld : (s.dev.setTag k .free).HoldsRestore before r after := ⟨h.list, h.others⟩
  have hst : doneStatus st ≠ .retry := by cases st <;> decide
  rw [← hx.copyEnded st] at hr
  exact exec_poolDone hl hk h1 h2 h3 (hheld.runs_writeEnd hz hs hp hc hw hv hcut hrm hst hr data) (by omega)

end

/-! #### What the settled charge is (R28, R29) -/

section
variable {d : Device} {j : SlotId} {b : Job} {w : Volume}

/-- A write that charges nothing leaves accounts, groups and clock alone. -/
theorem copyWritten_uncharged (st : Status) : d.copyWritten j b 0 w st = { d with
    volumes := d.volumes.insert b.volume { w with inFlight := w.inFlight - 1 }
    copy.slots := d.copy.slots.set j.val none j.isLt } := by
  have he : d.settleCharge b.account 0 (decide (st = .ok)) = d := if_pos rfl
  rw [Device.copyWritten, he]

theorem copyWritten_settled {c : Nat} (hc : 0 < c) (st : PoolStatus) :
    d.Settled (d.copyWritten j b c w (doneStatus st)) b.account c
      (if st = .ok then min ((d.account b.account).usage + c) 4294967295 else (d.account b.account).usage) := by
  have hsettled := (settleCharge_spec d hc (decide (doneStatus st = .ok)) (n := b.account)).2
  cases st <;> exact hsettled.congr rfl rfl rfl rfl rfl rfl

end

/-! #### The records that the ends leave -/

section
variable {r : Restore} {i : Nat}

theorem counted_failed {st : PoolStatus} (hst : st ≠ .ok) : r.counted i st =
    { r with inFlight := r.inFlight - 1, outcomes := r.outcomes.set i (.failed .mediaError) } := by
  simp only [Restore.counted, copyOutcome, if_neg hst, Nat.add_zero]

theorem counted_finished (hf : r.inFlight = 1) (st : PoolStatus) (os : List ExtentOutcome) :
    (r.counted i st).finished os = { r with
      state := .ended, current := none, cursor := none, inFlight := 0, copied := r.copied + if st = .ok then 1 else 0
      outcomes := os, outcome := some (restoreOutcome os), reason := none } := by
  simp only [Restore.finished, Restore.counted, hf]

/-- The record as the next extent's first grain, g, is given a slot. -/
theorem counted_entered (hf : r.inFlight = 1) (st : PoolStatus) (os : List ExtentOutcome) (g : Nat) :
    let x := Restore.enterExtent { r.counted i st with outcomes := os } (i + 1)
    { x with cursor := some (g + 1), inFlight := x.inFlight + 1 } = { r with
      current := some (i + 1), cursor := some (g + 1), inFlight := 1, copied := r.copied + if st = .ok then 1 else 0
      outcomes := os.set (i + 1) .running } := by
  simp only [Restore.enterExtent, Restore.counted, hf]

theorem counted_outcomes_length (r : Restore) (i : Nat) (st : PoolStatus) :
    (r.counted i st).outcomes.length = r.outcomes.length := by
  by_cases hst : st = .ok
  · simp only [Restore.counted, if_pos hst]
  · simp only [Restore.counted, if_neg hst, List.length_set]

end

/-- Settles O60: a read's end leaves its registration and goes to its stream (`exec_copyRead`); a write's end goes to its
restore (`exec_copyWrite`), whose extent goes on, ends the restore, or gives way to the next one. -/
theorem copyReadsEnd : Obligations.CopyReadsEnd := by
  refine ⟨?_, ?_⟩
  · intro s k j m z hl hk hz hp h1 h2 h3 freed withSlot d hd
    have hleft : (s.dev.setTag k .free).ReadLeft z d := hd
    obtain ⟨pres, rfl⟩ : ∃ p, d = { freed with pres := p } := ⟨d.pres, hleft.frame⟩
    let d : Device := { freed with pres := pres }
    have hexec {b : Nat} {st : PoolStatus} {data : List Byte} {u : Device}
        (hr : Runs b [.readOutcome j (doneStatus st) data] d u) (hb : b ≤ 90) :
        exec (.poolDone k st data) s = .next { s with dev := u } := exec_copyRead hl hk hz h1 h2 h3 hp hleft hr hb
    refine ⟨fun pl hpl hs hph => ?_, fun hs hno hr st data => ?_, fun hs hr hpass st data => ?_, ?_⟩
    · obtain ⟨place, hplace⟩ : ∃ q, d.placeOf j = some q :=
        Option.isSome_iff_exists.1 (List.find?_isSome.2 ⟨pl, hpl, by simpa using hph⟩)
      refine ⟨fun data => hexec (Runs.one (readOutcome_staged (d := d) hz hs hplace data)) (by omega), ?_⟩
      intro q x st data hq hx hst ha
      have hfail : doneStatus st ≠ .ok := by rw [doneStatus_failed hst]; decide
      exact hexec (runs_readOutcome_passFailed (d := d) hz hs hplace hfail hq hx ha data) (by omega)
    · have hplace : d.placeOf j = none := List.find?_eq_none.2 fun q hq => by simpa using (hno q hq).1
      have hgrant : perform .grant (d.setSlot j none) = (d.setSlot j none, []) :=
        grant_quiet (.inr ⟨hr, fun q hq => (hno q hq).2⟩)
      exact hexec (runs_readOutcome_freed (d := d) hz (.inr ⟨hs, hplace⟩) hgrant _ data) (by omega)
    · have hgrant : perform .grant (d.setSlot j none) = (d.setSlot j none, []) :=
        grant_none (fun q hq => Restore.not_eligible (hr q hq)) (passEligible_none hpass)
      exact hexec (runs_readOutcome_freed (d := d) hz (.inl hs) hgrant _ data) (by omega)
    · rintro _ before r after hs hrs rfl hb ha
      have hheld : d.HoldsRestore before r after := ⟨hrs, fun q hq => (List.mem_append.1 hq).elim (hb q) (ha q)⟩
      refine ⟨fun x data hx hc hlen => ?_, fun st data i hst hrun hca hcur hout hfl hpass hothers => ?_⟩
      · exact hexec (hheld.runs_makeWrite_held hz hs hx hc hlen data) (by omega)
      · have hext : r.Extending i := ⟨hca, hcur, hout⟩
        have hrec : r.counted i st = { r with
            inFlight := r.inFlight - 1, outcomes := r.outcomes.set i (.failed .mediaError) } := counted_failed hst
        have hruns := hheld.runs_readFailed hz hs hext hst hfl hothers hpass data
        rw [hrec] at hruns
        exact hexec hruns (by omega)
  · intro s k j m c i id z b w r before after e st data hl hk hz hs hp hc hw hv hcut hrm h1 h2 h3 hrs hid ho hrun hca hcur
      he hout hpass hgrains a u freed o copied
    subst hid
    let d : Device := (s.dev.setTag k .free).copyWritten j b c w (doneStatus st)
    have hheld : s.dev.HoldsRestore before r after := ⟨hrs, fun q hq => (ho q hq).1⟩
    have hext : r.Extending i := ⟨hca, hcur, hout⟩
    have hstopped : (r.counted i st).Stopped := hext.counted_stopped he hgrains
    have hothers : ∀ q ∈ before ++ after, q.state ≠ .running := fun q hq => by rw [(ho q hq).2]; decide
    let counted : Device := { d with copy.restores := before ++ r.counted i st :: after }
    have hcounted : counted.HoldsRestore before (r.counted i st) after := ⟨rfl, hheld.others⟩
    have hexec {n : Nat} {v : Device} (hr : Runs n [.extentCheck r.id, .grant] counted v) (hn : n ≤ 90) :
        exec (.poolDone k st data) s = .next { s with dev := v } :=
      exec_copyWrite hl hk hz h1 h2 h3 hheld hs hp hc hw hv hcut hrm hext hr hn data
    refine ⟨d, rfl, ?_, fun hpos => ?_, fun hfl => ?_, fun hfl => ?_⟩
    · rintro rfl
      exact copyWritten_uncharged (doneStatus st)
    · exact (copyWritten_settled (d := s.dev.setTag k .free) hpos st).congr rfl rfl rfl rfl rfl rfl
    · have hne : (r.counted i st).inFlight ≠ 0 := by show r.inFlight - 1 ≠ 0; omega
      exact hexec (hcounted.runs_extent_goesOn hcur hne hstopped hothers hpass) (by omega)
    · have hzero : (r.counted i st).inFlight = 0 := by show r.inFlight - 1 = 0; omega
      have hfin : (r.counted i st).finalOutcome = o := hext.counted_finalOutcome st
      have hset : (r.counted i st).outcomes.set i o = r.outcomes.set i o := counted_outcomes_set r i st
      intro told
      have htold : told = d.extentTold e r.id i o := (extentTold_eq ..).symm
      constructor
      · intro x hlen hx os out
        have hruns := hcounted.runs_lastExtent hrun hca hcur hzero hstopped he hlen hx (fun q hq => (ho q hq).2) hpass
        rw [hfin, hset, Device.restoreFinished, counted_finished hfl] at hruns
        rw [htold]
        exact hexec hruns (by omega)
      · intro f ar n v hf hpos hlen har hi hfull hup
        have hlength : (r.counted i st).outcomes.length = r.extents.length := (counted_outcomes_length r i st).trans hlen
        have hj : counted.slot? j = none := slot_setSlot_same (d := s.dev) none
        have hothersfull : ∀ l, l ≠ j → counted.slot? l ≠ none := fun l hlj =>
          (slot_setSlot_ne (d := s.dev) hlj none).symm ▸ hfull l hlj
        have hruns := hcounted.runs_nextExtent hrun hca hcur hzero hstopped he hf hpos hlength hi
          (fun q hq => Restore.not_eligible (hothers q hq)) hpass hj hothersfull har hup
        rw [hfin, hset, Device.slotGiven, counted_entered hfl, Restore.slotRecord, Nat.sub_self,
          show (counted.extentTold e (r.counted i st).id i o).copy.slots = s.dev.copy.slots.set j.val none j.isLt from rfl,
          Vector.set_set] at hruns
        rw [htold]
        exact hexec hruns (by omega)

end Sys2Proof.Machine
end

section
/-! ### Cuts: their acceptance, their completion and their abandonment (R99 to R106) -/

namespace Sys2Proof.Machine

/-- R101: no write of volume v is held. -/
def Device.Unheld (d : Device) (v : Nat) : Prop := ∀ w ∈ d.cutHold, ∀ j, d.job? w = some j → j.volume ≠ v

/-- R99: no pass waits for a cut of volume v to end. -/
def Device.Untold (d : Device) (v : Nat) : Prop := ∀ q, d.dup.pass = some q → q.volume ≠ v ∨ q.state ≠ .cutting

/-- R103: the snapshot record of a cut that completes at epoch n. -/
def CutRecord.snapshot (c : CutRecord) (n : Nat) : Snapshot :=
  { number := n, kind := c.kind, cutTime := c.acceptedAt, state := .active
    pins := if c.kind = .duplication then 1 else 0, answers := none }

/-- R98: the volume in the cut c. -/
def Volume.inCut (x : Volume) (c : CutRecord) : Volume := { x with cut := some c }

/-- R105: the volume whose cut is no more. -/
def Volume.uncut (x : Volume) : Volume := { x with cut := none }

/-- R103: the volume whose cut c has completed. -/
def Volume.cutBy (x : Volume) (c : CutRecord) : Volume :=
  { x with snapshots := x.snapshots ++ [c.snapshot x.epoch], epoch := x.epoch + 1, cut := none }

/-- R104: the volume after the retention that follows a completed cut c. -/
def Volume.retained (x : Volume) (c : CutRecord) : Volume :=
  if c.kind = .scheduled then Volume.retain x.snapshots.length x else x

/-- R103: the part with CUT_DONE of number n handed over and volume v at x. -/
def Device.cutMade (d : Device) (v n : Nat) (x : Volume) : Device :=
  (d.noted .cutDone (.volume v) (.number n)).setVolume v x

/-- R105, R106: the part with CUT_FAILED of value DRAIN handed over and volume v at x. -/
def Device.cutLost (d : Device) (v : Nat) (x : Volume) : Device :=
  (d.noted .cutFailed (.volume v) (.name .drain)).setVolume v x

/-- R141: the pass whose cut has completed with snapshot n. -/
def Pass.cutAt (q : Pass) (n : Nat) : Pass := { q with snapshot := some n, state := .sweeping }

/-! #### Retention (R104) -/

theorem filter_looseScheduled (l : List Snapshot) :
    (l.filter fun n => n.state = .active ∧ n.pins = 0 ∧ n.kind = .scheduled) = l.filter Snapshot.looseScheduled :=
  List.filter_congr fun n _ => by rw [Bool.eq_iff_iff, decide_eq_true_iff, looseScheduled_iff]

theorem Volume.retained_keeps {x : Volume} {c : CutRecord}
    (h : c.kind ≠ .scheduled ∨ (x.snapshots.filter Snapshot.looseScheduled).length ≤ x.retention) : x.retained c = x := by
  by_cases hk : c.kind = .scheduled
  · exact (if_pos hk).trans (retain_all (h.resolve_left (absurd hk)) _)
  · exact if_neg hk

/-- R104: with one loose SCHEDULED snapshot too many, the oldest starts retiring. -/
theorem Volume.retained_retires {x : Volume} {c : CutRecord} {before after : List Snapshot} {a : Snapshot}
    (hk : c.kind = .scheduled) (hs : x.snapshots = before ++ a :: after)
    (hbefore : ∀ n ∈ before, n.looseScheduled = false) (ha : a.looseScheduled = true)
    (hn : ∀ n ∈ before ++ after, n.number ≠ a.number)
    (hlen : (x.snapshots.filter Snapshot.looseScheduled).length = x.retention + 1) :
    x.retained c = x.retires before a after := by
  have hnone : before.filter Snapshot.looseScheduled = [] :=
    List.filter_eq_nil_iff.2 fun n hm => Bool.eq_false_iff.1 (hbefore n hm)
  have hloose : x.snapshots.filter Snapshot.looseScheduled = a :: after.filter Snapshot.looseScheduled := by
    rw [hs, List.filter_append, hnone, List.filter_cons_of_pos ha, List.nil_append]
  have hrest : (after.filter Snapshot.looseScheduled).length = x.retention := by
    rw [hloose, List.length_cons] at hlen
    omega
  have hleft : ((x.retires before a after).snapshots.filter Snapshot.looseScheduled).length
      ≤ (x.retires before a after).retention := by
    have hretiring : ({ a with state := .retiring, answers := none } : Snapshot).looseScheduled = false := rfl
    show ((before ++ { a with state := .retiring, answers := none } :: after).filter _).length ≤ x.retention
    rw [List.filter_append, hnone, List.filter_cons_of_neg (by rw [hretiring]; decide), List.nil_append, hrest]
  obtain ⟨m, hm⟩ : ∃ m, x.snapshots.length = m + 1 := ⟨before.length + after.length, by
    rw [hs, List.length_append, List.length_cons]
    omega⟩
  rw [Volume.retained, if_pos hk, hm, Volume.retain]
  simp only [hloose]
  rw [if_pos (by omega), Volume.startRetirement_eq hs hn, retain_all hleft]

/-! #### Acceptance (R99, R100) -/

section
variable {x : Volume}

theorem Volume.cutRefusal_busy (h : x.state = .preparing ∨ x.cut ≠ none) : x.cutRefusal = some .busy :=
  if_pos (h.imp_right Option.isSome_iff_ne_none.2)

variable (hs : x.state = .ready) (hc : x.cut = none)
include hs hc

theorem Volume.cutRefusal_exhausted (he : x.epoch = 16777215) : x.cutRefusal = some .exhausted := by
  rw [Volume.cutRefusal, if_neg (by simp [hs, hc, Volume.cutting]), if_pos he]

variable (he : x.epoch ≠ 16777215)
include he

/-- What follows R99's fourth check. -/
theorem Volume.cutRefusal_ready : x.cutRefusal =
    if x.snapshots.length ≥ 16 ∧ x.hasRetiring = false ∧ x.snapshots.any Snapshot.looseScheduled = false then some .full
    else none := by
  rw [Volume.cutRefusal, if_neg (by simp [hs, hc, Volume.cutting]), if_neg he]

theorem Volume.cutRefusal_full (hl : x.snapshots.length ≥ 16)
    (h : ∀ n ∈ x.snapshots, n.state = .active ∧ n.looseScheduled = false) : x.cutRefusal = some .full := by
  rw [Volume.cutRefusal_ready hs hc he]
  exact if_pos ⟨hl, x.hasRetiring_iff.2 fun n hn => (h n hn).1, List.any_eq_false.2 fun n hn => by simp [(h n hn).2]⟩

theorem Volume.cutRefusal_passes (h : x.snapshots.length < 16 ∨ (∃ n ∈ x.snapshots, n.state = .retiring)
    ∨ ∃ k, x.snapshots.find? Snapshot.looseScheduled = some k) : x.cutRefusal = none := by
  rw [Volume.cutRefusal_ready hs hc he]
  refine if_neg fun ⟨hlen, hret, hany⟩ => ?_
  rcases h with h | ⟨n, hn, hr⟩ | ⟨k, hk⟩
  · omega
  · rw [x.hasRetiring_iff.1 hret n hn] at hr
    cases hr
  · exact List.any_eq_false.1 hany k (List.mem_of_find?_eq_some hk) (List.find?_some hk)

end

/-- R100: the record of an accepted cut; drain is in tenths of a second. -/
def Device.cutGiven (d : Device) (kind : CutKind) (r : CutRequester) (drain : Nat) (room : Room) : CutRecord :=
  { kind := kind, requester := r, acceptedAt := d.clock.stamp, drainEnds := d.clock.now + 100 * drain, room := room }

theorem askCut_passes {d : Device} {v : Nat} {x y : Volume} {room : Room} (hv : d.volume? v = some x)
    (hr : x.cutRefusal = none) (hm : x.makeRoom = (y, room)) (kind : CutKind) (r : CutRequester) (drain : Nat) :
    d.askCut v kind r drain
      = .inr (d.setVolume v (y.inCut (d.cutGiven kind r drain room)), [.volumeCheck v]) := by
  simp only [Device.askCut, hv, hr, Device.acceptCut, onVolume_eq hv, hm]
  rfl

theorem askCut_refused {d : Device} {v : Nat} {x : Volume} {why : CutRefusal} (hv : d.volume? v = some x)
    (hr : x.cutRefusal = some why) (kind : CutKind) (r : CutRequester) (drain : Nat) :
    d.askCut v kind r drain = .inl why := by
  simp only [Device.askCut, hv, hr]

/-! #### Held writes (R101) -/

section
variable {d : Device} {v : Nat}

theorem writeVolume_ne {w : WriteId} (h : ∀ j, d.job? w = some j → j.volume ≠ v) : d.writeVolume w ≠ some v := by
  intro hw
  obtain ⟨j, hj, hjv⟩ := Option.map_eq_some_iff.1 hw
  exact h j hj hjv

theorem Device.Unheld.heldOf (h : d.Unheld v) : d.heldOf v = [] :=
  List.filter_eq_nil_iff.2 fun w hw => by simpa using writeVolume_ne (h w hw)

theorem Device.Unheld.releaseHeld (h : d.Unheld v) : d.releaseHeld v = d := by
  rw [Device.releaseHeld, List.filter_eq_self.2 fun w hw => decide_eq_true (writeVolume_ne (h w hw))]

/-- The answer of a transaction brings no write to the cut-hold queue. -/
theorem Device.Unheld.answered (h : d.Unheld v) (p : PortId) (tag : Nat) (t : Txn) (st : MgmtStatus)
    (why : Option MgmtReason) (result : List Item) : (d.answered p tag t st why result).Unheld v := by
  intro w hw j hj
  refine h w hw j ?_
  cases w with
  | slot k => exact hj
  | server q g =>
    have htxn : (d.answered p tag t st why result).txn? q g = if txnKey q g = txnKey p tag then none else d.txn? q g :=
      Table.find_erase ..
    by_cases hk : txnKey q g = txnKey p tag
    · simp only [Device.job?, htxn, hk, if_true, reduceCtorEq] at hj
    · simpa only [Device.job?, htxn, hk, if_false] using hj

/-! #### Completion and abandonment (R103, R105) -/

variable {x : Volume} {c : CutRecord}

theorem volumeCheck_waits (hv : d.volume? v = some x) (hc : x.cut = some c) (h : x.inFlight > 0 ∨ c.room = .waiting) :
    perform (.volumeCheck v) d = (d, []) := by
  show volumeCheck v d = _
  rw [volumeCheck, hv]
  dsimp only
  rw [hc]
  refine if_neg fun ⟨hf, hr⟩ => ?_
  rcases h with h | h
  · omega
  · rw [h] at hr
    cases hr

/-- R103: with nothing in flight and room, the cut completes. -/
theorem volumeCheck_cut (hv : d.volume? v = some x) (hc : x.cut = some c) (hf : x.inFlight = 0) (hr : c.room = .have) :
    perform (.volumeCheck v) d = d.completeCut v x c := by
  show volumeCheck v d = _
  rw [volumeCheck, hv]
  dsimp only
  rw [hc]
  exact if_pos ⟨hf, hr⟩

theorem completeCut_unheld (h : d.Unheld v) :
    d.completeCut v x c = (d.setVolume v (x.cutBy c), [.cutDone v c x.epoch 0]) := by
  rw [Device.completeCut, h.heldOf, h.releaseHeld]
  rfl

theorem abandonCut_unheld (h : d.Unheld v) :
    d.abandonCut v x c = ((d.reach c.drainEnds).setVolume v x.uncut, [.cutDrained v c]) := by
  have h' : (d.reach c.drainEnds).Unheld v := h
  rw [Device.abandonCut, h.heldOf, h'.releaseHeld]
  rfl

/-- R103 steps 5 and 6: the notice and the retention. -/
theorem finishCut_made (d : Device) (v n : Nat) (x : Volume) (c : CutRecord) :
    (if c.kind = .scheduled then
        ((d.setVolume v x).notify .cutDone (.volume v) (.number n)).onVolume v fun x => Volume.retain x.snapshots.length x
      else (d.setVolume v x).notify .cutDone (.volume v) (.number n)) = d.cutMade v n (x.retained c) := by
  rw [notify_eq, Device.cutMade, Volume.retained]
  split
  · exact (onVolume_eq (volume_setVolume (d.noted .cutDone (.volume v) (.number n)) v x) _).trans (setVolume_setVolume ..)
  · rfl

theorem cutDone_schedule (hr : c.requester = .schedule) (n m : Nat) :
    perform (.cutDone v c n m) (d.setVolume v x) = (d.cutMade v n (x.retained c), [.tellPass v]) := by
  show finishCut v c n m _ = _
  rw [finishCut]
  simp only [finishCut_made, hr]

theorem cutDone_command {p : PortId} {tag : Nat} {t : Txn} (hr : c.requester = .command { port := p, tag := tag })
    (ht : d.txn? p tag = some t) (n m : Nat) : perform (.cutDone v c n m) (d.setVolume v x) =
      ((d.answered p tag t .ok none [.num 4 n, .num 4 (n + 1), .num 2 m]).cutMade v n (x.retained c), [.tellPass v]) := by
  have ht' : (d.cutMade v n (x.retained c)).txn? p tag = some t := ht
  show finishCut v c n m _ = _
  rw [finishCut]
  simp only [finishCut_made, hr, Device.answer, reply_eq _ ht']
  rfl

/-- R141: the pass hears of its own cut's completion. -/
theorem cutDone_pass {q : Pass} (hr : c.requester = .pass) (hq : d.dup.pass = some q) (n m : Nat) :
    perform (.cutDone v c n m) (d.setVolume v x) =
      ({ d.cutMade v n (x.retained c) with dup.pass := some (q.cutAt n) },
        if q.stopRequested then [.passEnd .stopped (some .stop)] else []) := by
  have hq' : (d.cutMade v n (x.retained c)).dup.pass = some q := hq
  show finishCut v c n m _ = _
  rw [finishCut]
  simp only [finishCut_made, hr, passCutCompleted, hq', Device.onPass, Option.map_some]
  rfl

/-- R105: the notice of an abandoned cut. -/
theorem finishDrained_lost (d : Device) (v : Nat) (x : Volume) :
    (d.setVolume v x).notify .cutFailed (.volume v) (.name .drain) = d.cutLost v x := notify_eq ..

theorem cutDrained_schedule (hr : c.requester = .schedule) :
    perform (.cutDrained v c) (d.setVolume v x) = (d.cutLost v x, [.tellPass v]) := by
  show finishDrained v c _ = _
  simp only [finishDrained, finishDrained_lost, hr]

theorem cutDrained_command {p : PortId} {tag : Nat} {t : Txn} (hr : c.requester = .command { port := p, tag := tag })
    (ht : d.txn? p tag = some t) : perform (.cutDrained v c) (d.setVolume v x) =
      ((d.answered p tag t .aborted (some .drain) []).cutLost v x, [.tellPass v]) := by
  have ht' : (d.cutLost v x).txn? p tag = some t := ht
  show finishDrained v c _ = _
  simp only [finishDrained, finishDrained_lost, hr, Device.answer, reply_eq _ ht']
  rfl

/-- R141, R155: the pass hears that its own cut was abandoned. -/
theorem cutDrained_pass {q : Pass} (hr : c.requester = .pass) (hq : d.dup.pass = some q) :
    perform (.cutDrained v c) (d.setVolume v x) = (d.cutLost v x,
      [if q.stopRequested then .passEnd .stopped (some .stop) else .passEnd .failed (some .cut)]) := by
  have hq' : (d.cutLost v x).dup.pass = some q := hq
  show finishDrained v c _ = _
  simp only [finishDrained, finishDrained_lost, hr, passCutAbandoned, hq']

end

end Sys2Proof.Machine
end

section
/-! ### CUT (O34) -/

namespace Sys2Proof.Machine

/-! #### The checks (R99) -/

/-- R99 check 1: an argument of CUT out of range. -/
def cutBad (v drain : Nat) : Prop := v = 0 ∨ v > 64 ∨ drain > 255

section
variable {d : Device} {v drain : Nat}

theorem cutArgsRefusal_bad (hb : cutBad v drain) : d.cutArgsRefusal v drain = some .badArgument :=
  if_pos (by rw [badVolume_iff, or_assoc]; exact hb)

variable (hb : ¬ cutBad v drain)
include hb

/-- What follows R99's first check. -/
theorem cutArgsRefusal_good : d.cutArgsRefusal v drain =
    match d.volume? v with
    | none => some .notFound
    | some x => if x.state = .removing then some .notFound else none :=
  if_neg (by rw [badVolume_iff, or_assoc]; exact hb)

theorem cutArgsRefusal_undefined (hv : d.volume? v = none) : d.cutArgsRefusal v drain = some .notFound := by
  rw [cutArgsRefusal_good hb, hv]

variable {x : Volume} (hv : d.volume? v = some x)
include hv

theorem cutArgsRefusal_removing (hs : x.state = .removing) : d.cutArgsRefusal v drain = some .notFound := by
  rw [cutArgsRefusal_good hb, hv]
  exact if_pos hs

theorem cutArgsRefusal_passes (hs : x.state ≠ .removing) : d.cutArgsRefusal v drain = none := by
  rw [cutArgsRefusal_good hb, hv]
  exact if_neg hs

end

/-! #### The room of an accepted cut (R100) -/

section
variable {x : Volume}

theorem Volume.makeRoom_have (h : x.snapshots.length < 16) : x.makeRoom = (x, .have) := if_pos h

theorem Volume.makeRoom_retiring (hl : x.snapshots.length ≥ 16) (h : ∃ n ∈ x.snapshots, n.state = .retiring) :
    x.makeRoom = (x, .waiting) := by
  have hret : x.hasRetiring = true := by simpa [Volume.hasRetiring] using h
  rw [Volume.makeRoom, if_neg (Nat.not_lt.2 hl), if_pos hret]

/-- R100: in a full list with nothing RETIRING, the oldest loose SCHEDULED snapshot starts retiring. -/
theorem Volume.makeRoom_retires {k : Snapshot} (hl : x.snapshots.length ≥ 16) (h : ∀ n ∈ x.snapshots, n.state = .active)
    (hk : x.snapshots.find? Snapshot.looseScheduled = some k) : x.makeRoom = (x.startRetirement k.number none, .waiting) := by
  rw [Volume.makeRoom, if_neg (Nat.not_lt.2 hl), if_neg (by rw [x.hasRetiring_iff.2 h]; decide), hk]

end

/-! #### The command -/

/-- R98, R99: the record of the cut that a CUT asks for. -/
def Device.cutCommanded (d : Device) (p : PortId) (tag drain : Nat) (room : Room) : CutRecord :=
  d.cutGiven .manual (.command { port := p, tag := tag }) (if drain = 0 then 20 else drain) room

section
variable {s : State} {p : PortId} {tag : Nat} {t : Txn} {v drain : Nat}
variable (h : s.Issued p tag .cut t [.num v, .num drain])
include h

theorem exec_cut_argsRefused {st : MgmtStatus} (hr : s.dev.cutArgsRefusal v drain = some st) :
    exec (.cut p tag) s = .next { s with dev := s.dev.answered p tag t st none [] } := by
  have hr : (s.dev.taken p tag t).cutArgsRefusal v drain = some st := hr
  simp only [exec, execCut, event_high _ h.high, takeThen_issued h, Device.cutCommand, hr, Device.denyEffect,
    settle_nil, deny_taken]

variable (ha : s.dev.cutArgsRefusal v drain = none) {x : Volume} (hv : s.dev.volume? v = some x)
include ha hv

theorem exec_cut_refused {why : CutRefusal} (hr : x.cutRefusal = some why) :
    exec (.cut p tag) s = .next { s with dev := s.dev.answered p tag t why.status none [] } := by
  have ha : (s.dev.taken p tag t).cutArgsRefusal v drain = none := ha
  have hv : (s.dev.taken p tag t).volume? v = some x := hv
  simp only [exec, execCut, event_high _ h.high, takeThen_issued h, Device.cutCommand, ha, askCut_refused hv hr,
    Device.denyEffect, settle_nil, deny_taken]

/-- An accepted CUT: its volume is CUTTING, and its completion is looked at. -/
theorem exec_cut_accepted {y : Volume} {room : Room} {f : Device} {b : Nat} (hr : x.cutRefusal = none)
    (hm : x.makeRoom = (y, room))
    (hruns : Runs b [.volumeCheck v]
      ((s.dev.taken p tag t).setVolume v (y.inCut (s.dev.cutCommanded p tag drain room))) f)
    (hb : b ≤ 4294967296) : exec (.cut p tag) s = .next { s with dev := f } := by
  have ha : (s.dev.taken p tag t).cutArgsRefusal v drain = none := ha
  have hv : (s.dev.taken p tag t).volume? v = some x := hv
  simp only [exec, execCut, event_high _ h.high, takeThen_issued h, Device.cutCommand, ha, askCut_passes hv hr hm]
  exact congrArg (fun e => Host.Outcome.next { s with dev := e }) (hruns.settle hb)

/-- R100: an accepted CUT whose cut cannot complete yet: a write is in flight, or its room is awaited. -/
theorem exec_cut_waits {y : Volume} {room : Room} (hr : x.cutRefusal = none) (hm : x.makeRoom = (y, room))
    (hw : y.inFlight > 0 ∨ room = .waiting) :
    exec (.cut p tag) s = .next { s with
      dev := (s.dev.taken p tag t).setVolume v (y.inCut (s.dev.cutCommanded p tag drain room)) } :=
  exec_cut_accepted h ha hv hr hm (Runs.one (volumeCheck_waits (volume_setVolume _ v _) rfl hw)) (by decide)

end

/-- R103: the volume whose CUT has completed at its acceptance. -/
theorem runs_cut_completes {d : Device} {p : PortId} {tag : Nat} {t : Txn} {v drain : Nat} {x : Volume}
    (ht : d.txn? p tag = some t) (hf : x.inFlight = 0) (hh : d.Unheld v) (hp : d.Untold v) :
    let c := d.cutCommanded p tag drain .have
    Runs 3 [.volumeCheck v] ((d.taken p tag t).setVolume v (x.inCut c))
      ((d.answered p tag t .ok none [.num 4 x.epoch, .num 4 (x.epoch + 1), .num 2 0]).cutMade v x.epoch (x.cutBy c)) := by
  intro c
  let e : Device := (d.taken p tag t).setVolume v (x.inCut c)
  have hheld : e.Unheld v := fun w hw j hj => hh w hw j ((job_taken ht w).symm.trans hj)
  have hcheck : perform (.volumeCheck v) e = ((d.taken p tag t).setVolume v (x.cutBy c), [.cutDone v c x.epoch 0]) := by
    rw [volumeCheck_cut (d := e) (volume_setVolume _ v (x.inCut c)) rfl hf rfl, completeCut_unheld hheld]
    exact congrArg (·, _) (setVolume_setVolume _ v (x.inCut c) _)
  have hdone := cutDone_command (d := d.taken p tag t) (v := v) (x := x.cutBy c) (c := c) rfl (txn_taken d p tag t) x.epoch 0
  rw [answered_taken, Volume.retained_keeps (.inl (show CutKind.manual ≠ .scheduled by decide))] at hdone
  exact Runs.task hcheck (Runs.task hdone (Runs.one (tellPass_quiet hp)))

/-- Settles O34: the checks in their order, then the cut by its room and by what is in flight. -/
theorem cutStarts : Obligations.CutStarts := by
  intro s p tag t v drain h Refused bad stamp
  refine ⟨fun hb => exec_cut_argsRefused h (cutArgsRefusal_bad hb),
    fun hb hv => exec_cut_argsRefused h (cutArgsRefusal_undefined hb hv), fun x hb hv => ?_⟩
  intro loose full record
  have hargs (hs : x.state ≠ .removing) : s.dev.cutArgsRefusal v drain = none := cutArgsRefusal_passes hb hv hs
  have hready (hs : x.state = .ready) : s.dev.cutArgsRefusal v drain = none := hargs (by rw [hs]; decide)
  refine ⟨fun hs => exec_cut_argsRefused h (cutArgsRefusal_removing hb hv hs), fun hbusy => ?_, fun hs hc he => ?_,
    fun hs hc he hfull => ?_, fun hs hc he hlen hf => ?_, fun hs hc he hlen hret => ?_, fun hs hc he hlen hact k hk => ?_,
    fun hs hc he hlen hf hheld htold => ?_⟩
  · have hs : x.state ≠ .removing := by rcases hbusy with hs | ⟨hs, -⟩ <;> rw [hs] <;> decide
    exact exec_cut_refused h (hargs hs) hv (Volume.cutRefusal_busy (hbusy.imp_right And.right))
  · exact exec_cut_refused h (hready hs) hv (Volume.cutRefusal_exhausted hs hc he)
  · have hloose : ∀ n ∈ x.snapshots, n.state = .active ∧ n.looseScheduled = false := fun n hn =>
      ⟨(hfull.2 n hn).1, Bool.eq_false_iff.2 fun hl => (hfull.2 n hn).2 ((looseScheduled_iff n).1 hl)⟩
    exact exec_cut_refused h (hready hs) hv (Volume.cutRefusal_full hs hc he hfull.1 hloose)
  · exact exec_cut_waits h (hready hs) hv (Volume.cutRefusal_passes hs hc he (.inl hlen)) (Volume.makeRoom_have hlen) (.inl hf)
  · exact exec_cut_waits h (hready hs) hv (Volume.cutRefusal_passes hs hc he (.inr (.inl hret)))
      (Volume.makeRoom_retiring hlen hret) (.inr rfl)
  · exact exec_cut_waits h (hready hs) hv (Volume.cutRefusal_passes hs hc he (.inr (.inr ⟨k, hk⟩)))
      (Volume.makeRoom_retires hlen hact hk) (.inr rfl)
  · have hexec := exec_cut_accepted h (hready hs) hv (Volume.cutRefusal_passes hs hc he (.inl hlen))
      (Volume.makeRoom_have hlen) (runs_cut_completes h.txn hf hheld htold) (by decide)
    rw [Volume.cutBy, ← hc] at hexec
    exact hexec

end Sys2Proof.Machine
end

section
/-! ### RETIRE (O35) -/

namespace Sys2Proof.Machine

section
variable {d : Device} {v k : Nat}

theorem retireRefusal_bad (hb : v = 0 ∨ v > 64) : d.retireRefusal v k = some .badArgument :=
  if_pos ((badVolume_iff v).2 hb)

variable (h1 : 1 ≤ v) (h64 : v ≤ 64)
include h1 h64

theorem retireRefusal_undefined (hv : d.volume? v = none) : d.retireRefusal v k = some .notFound := by
  simp only [Device.retireRefusal, badVolume_false h1 h64, Bool.false_eq_true, if_false, hv]

variable {x : Volume} (hv : d.volume? v = some x)
include hv

theorem retireRefusal_notReady (hs : x.state ≠ .ready) : d.retireRefusal v k = some .notFound := by
  simp only [Device.retireRefusal, badVolume_false h1 h64, Bool.false_eq_true, if_false, hv, if_pos hs]

variable (hs : x.state = .ready)
include hs

theorem retireRefusal_unlisted (hk : ∀ n ∈ x.snapshots, n.number ≠ k) : d.retireRefusal v k = some .notFound := by
  have hfind : x.snapshots.find? (fun n => n.number = k) = none := List.find?_eq_none.2 fun n hn => by simpa using hk n hn
  simp only [Device.retireRefusal, badVolume_false h1 h64, Bool.false_eq_true, if_false, hv, hs, ne_eq, not_true_eq_false,
    hfind]

variable {n : Snapshot} (hn : x.snapshots.find? (fun n => n.number = k) = some n)
include hn

/-- What R107's last two checks come to for the snapshot that RETIRE names. -/
theorem retireRefusal_listed : d.retireRefusal v k =
    if n.state = .retiring then some .busy else if n.pins > 0 then some .conflict else none := by
  simp only [Device.retireRefusal, badVolume_false h1 h64, Bool.false_eq_true, if_false, hv, hs, ne_eq, not_true_eq_false,
    hn]

theorem retireRefusal_retiring (hr : n.state = .retiring) : d.retireRefusal v k = some .busy := by
  rw [retireRefusal_listed h1 h64 hv hs hn, if_pos hr]

theorem retireRefusal_pinned (ha : n.state = .active) (hp : n.pins > 0) : d.retireRefusal v k = some .conflict := by
  rw [retireRefusal_listed h1 h64 hv hs hn, if_neg (by rw [ha]; decide), if_pos hp]

theorem retireRefusal_passes (ha : n.state = .active) (hp : n.pins = 0) : d.retireRefusal v k = none := by
  rw [retireRefusal_listed h1 h64 hv hs hn, if_neg (by rw [ha]; decide), if_neg (by omega)]

end

/-- A snapshot of a list whose numbers rise is found by its number. -/
theorem find_snapshot {l : List Snapshot} (hl : (l.map Snapshot.number).Pairwise (· < ·)) {n : Snapshot} (hn : n ∈ l) :
    l.find? (fun m => m.number = n.number) = some n := by
  induction l with
  | nil => cases hn
  | cons m l ih =>
    obtain ⟨hlt, hl⟩ := List.pairwise_cons.1 hl
    rcases List.mem_cons.1 hn with rfl | hn
    · exact List.find?_cons_of_pos (decide_eq_true rfl)
    · have hne : m.number ≠ n.number := Nat.ne_of_lt (hlt _ (List.mem_map_of_mem hn))
      rw [List.find?_cons_of_neg (by simpa using hne), ih hl hn]

/-- R108: a retirement that starts joins the end of the sweep order, and with no other its sweep begins. -/
theorem Volume.startRetirement_record (x : Volume) (k : Nat) (txn : Option TxnRef) : x.startRetirement k txn = { x with
    snapshots := x.snapshots.map fun m => if m.number = k then { m with state := .retiring, answers := txn } else m
    sweeps := x.sweeps ++ [k]
    sweepAt := if x.sweeps = [] then none else x.sweepAt
    sweepFreed := if x.sweeps = [] then 0 else x.sweepFreed } := by
  unfold Volume.startRetirement
  by_cases h : x.sweeps = []
  · simp only [h, if_true]
  · simp only [h, if_false]

section
variable {s : State} {p : PortId} {tag : Nat} {t : Txn} {v k : Nat} (h : s.Issued p tag .retire t [.num v, .num k])
include h

theorem exec_retire_refused {st : MgmtStatus} (hr : s.dev.retireRefusal v k = some st) :
    exec (.retire p tag) s = .next { s with dev := s.dev.answered p tag t st none [] } := by
  have hr : (s.dev.taken p tag t).retireRefusal v k = some st := hr
  simp only [exec, execRetire, event_high _ h.high, takeNow_issued h, Device.retireCommand, hr, deny_taken]

theorem exec_retire_accepted {x : Volume} (hv : s.dev.volume? v = some x) (hr : s.dev.retireRefusal v k = none) :
    exec (.retire p tag) s = .next { s with
      dev := (s.dev.taken p tag t).setVolume v (x.startRetirement k (some { port := p, tag := tag })) } := by
  have hr : (s.dev.taken p tag t).retireRefusal v k = none := hr
  have hv : (s.dev.taken p tag t).volume? v = some x := hv
  simp only [exec, execRetire, event_high _ h.high, takeNow_issued h, Device.retireCommand, hr, Device.startRetirement,
    onVolume_eq hv]

end

/-- Settles O35: the checks in their order, then the record that the start of a retirement leaves. -/
theorem retireStarts : Obligations.RetireStarts := by
  intro s p tag t v k h Refused
  refine ⟨fun hb => exec_retire_refused h (retireRefusal_bad hb),
    fun h1 h64 hv => exec_retire_refused h (retireRefusal_undefined h1 h64 hv), fun x h1 h64 hv =>
    ⟨fun hs => exec_retire_refused h (retireRefusal_notReady h1 h64 hv hs),
      fun hs hk => exec_retire_refused h (retireRefusal_unlisted h1 h64 hv hs hk), fun n hs hnum hn hk => ?_⟩⟩
  subst hk
  have hfind := find_snapshot hnum hn
  refine ⟨fun hr => exec_retire_refused h (retireRefusal_retiring h1 h64 hv hs hfind hr),
    fun ha hp => exec_retire_refused h (retireRefusal_pinned h1 h64 hv hs hfind ha hp), fun ha hp => ?_⟩
  rw [exec_retire_accepted h hv (retireRefusal_passes h1 h64 hv hs hfind ha hp), Volume.startRetirement_record]
  rfl

end Sys2Proof.Machine
end

section
/-! ### Held writes that are released (R66, R68, R79, R101, R103, R105) -/

namespace Sys2Proof.Machine

/-- R66: the record of a WRITE that is admitted without charge at epoch n and waits on no entry. -/
def Txn.stamped (t : Txn) (stage : Stage) (n : Nat) : Txn :=
  { t with job := { t.job with stage := stage, charge := some 0, epoch := some n, waits := [] } }

/-- R66, R68: the volume with one more write in flight, its grain g at the current epoch. -/
def Volume.written (x : Volume) (g : Nat) : Volume :=
  { x with inFlight := x.inFlight + 1, grains := Table.put x.fill x.grains g x.epoch }

/-- R8, R66: a WRITE of volume x is admitted without charge, and its request waits at the tail of class PATH. -/
def Device.writeQueued (d : Device) (p : PortId) (tag : Nat) (t : Txn) (x : Volume) : Device := { d with
  txns := d.txns.insert (txnKey p tag) (t.stamped .queued x.epoch)
  pool.pathQ := d.pool.pathQ ++
    [{ requester := .server p tag, op := .write (x.base + t.job.first) t.job.blocks t.job.payload }] }

section
variable {d : Device} {p : PortId} {tag : Nat} {t : Txn} {x : Volume}

/-- R23: a write within one grain touches that grain. -/
theorem Job.touched_one {j : Job} (hb : j.first % 8 + j.blocks ≤ 8) : j.touched = [j.first / 8] := by
  have hcount : touchedCount j.first j.blocks = 1 := by
    simp only [touchedCount]
    omega
  rw [Job.touched, hcount]
  rfl

theorem stampWrite_free (ht : d.txn? p tag = some t) :
    (d.setVolume t.job.volume x).stampWrite (.server p tag) t.job 0 =
      (d.setTxn p tag (t.stamped .admitting x.epoch)).setVolume t.job.volume { x with inFlight := x.inFlight + 1 } := by
  have ht' : (d.setVolume t.job.volume x).txn? p tag = some t := ht
  unfold Device.stampWrite
  simp only [volume_setVolume, onJob_server ht']
  exact (onVolume_eq (volume_setVolume (d.setTxn p tag (t.stamped .admitting x.epoch)) _ x) _).trans (setVolume_setVolume ..)

/-- R22, R66: a WRITE that charges nothing is admitted. -/
theorem admission_uncharged (ht : d.txn? p tag = some t) (hk : t.kind = .write) (hd : t.job.declared = 0)
    (hn : ∀ g ∈ t.job.touched, x.needs g = false) (hlen : d.pres.table.length ≤ 256) :
    perform (.admission (.server p tag)) (d.setVolume t.job.volume x) =
      ((d.setTxn p tag (t.stamped .admitting x.epoch)).setVolume t.job.volume { x with inFlight := x.inFlight + 1 },
        [.walk (.server p tag) t.job.touched]) := by
  have hcharge : t.job.chargeOf = 0 := by rw [Job.chargeOf, hd, Nat.zero_min]
  have hnew : ((d.setTxn p tag (t.stamped .admitting x.epoch)).setVolume t.job.volume
      { x with inFlight := x.inFlight + 1 }).newEntries t.job = [] :=
    newEntries_nil fun g hg => by
      rw [Device.needs, volume_setVolume]
      exact hn g hg
  show admitWrite (.server p tag) _ = _
  unfold admitWrite
  simp only [job_server (d := d.setVolume t.job.volume x) ht hk, hcharge, admission_free, stampWrite_free ht, hnew,
    List.length_nil, Nat.zero_add]
  exact if_neg (Nat.not_lt.2 hlen)

/-- R8, R11: an admitted WRITE that waits on no entry and finds no pool tag joins the tail of class PATH. -/
theorem handOn_waits {n : Nat} (ht : d.txn? p tag = some (t.stamped .admitting n)) (hk : t.kind = .write)
    (hv : d.volume? t.job.volume = some x) (hl : d.pool.link = .up) (hq : d.pool.preserveQ = [])
    (hf : ∀ k : PoolTagId, k.val < 60 → d.pool.tags[k] ≠ .free) (hn : x.epoch = n) :
    perform (.handOn (.server p tag)) d = (d.writeQueued p tag t x, []) := by
  subst hn
  let e : Device := d.setTxn p tag (t.stamped .queued x.epoch)
  have hop : e.jobOp (t.stamped .admitting x.epoch).job false = .write (x.base + t.job.first) t.job.blocks t.job.payload := by
    have hv' : e.volume? (t.stamped .admitting x.epoch).job.volume = some x := hv
    simp only [Device.jobOp, hv']
    rfl
  show handOnWrite (.server p tag) d = _
  simp only [handOnWrite, job_server ht hk]
  rw [if_pos ⟨Option.some_ne_none 0, rfl, rfl⟩, if_neg (by rw [hl]; decide), onJob_server ht]
  have hjoin := joinPool_wait e p tag (e.jobOp (t.stamped .admitting x.epoch).job false) (.inl hq)
    fun k hk => hf k (by omega)
  exact (congrArg (·, []) hjoin).trans (by rw [hop]; rfl)

/-- R23, R24, R78, R12: an open WRITE that charges nothing, lies within one grain with no pending entry, and finds no
pool tag. -/
structure Device.FreeWrite (d : Device) (p : PortId) (tag : Nat) (t : Txn) : Prop where
  txn : d.txn? p tag = some t
  kind : t.kind = .write
  declared : t.job.declared = 0
  grain : t.job.first % 8 + t.job.blocks ≤ 8
  entry : d.entry? t.job.volume (t.job.first / 8) = none
  table : d.pres.table.length ≤ 256
  link : d.pool.link = .up
  preserveQ : d.pool.preserveQ = []
  tags : ∀ k : PoolTagId, k.val < 60 → d.pool.tags[k] ≠ .free

theorem Device.FreeWrite.congr {e : Device} (h : d.FreeWrite p tag t) (ht : e.txns = d.txns) (hr : e.pres = d.pres)
    (hq : e.pool = d.pool) : e.FreeWrite p tag t where
  txn := (congrArg (Table.find · _) ht).trans h.txn
  kind := h.kind
  declared := h.declared
  grain := h.grain
  entry := (congrArg (fun q : Preservation => q.table.find _) hr).trans h.entry
  table := hr ▸ h.table
  link := hq ▸ h.link
  preserveQ := hq ▸ h.preserveQ
  tags := hq ▸ h.tags

/-- The transaction of a command stands when a WRITE's record changes. -/
theorem Device.FreeWrite.txn_writeQueued {e : Device} {q : PortId} {tag' : Nat} {u : Txn} (h : d.FreeWrite p tag t)
    (hu : d.txn? q tag' = some u) (hk : u.kind = .mgmt) (he : e.txns = d.txns) (y : Volume) :
    (e.writeQueued p tag t y).txn? q tag' = some u := by
  have hne : txnKey q tag' ≠ txnKey p tag := fun hkey => by
    have hut : d.txn? q tag' = d.txn? p tag := congrArg d.txns.find hkey
    rw [hu, h.txn, Option.some.injEq] at hut
    rw [hut, h.kind] at hk
    cases hk
  exact (Table.find_insert_other e.txns _ hne).trans (he ▸ hu)

/-- R22, R66, R79: such a WRITE, its grain in need of no preservation, is admitted and waits for a pool tag. -/
theorem Device.FreeWrite.runs_admission (h : d.FreeWrite p tag t) (hn : x.needs (t.job.first / 8) = false) :
    Runs 4 [.admission (.server p tag)] (d.setVolume t.job.volume x)
      ((d.writeQueued p tag t x).setVolume t.job.volume (x.written (t.job.first / 8))) := by
  obtain ⟨ht, hk, hd, hb, he, hlen, hl, hq, hf⟩ := h
  let stamped : Device := d.setTxn p tag (t.stamped .admitting x.epoch)
  have htouched := Job.touched_one hb
  have hadmit := admission_uncharged (x := x) ht hk hd (by simpa [htouched] using hn) hlen
  rw [htouched] at hadmit
  have hst : stamped.txn? p tag = some (t.stamped .admitting x.epoch) := txn_setTxn d p tag _
  have hhand := handOn_waits (d := stamped.setVolume t.job.volume (x.written (t.job.first / 8))) (n := x.epoch) hst hk
    (volume_setVolume ..) hl hq hf rfl
  have hdone : (stamped.setVolume t.job.volume (x.written (t.job.first / 8))).writeQueued p tag t (x.written (t.job.first / 8))
      = (d.writeQueued p tag t x).setVolume t.job.volume (x.written (t.job.first / 8)) := by
    simp only [Device.writeQueued, Device.setVolume, stamped, Device.setTxn, Table.insert_insert]
    rfl
  rw [hdone] at hhand
  exact Runs.task hadmit (walk_runs (d := stamped) (c := 0) [t.job.first / 8] { x with inFlight := x.inFlight + 1 }
    (job_server hst hk) rfl rfl (by simpa using ⟨hn, he⟩) (Runs.one hhand))

end

/-! #### The one held write of a volume -/

/-- R101: w alone, between before and after in the cut-hold queue, is a held write of volume v. -/
structure Device.HoldsOne (d : Device) (v : Nat) (before : List WriteId) (w : WriteId) (after : List WriteId) : Prop where
  queue : d.cutHold = before ++ w :: after
  own : d.writeVolume w = some v
  others : ∀ u ∈ before ++ after, ∀ j, d.job? u = some j → j.volume ≠ v

section
variable {d : Device} {v : Nat} {before after : List WriteId} {w : WriteId}

theorem Device.HoldsOne.heldOf (h : d.HoldsOne v before w after) : d.heldOf v = [w] := by
  have hnone (l : List WriteId) (hl : ∀ u ∈ l, u ∈ before ++ after) : l.filter (fun u => d.writeVolume u = some v) = [] :=
    List.filter_eq_nil_iff.2 fun u hu => by simpa using writeVolume_ne (h.others u (hl u hu))
  rw [Device.heldOf, h.queue, List.filter_append, List.filter_cons_of_pos (by simp [h.own]),
    hnone before fun u => List.mem_append_left _, hnone after fun u => List.mem_append_right _]
  rfl

theorem Device.HoldsOne.releaseHeld (h : d.HoldsOne v before w after) :
    d.releaseHeld v = { d with cutHold := before ++ after } := by
  have hall (l : List WriteId) (hl : ∀ u ∈ l, u ∈ before ++ after) : l.filter (fun u => d.writeVolume u ≠ some v) = l :=
    List.filter_eq_self.2 fun u hu => decide_eq_true (writeVolume_ne (h.others u (hl u hu)))
  rw [Device.releaseHeld, h.queue, List.filter_append, List.filter_cons_of_neg (by simp [h.own]),
    hall before fun u => List.mem_append_left _, hall after fun u => List.mem_append_right _]

theorem Device.HoldsOne.completeCut (h : d.HoldsOne v before w after) (x : Volume) (c : CutRecord) :
    d.completeCut v x c = ({ d with cutHold := before ++ after }.setVolume v (x.cutBy c),
      [.admission w, .cutDone v c x.epoch 1]) := by
  rw [Device.completeCut, h.heldOf, h.releaseHeld]
  rfl

theorem Device.HoldsOne.abandonCut (h : d.HoldsOne v before w after) (x : Volume) (c : CutRecord) :
    d.abandonCut v x c = ({ d.reach c.drainEnds with cutHold := before ++ after }.setVolume v x.uncut,
      [.admission w, .cutDrained v c]) := by
  have h' : (d.reach c.drainEnds).HoldsOne v before w after := ⟨h.queue, h.own, h.others⟩
  rw [Device.abandonCut, h.heldOf, h'.releaseHeld]
  rfl

end

end Sys2Proof.Machine
end

section
/-! ### The ends of cuts (O46) -/

namespace Sys2Proof.Machine

/-! #### The pass that waited for the cut to end (R99, R141) -/

section
variable {d f : Device} {v : Nat} {y : Volume} {q : Pass}

theorem tellPass_asks (hq : d.dup.pass = some q) (hqv : q.volume = v) (hqs : q.state = .cutting)
    (hc : d.cutting v = false) : perform (.tellPass v) d = (d, [.passCut]) := by
  show tellPass v d = _
  rw [tellPass, hq]
  exact if_pos ⟨hqv, hqs, hc⟩

/-- R141: the pass asks again, and its cut is accepted. -/
theorem runs_passAsks {b : Nat} (hq : d.dup.pass = some q) (hqv : q.volume = v) (hqs : q.state = .cutting)
    (hy : y.Cuttable)
    (hruns : Runs b [.volumeCheck v] ((d.setVolume v y).cutAccepted d.clock.stamp v y .duplication .pass) f) :
    Runs (b + 2) [.tellPass v] (d.setVolume v y) f := by
  subst hqv
  have hv : (d.setVolume q.volume y).volume? q.volume = some y := volume_setVolume ..
  have hc : (d.setVolume q.volume y).cutting q.volume = false := by
    rw [Device.cutting, hv]
    exact Option.isSome_eq_false_iff.2 (Option.isNone_iff_eq_none.2 hy.cut)
  exact Runs.task (tellPass_asks hq rfl hqs hc) (Runs.task (passCut_accepted rfl hq hqs hv hy) hruns)

theorem cutAccepted_setVolume (d : Device) (time : Option CalTime) (v : Nat) (y : Volume) (kind : CutKind)
    (r : CutRequester) :
    (d.setVolume v y).cutAccepted time v y kind r = d.setVolume v (y.inCut (d.cutRecord time kind r)) :=
  setVolume_setVolume ..

/-- R141, R103: with nothing in flight and no held write, the cut that the pass asks for completes at once. -/
theorem runs_passAsks_completes (hq : d.dup.pass = some q) (hqv : q.volume = v) (hqs : q.state = .cutting)
    (hstop : q.stopRequested = false) (hy : y.Cuttable) (hf : y.inFlight = 0) (hh : d.Unheld v) :
    Runs 4 [.tellPass v] (d.setVolume v y)
      { d.cutMade v y.epoch (y.cutBy (d.cutRecord d.clock.stamp .duplication .pass)) with
        dup.pass := some (q.cutAt y.epoch) } := by
  let c := d.cutRecord d.clock.stamp .duplication .pass
  have hcheck : perform (.volumeCheck v) (d.setVolume v (y.inCut c)) =
      (d.setVolume v (y.cutBy c), [.cutDone v c y.epoch 0]) := by
    have hheld : (d.setVolume v (y.inCut c)).Unheld v := fun w hw j hj => hh w hw j (by rw [← hj]; cases w <;> rfl)
    rw [volumeCheck_cut (volume_setVolume d v (y.inCut c)) rfl hf rfl, completeCut_unheld hheld]
    exact congrArg (·, _) (setVolume_setVolume ..)
  have hdone := cutDone_pass (d := d) (v := v) (x := y.cutBy c) (c := c) rfl hq y.epoch 0
  rw [Volume.retained_keeps (.inl (show CutKind.duplication ≠ .scheduled by decide)), hstop] at hdone
  refine runs_passAsks hq hqv hqs hy ?_
  rw [cutAccepted_setVolume]
  exact Runs.task hcheck (Runs.one hdone)

/-- R141: with a write in flight, the cut that the pass asks for drains. -/
theorem runs_passAsks_drains (hq : d.dup.pass = some q) (hqv : q.volume = v) (hqs : q.state = .cutting)
    (hy : y.Cuttable) (hf : y.inFlight > 0) :
    Runs 3 [.tellPass v] (d.setVolume v y) (d.setVolume v (y.inCut (d.cutRecord d.clock.stamp .duplication .pass))) := by
  rw [← cutAccepted_setVolume]
  exact runs_passAsks hq hqv hqs hy (runs_volumeCheck_drains _ hf _ _)

end

/-! #### The two events -/

section
variable {s : State} {v : Nat} (hl : s.dev.resetLow = false)
include hl

theorem exec_cutCompletion_uncut (hn : ∀ x, s.dev.volume? v = some x → x.cut = none) :
    exec (.cutCompletion v) s = .next s := by
  have hc : s.dev.cutting v = false := by
    unfold Device.cutting
    cases hv : s.dev.volume? v with
    | none => rfl
    | some x => simp [Volume.cutting, hn x hv]
  simp only [exec, execCutCompletion, event_high _ hl, hc, Bool.false_eq_true, if_false]

theorem exec_drainTimeout_uncut (hn : ∀ x, s.dev.volume? v = some x → x.cut = none) :
    exec (.drainTimeout v) s = .next s := by
  have hd : s.dev.drainTimeout v = (s.dev, []) := by
    unfold Device.drainTimeout
    cases hv : s.dev.volume? v with
    | none => rfl
    | some x => simp only [hn x hv]
  simp only [exec, execDrainTimeout, event_high _ hl, hd, settle_nil]

variable {x : Volume} {c : CutRecord} (hv : s.dev.volume? v = some x) (hc : x.cut = some c)
include hv hc

theorem exec_cutCompletion {f : Device} {b : Nat} (hruns : Runs b [.volumeCheck v] s.dev f) (hb : b ≤ 4294967296) :
    exec (.cutCompletion v) s = .next { s with dev := f } := by
  have hcut : s.dev.cutting v = true := by simp [Device.cutting, hv, Volume.cutting, hc]
  simp only [exec, execCutCompletion, event_high _ hl, hcut, if_true, hruns.settle hb]

theorem exec_drainTimeout {e f : Device} {ts : List Task} {b : Nat} (he : s.dev.abandonCut v x c = (e, ts))
    (hruns : Runs b ts e f) (hb : b ≤ 4294967296) : exec (.drainTimeout v) s = .next { s with dev := f } := by
  have hd : s.dev.drainTimeout v = (e, ts) := by simp only [Device.drainTimeout, hv, hc, he]
  simp only [exec, execDrainTimeout, event_high _ hl, hd, hruns.settle hb]

/-! #### Completion with no held write (R103, R104, R99) -/

section
variable (hf : x.inFlight = 0) (hr : c.room = .have) (hh : s.dev.Unheld v)
include hf hr hh

/-- R103: a cut of a volume with no held write stands complete. -/
theorem exec_completes {f : Device} {b : Nat}
    (hruns : Runs b [.cutDone v c x.epoch 0] (s.dev.setVolume v (x.cutBy c)) f) (hb : b ≤ 100) :
    exec (.cutCompletion v) s = .next { s with dev := f } :=
  exec_cutCompletion hl hv hc
    (Runs.task ((volumeCheck_cut hv hc hf hr).trans (completeCut_unheld hh)) hruns) (by omega)

/-- No pass waits for the end of the cut. -/
theorem exec_completes_untold {d : Device} (hp : d.Untold v)
    (hdone : perform (.cutDone v c x.epoch 0) (s.dev.setVolume v (x.cutBy c)) = (d, [.tellPass v])) :
    exec (.cutCompletion v) s = .next { s with dev := d } :=
  exec_completes hl hv hc hf hr hh (Runs.task hdone (Runs.one (tellPass_quiet hp))) (by decide)

/-- R99, R141: the pass that waited for the end of the cut asks again, and its own cut completes. -/
theorem exec_completes_again {d : Device} {y : Volume} {q : Pass} (hq : d.dup.pass = some q) (hqv : q.volume = v)
    (hqs : q.state = .cutting) (hstop : q.stopRequested = false) (hy : y.Cuttable) (hyf : y.inFlight = 0)
    (hd : d.Unheld v)
    (hdone : perform (.cutDone v c x.epoch 0) (s.dev.setVolume v (x.cutBy c)) = (d.setVolume v y, [.tellPass v])) :
    exec (.cutCompletion v) s = .next { s with
      dev := { d.cutMade v y.epoch (y.cutBy (d.cutRecord d.clock.stamp .duplication .pass)) with
        dup.pass := some (q.cutAt y.epoch) } } :=
  exec_completes hl hv hc hf hr hh (Runs.task hdone (runs_passAsks_completes hq hqv hqs hstop hy hyf hd)) (by decide)

/-- R141: a pass that was not told to stop takes the snapshot of its cut. -/
theorem exec_completes_pass {q : Pass} (hreq : c.requester = .pass) (hq : s.dev.dup.pass = some q)
    (hk : (x.cutBy c).retained c = x.cutBy c) (hstop : q.stopRequested = false) :
    exec (.cutCompletion v) s = .next { s with
      dev := { s.dev.cutMade v x.epoch (x.cutBy c) with dup.pass := some (q.cutAt x.epoch) } } := by
  have hdone := cutDone_pass (v := v) (x := x.cutBy c) hreq hq x.epoch 0
  rw [hk, hstop] at hdone
  exact exec_completes hl hv hc hf hr hh (Runs.one hdone) (by decide)

/-- R141, R155: a pass that was told to stop ends when its cut completes. -/
theorem exec_completes_stopped {q : Pass} (hreq : c.requester = .pass) (hq : s.dev.dup.pass = some q)
    (hk : (x.cutBy c).retained c = x.cutBy c) (hstop : q.stopRequested = true) (hqv : q.volume = v) (ha : s.dev.PassAlone) :
    let told : Device := { s.dev.cutMade v x.epoch (x.cutBy c) with dup.pass := some (q.cutAt x.epoch) }
    exec (.cutCompletion v) s = .next { s with
      dev := (told.passClosed (q.cutAt x.epoch) (x.cutBy c) .stopped (some .stop)).noted .passFailed (.volume v)
        (.name .stop) } := by
  subst hqv
  intro told
  have hdone := cutDone_pass (v := q.volume) (x := x.cutBy c) hreq hq x.epoch 0
  rw [hk, hstop] at hdone
  have hend := runs_passEnd_alone (d := told) (q := q.cutAt x.epoch) (x := x.cutBy c) (o := .stopped) (why := .stop) rfl
    (volume_setVolume ..) ⟨ha.slots, ha.restores, ha.queue, ha.transmitter⟩ (by decide)
  exact exec_completes hl hv hc hf hr hh (Runs.task hdone hend) (by decide)

end

/-! #### Abandonment with no held write (R105, R99) -/

section
variable (hh : s.dev.Unheld v)
include hh

/-- R105: the drain timer of a volume with no held write expires. -/
theorem exec_drains {f : Device} {b : Nat}
    (hruns : Runs b [.cutDrained v c] ((s.dev.reach c.drainEnds).setVolume v x.uncut) f) (hb : b ≤ 100) :
    exec (.drainTimeout v) s = .next { s with dev := f } :=
  exec_drainTimeout hl hv hc (abandonCut_unheld hh) hruns (by omega)

/-- No pass waits for the end of the cut. -/
theorem exec_drains_untold {d : Device} (hp : d.Untold v)
    (hlost : perform (.cutDrained v c) ((s.dev.reach c.drainEnds).setVolume v x.uncut) = (d, [.tellPass v])) :
    exec (.drainTimeout v) s = .next { s with dev := d } :=
  exec_drains hl hv hc hh (Runs.task hlost (Runs.one (tellPass_quiet hp))) (by decide)

/-- R99, R141: the pass that waited for the end of the cut asks again, and its own cut drains. -/
theorem exec_drains_again {d : Device} {y : Volume} {q : Pass} (hq : d.dup.pass = some q) (hqv : q.volume = v)
    (hqs : q.state = .cutting) (hy : y.Cuttable) (hyf : y.inFlight > 0)
    (hlost : perform (.cutDrained v c) ((s.dev.reach c.drainEnds).setVolume v x.uncut)
      = (d.setVolume v y, [.tellPass v])) :
    exec (.drainTimeout v) s = .next { s with
      dev := d.setVolume v (y.inCut (d.cutRecord d.clock.stamp .duplication .pass)) } :=
  exec_drains hl hv hc hh (Runs.task hlost (runs_passAsks_drains hq hqv hqs hy hyf)) (by decide)

/-- R141, R155: a pass whose own cut was abandoned ends, FAILED for CUT or STOPPED as it was told. -/
theorem exec_drains_pass {q : Pass} {o : PassOutcome} {why : PassReason} (hreq : c.requester = .pass)
    (hq : s.dev.dup.pass = some q) (hqv : q.volume = v) (ha : s.dev.PassAlone)
    (hend : (if q.stopRequested then Task.passEnd .stopped (some .stop) else .passEnd .failed (some .cut))
      = .passEnd o (some why)) (ho : o ≠ .done) :
    let left : Device := (s.dev.reach c.drainEnds).cutLost v x.uncut
    exec (.drainTimeout v) s = .next { s with
      dev := (left.passClosed q x.uncut o (some why)).noted .passFailed (.volume v) (.name why.name) } := by
  subst hqv
  intro left
  have hlost := cutDrained_pass (d := s.dev.reach c.drainEnds) (v := q.volume) (x := x.uncut) hreq hq
  rw [hend] at hlost
  exact exec_drains hl hv hc hh (Runs.task hlost (runs_passEnd_alone (d := left) hq (volume_setVolume ..)
    ⟨ha.slots, ha.restores, ha.queue, ha.transmitter⟩ ho)) (by decide)

end

/-! #### The release of the one held write (R101, R103, R105) -/

section
variable {p q : PortId} {tag tag' : Nat} {t u : Txn} {before after : List WriteId} (htv : t.job.volume = v)
  (ht : s.dev.FreeWrite p tag t) (ho : s.dev.HoldsOne v before (.server p tag) after) (hp : s.dev.Untold v)
  (hreq : c.requester = .command { port := q, tag := tag' }) (hu : s.dev.txn? q tag' = some u) (huk : u.kind = .mgmt)
include htv ht ho hp hreq hu huk

/-- R101, R103: the held write is released under the new epoch, and the CUT is answered with one write released. -/
theorem exec_completes_held (hf : x.inFlight = 0) (hr : c.room = .have) (hk : c.kind ≠ .scheduled)
    (hn : (x.cutBy c).needs (t.job.first / 8) = false) :
    let e : Device := ({ s.dev with cutHold := before ++ after } : Device).writeQueued p tag t (x.cutBy c)
    exec (.cutCompletion v) s = .next { s with
      dev := (e.answered q tag' u .ok none [.num 4 x.epoch, .num 4 (x.epoch + 1), .num 2 1]).cutMade v x.epoch
        ((x.cutBy c).written (t.job.first / 8)) } := by
  subst htv
  intro e
  have hadmit := Device.FreeWrite.runs_admission (d := { s.dev with cutHold := before ++ after })
    (ht.congr rfl rfl rfl) hn
  have hdone := cutDone_command (d := e) (v := t.job.volume) (x := (x.cutBy c).written (t.job.first / 8)) hreq
    (ht.txn_writeQueued hu huk rfl _) x.epoch 1
  rw [Volume.retained_keeps (.inl hk)] at hdone
  exact exec_cutCompletion hl hv hc (Runs.task ((volumeCheck_cut hv hc hf hr).trans (ho.completeCut x c))
    (hadmit.cons (Runs.task hdone (Runs.one (tellPass_quiet hp))))) (by decide)

/-- R105: the held write is released under the unchanged epoch, and the CUT is answered ABORTED for DRAIN. -/
theorem exec_drains_held (hn : x.needs (t.job.first / 8) = false) :
    let z : Volume := x.uncut
    let e : Device := { s.dev.reach c.drainEnds with cutHold := before ++ after }.writeQueued p tag t z
    exec (.drainTimeout v) s = .next { s with
      dev := (e.answered q tag' u .aborted (some .drain) []).cutLost v (z.written (t.job.first / 8)) } := by
  subst htv
  intro z e
  have hadmit := Device.FreeWrite.runs_admission (d := { s.dev.reach c.drainEnds with cutHold := before ++ after }) (x := z)
    (ht.congr rfl rfl rfl) hn
  have hlost := cutDrained_command (d := e) (v := t.job.volume) (x := z.written (t.job.first / 8)) hreq
    (ht.txn_writeQueued hu huk rfl _)
  exact exec_drainTimeout hl hv hc (ho.abandonCut x c)
    (hadmit.cons (Runs.task hlost (Runs.one (tellPass_quiet hp)))) (by decide)

end

end

/-- Settles O46: the completion and the abandonment by who asked for the cut and by what waits for its end, then the held
write. -/
theorem cutsEnd : Obligations.CutsEnd := by
  intro s v hl
  refine ⟨fun hn => ⟨exec_cutCompletion_uncut hl hn, exec_drainTimeout_uncut hl hn⟩, fun x c hv hc => ?_⟩
  intro stamp unheld untold complete loose record y doneAt done leftAt left
  have hkeeps (h : c.kind ≠ .scheduled ∨ (y.snapshots.filter fun n =>
      n.state = .active ∧ n.pins = 0 ∧ n.kind = .scheduled).length ≤ x.retention) : y.retained c = y :=
    Volume.retained_keeps (by rwa [filter_looseScheduled] at h)
  have hdone {z : Volume} (hr : c.requester = .schedule) (hz : y.retained c = z) :
      perform (.cutDone v c x.epoch 0) (s.dev.setVolume v y) = (doneAt z, [.tellPass v]) :=
    hz ▸ cutDone_schedule hr x.epoch 0
  have hanswer {p : PortId} {tag : Nat} {t : Txn} (hr : c.requester = .command { port := p, tag := tag })
      (hk : c.kind ≠ .scheduled) (ht : s.dev.txn? p tag = some t) : perform (.cutDone v c x.epoch 0) (s.dev.setVolume v y)
        = (done.answered p tag t .ok none [.num 4 x.epoch, .num 4 (x.epoch + 1), .num 2 0], [.tellPass v]) := by
    rw [cutDone_command hr ht, hkeeps (.inl hk)]
    rfl
  refine ⟨fun hw => exec_cutCompletion hl hv hc (Runs.one (volumeCheck_waits hv hc hw)) (by decide),
    fun ⟨hf, hroom⟩ hh htold hr hk => exec_completes_untold hl hv hc hf hroom hh htold (hdone hr (hkeeps hk)),
    fun before a after ⟨hf, hroom⟩ hh htold hr hk hs hbefore ha hn hlen => ?_,
    fun p tag t ⟨hf, hroom⟩ hh htold hr hk ht => exec_completes_untold hl hv hc hf hroom hh htold (hanswer hr hk ht),
    fun q ⟨hf, hroom⟩ hh hr hk hq => ?_, fun q ⟨hf, hroom⟩ hh hq hqv hqs hstop hs he hlen => ?_,
    fun hh htold hr => exec_drains_untold hl hv hc hh htold (cutDrained_schedule hr),
    fun p tag t hh htold hr ht => exec_drains_untold hl hv hc hh htold (cutDrained_command hr ht),
    fun q hh hr hq hqv ha => ⟨fun hstop => exec_drains_pass hl hv hc hh hr hq hqv ha (by rw [hstop]; rfl) (by decide),
      fun hstop => exec_drains_pass hl hv hc hh hr hq hqv ha (by rw [hstop]; rfl) (by decide)⟩,
    fun q hh hq hqv hqs hs he hlen hf => ?_,
    fun p q tag tag' t u before after htold hr hu huk hqueue hothers ht hk htv hd _ hb => ?_⟩
  · rw [filter_looseScheduled] at hlen
    have hretires : y.retained c = y.retires before a after := Volume.retained_retires hk hs
      (fun n hm => Bool.eq_false_iff.2 fun h => hbefore n hm ((looseScheduled_iff n).1 h)) ((looseScheduled_iff a).2 ha)
      hn hlen
    exact exec_completes_untold hl hv hc hf hroom hh htold (hdone hr hretires)
  · have hy : y.retained c = y := hkeeps (.inl (by rw [hk]; decide))
    exact ⟨exec_completes_pass hl hv hc hf hroom hh hr hq hy, exec_completes_stopped hl hv hc hf hroom hh hr hq hy⟩
  · have hy : y.Cuttable := ⟨hs, rfl, he, hlen⟩
    refine ⟨fun hr hk => ?_, fun p tag t hr hk ht => ?_⟩
    · let d : Device := s.dev.noted .cutDone (.volume v) (.number x.epoch)
      exact exec_completes_again (d := d) (y := y) hl hv hc hf hroom hh hq hqv hqs hstop hy hf hh (hdone hr (hkeeps hk))
    · let e : Device := s.dev.answered p tag t .ok none [.num 4 x.epoch, .num 4 (x.epoch + 1), .num 2 0]
      let d : Device := e.noted .cutDone (.volume v) (.number x.epoch)
      have hd : e.Unheld v := Device.Unheld.answered hh p tag t .ok none _
      exact exec_completes_again (d := d) (y := y) hl hv hc hf hroom hh hq hqv hqs hstop hy hf hd (hanswer hr hk ht)
  · have hy : x.uncut.Cuttable := ⟨hs, rfl, he, hlen⟩
    refine ⟨fun hr => ?_, fun p tag t hr ht => ?_⟩
    · let d : Device := (s.dev.reach c.drainEnds).noted .cutFailed (.volume v) (.name .drain)
      exact exec_drains_again (d := d) (y := x.uncut) hl hv hc hh hq hqv hqs hy hf (cutDrained_schedule hr)
    · let e : Device := (s.dev.reach c.drainEnds).answered p tag t .aborted (some .drain) []
      let d : Device := e.noted .cutFailed (.volume v) (.name .drain)
      exact exec_drains_again (d := d) (y := x.uncut) hl hv hc hh hq hqv hqs hy hf (cutDrained_command hr ht)
  · intro g hentry htable hlink hpreserve htags released
    have hwrite : s.dev.FreeWrite p tag t := ⟨ht, hk, hd, hb, htv ▸ hentry, htable, hlink, hpreserve, htags⟩
    have hone : s.dev.HoldsOne v before (.server p tag) after :=
      ⟨hqueue, htv ▸ congrArg (Option.map Job.volume) (job_server ht hk), hothers⟩
    exact ⟨fun ⟨hf, hroom⟩ hkind hn => exec_completes_held hl hv hc htv hwrite hone htold hr hu huk hf hroom hkind hn,
      exec_drains_held hl hv hc htv hwrite hone htold hr hu huk⟩

end Sys2Proof.Machine
end

section
/-! ### Restore writes that are made again (O49) -/

namespace Sys2Proof.Machine

section
variable {d : Device} {k : SlotId} {z : CopySlot} {j : Job} {due : Option Nat} {x : Volume}

theorem job_slot (hz : d.slot? k = some z) (hp : z.phase = .writing j due) : d.job? (.slot k) = some j := by
  simp only [Device.job?, hz, hp]

/-- R125: the write that a slot holds goes to the write path, its retry due absent. -/
theorem makeWrite_eq (hz : d.slot? k = some z) (hp : z.phase = .writing j due) : perform (.makeWrite k) d =
    enterWritePath (.slot k) j.volume (d.setSlot k (some { z with phase := .writing j none })) := by
  show makeWrite k d = _
  simp only [makeWrite, hz, hp]

/-! #### A volume in a cut (R101, R126) -/

theorem cutting_eq_true {v : Nat} (hv : d.volume? v = some x) (hc : x.cut ≠ none) : d.cutting v = true := by
  simp only [Device.cutting, hv]
  exact Option.isSome_iff_ne_none.2 hc

/-- R101: with room in the cut-hold queue the write of a slot is held. -/
theorem makeWrite_held (hz : d.slot? k = some z) (hp : z.phase = .writing j due) (hv : d.volume? j.volume = some x)
    (hc : x.cut ≠ none) (hl : d.cutHold.length < 256) : perform (.makeWrite k) d =
      ({ d.setSlot k (some { z with phase := .writing { j with stage := .held } none }) with
        cutHold := d.cutHold ++ [.slot k] }, []) := by
  let made : Device := d.setSlot k (some { z with phase := .writing j none })
  have hhold : made.joinHold (.slot k) = some { d.setSlot k (some { z with
      phase := .writing { j with stage := .held } none }) with cutHold := d.cutHold ++ [.slot k] } := by
    have hjob := onJob_slot (d := { made with cutHold := d.cutHold ++ [.slot k] }) (slot_setSlot_same _) rfl
      fun b => { b with stage := .held }
    refine (if_pos hl).trans (congrArg some (hjob.trans ?_))
    exact setSlot_setSlot (d := { d with cutHold := d.cutHold ++ [.slot k] }) _ _
  rw [makeWrite_eq hz hp, enterWritePath, if_pos (cutting_eq_true (d := made) hv hc), hhold]

/-- R126: with the cut-hold queue full the write is handed back, and waits 0.1 s in its slot. -/
theorem makeWrite_waits (hz : d.slot? k = some z) (hp : z.phase = .writing j due) (hv : d.volume? j.volume = some x)
    (hc : x.cut ≠ none) (hl : d.cutHold.length ≥ 256) : perform (.makeWrite k) d =
      (d.setSlot k (some { z with
        phase := .writing { j with stage := .admitting, charge := none, epoch := none, waits := [] }
          (some (d.clock.now + 100)) }), []) := by
  let made : Device := d.setSlot k (some { z with phase := .writing j none })
  have hfull : made.joinHold (.slot k) = none := if_neg (Nat.not_lt.2 hl)
  rw [makeWrite_eq hz hp, enterWritePath, if_pos (cutting_eq_true (d := made) hv hc), hfull]
  simp only [Device.reportWrite, if_true, Device.retryLater, slot_setSlot_same, setSlot_setSlot]
  rfl

/-! #### A write that is admitted without charge (R22, R66, R79) -/

/-- R22, R66: a slot's write that charges nothing, its grain in need of no preservation, is admitted. -/
theorem admission_slot (hz : d.slot? k = some z) (hp : z.phase = .writing j due) (hd : j.declared = 0)
    (hv : d.volume? j.volume = some x) (hn : ∀ g ∈ j.touched, x.needs g = false) (hlen : d.pres.table.length ≤ 256) :
    perform (.admission (.slot k)) d =
      ((d.setSlot k (some { z with
          phase := .writing { j with stage := .admitting, charge := some 0, epoch := some x.epoch, waits := [] } due })
        ).setVolume j.volume { x with inFlight := x.inFlight + 1 }, [.walk (.slot k) j.touched]) := by
  let stamped : Device := d.setSlot k (some { z with
    phase := .writing { j with stage := .admitting, charge := some 0, epoch := some x.epoch, waits := [] } due })
  have hcharge : j.chargeOf = 0 := by rw [Job.chargeOf, hd, Nat.zero_min]
  have hstamp : d.stampWrite (.slot k) j 0 = stamped.setVolume j.volume { x with inFlight := x.inFlight + 1 } := by
    unfold Device.stampWrite
    simp only [hv, onJob_slot hz hp]
    exact onVolume_eq (d := stamped) hv _
  have hnew : (stamped.setVolume j.volume { x with inFlight := x.inFlight + 1 }).newEntries j = [] :=
    newEntries_nil fun g hg => by
      rw [Device.needs, volume_setVolume]
      exact hn g hg
  show admitWrite (.slot k) d = _
  simp only [admitWrite, job_slot hz hp, hcharge, admission_free, hstamp, hnew, List.length_nil, Nat.zero_add]
  exact if_neg (Nat.not_lt.2 hlen)

/-- R8, R11: an admitted write of a slot that waits on no entry joins class COPY. -/
theorem handOn_slot (hz : d.slot? k = some z) (hp : z.phase = .writing j due) (hc : j.charge ≠ none)
    (hw : j.waits = []) (hs : j.stage = .admitting) (hv : d.volume? j.volume = some x) (hl : d.pool.link = .up) :
    perform (.handOn (.slot k)) d =
      ((d.setSlot k (some { z with phase := .writing { j with stage := .queued } due })).joinPool
        { requester := .slot k, op := .write (x.base + j.first) j.blocks j.payload }, []) := by
  have hop (o : Option CopySlot) : (d.setSlot k o).jobOp j false = .write (x.base + j.first) j.blocks j.payload := by
    simp only [Device.jobOp, show (d.setSlot k o).volume? j.volume = some x from hv]
    rfl
  show handOnWrite (.slot k) d = _
  simp only [handOnWrite, job_slot hz hp]
  rw [if_pos ⟨hc, hw, hs⟩, if_neg (by rw [hl]; decide), onJob_slot hz hp, hop]

/-- R8, R22, R66, R68: a slot's write of one grain that charges nothing, its grain with no pending entry and in need of
no preservation, is admitted and joins class COPY. -/
theorem runs_makeWrite_admitted {g : Nat} (hz : d.slot? k = some z) (hp : z.phase = .writing j due)
    (hv : d.volume? j.volume = some x) (hc : x.cut = none) (hf : j.first = 8 * g) (hb : j.blocks = 8)
    (hd : j.declared = 0) (hl : d.pool.link = .up) (hn : x.needs g = false) (he : d.entry? j.volume g = none)
    (hlen : d.pres.table.length ≤ 256) :
    Runs 5 [.makeWrite k] d
      (((d.setSlot k (some { z with
          phase := .writing { j with stage := .queued, charge := some 0, epoch := some x.epoch, waits := [] } none })
        ).setVolume j.volume (x.written g)).joinPool { requester := .slot k, op := .write (x.base + 8 * g) 8 j.payload }) := by
  let made : Device := d.setSlot k (some { z with phase := .writing j none })
  let admitted : Job := { j with stage := .admitting, charge := some 0, epoch := some x.epoch, waits := [] }
  let stamped : Device := d.setSlot k (some { z with phase := .writing admitted none })
  have hmake : perform (.makeWrite k) d = (made, [.admission (.slot k)]) := by
    have hcut : made.cutting j.volume = false := by
      simp only [Device.cutting, show made.volume? j.volume = some x from hv, Volume.cutting, hc, Option.isSome_none]
    rw [makeWrite_eq hz hp, enterWritePath, if_neg (by rw [hcut]; decide)]
  have htouched : j.touched = [g] := by
    rw [Job.touched_one (by omega), hf, Nat.mul_div_cancel_left g (by decide)]
  have hadmit := admission_slot (d := made) (slot_setSlot_same _) rfl hd hv (by simpa [htouched] using hn) hlen
  rw [htouched, setSlot_setSlot] at hadmit
  have hhand := handOn_slot (d := stamped.setVolume j.volume (x.written g)) (x := x.written g) (j := admitted)
    (slot_setSlot_same _) rfl (Option.some_ne_none 0) rfl rfl (volume_setVolume stamped j.volume _) hl
  have hqueued (y : CopySlot) : (stamped.setVolume j.volume (x.written g)).setSlot k (some y)
      = (d.setSlot k (some y)).setVolume j.volume (x.written g) :=
    congrArg (fun e : Device => e.setVolume j.volume (x.written g)) (setSlot_setSlot ..)
  have hop : PoolOp.write (x.base + 8 * g) 8 j.payload = .write (x.base + j.first) j.blocks j.payload := by rw [hf, hb]
  rw [hqueued] at hhand
  rw [hop]
  exact Runs.task hmake (Runs.task hadmit (walk_runs (d := stamped) (c := 0) [g] { x with inFlight := x.inFlight + 1 }
    (job_slot (slot_setSlot_same _) rfl) rfl rfl (by simpa using ⟨hn, he⟩) (Runs.one hhand)))

end

/-! #### The event -/

section
variable {s : State} {k : SlotId} (hl : s.dev.resetLow = false)
include hl

/-- R126: only a slot that waits to retry has a retry that comes due (entry 4). -/
theorem exec_retryDue_other (h : ∀ z j m, s.dev.slot? k = some z → z.phase ≠ .writing j (some m)) :
    exec (.retryDue k) s = .next s := by
  have hsame : s.dev.retryDue k = (s.dev, []) := by
    unfold Device.retryDue
    cases hz : s.dev.slot? k with
    | none => rfl
    | some z =>
      dsimp only
      split
      · rename_i j m hp
        exact absurd hp (h z j m hz)
      · rfl
  simp only [exec, execRetryDue, event_high _ hl, hsame, settle_nil]

/-- R126: when its retry comes due a slot's write is made again, at the moment that has come. -/
theorem exec_retryDue {z : CopySlot} {j : Job} {m b : Nat} {u : Device} (hz : s.dev.slot? k = some z)
    (hp : z.phase = .writing j (some m)) (hr : Runs b [.makeWrite k] (s.dev.reach m) u) (hb : b ≤ 90) :
    exec (.retryDue k) s = .next { s with dev := u } := by
  have hdue : s.dev.retryDue k = (s.dev.reach m, [.makeWrite k]) := by simp only [Device.retryDue, hz, hp]
  simp only [exec, execRetryDue, event_high _ hl, hdue, hr.settle (by omega)]

end

/-- Settles O49: a slot that does not wait is left alone; one that waits makes its write again, which a cut holds or
hands back, and which is admitted otherwise. -/
theorem retryMakesWriteAgain : Obligations.RetryMakesWriteAgain := by
  intro s k hl
  refine ⟨exec_retryDue_other hl, ?_⟩
  intro z j m x hz hp hv now e
  refine ⟨fun hc hlen => ?_, fun hc hlen => ?_, ?_⟩
  · exact exec_retryDue hl hz hp (Runs.one (makeWrite_held (d := s.dev.reach m) hz hp hv hc hlen)) (by decide)
  · exact exec_retryDue hl hz hp (Runs.one (makeWrite_waits (d := s.dev.reach m) hz hp hv hc hlen)) (by decide)
  · intro g hc hf hb hd hup hn he hlen
    exact exec_retryDue hl hz hp (runs_makeWrite_admitted (d := s.dev.reach m) hz hp hv hc hf hb hd hup hn he hlen)
      (by decide)

end Sys2Proof.Machine
end

section
/-! ### RESTORE STATUS and RESTORE CANCEL (O48) -/

namespace Sys2Proof.Machine

/-- One consequence, and then its own together with what waits behind it. -/
theorem Runs.step {b : Nat} {t : Task} {more us : List Task} {d d' d'' : Device} (h : perform t d = (d', more))
    (h' : Runs b (more ++ us) d' d'') : Runs (b + 1) (t :: us) d d'' := by
  obtain ⟨k, hk, h'⟩ := h'
  refine ⟨k + 1, by omega, fun n rest => ?_⟩
  rw [← Nat.add_assoc, List.cons_append, carryOut_cons, h, ← List.append_assoc, h']

/-! #### The records sent, in the statement's layout (R186) -/

theorem counted_singletons {α : Type} (f : α → Item) (l : List α) :
    Item.counted (l.map fun a => [f a]) = .num 1 l.length :: l.map f := by
  rw [Item.counted, List.length_map, ← List.flatMap_def, List.map_eq_flatMap]

theorem counted_flatMap {α : Type} (f : α → List Item) (l : List α) :
    Item.counted (l.map f) = .num 1 l.length :: l.flatMap f := by
  rw [Item.counted, List.length_map, ← List.flatMap_def]

/-! #### The record of a restore, replaced -/

/-- The record y takes the place of the one with its id. -/
def Restore.inPlaceOf (y q : Restore) : Restore := if q.id = y.id then y else q

@[simp] theorem inPlaceOf_id (y q : Restore) : (y.inPlaceOf q).id = q.id := by
  unfold Restore.inPlaceOf
  split
  · exact Eq.symm (by assumption)
  · rfl

theorem mem_map_inPlaceOf {y q : Restore} {l : List Restore} (h : q ∈ l.map y.inPlaceOf) : q = y ∨ q ∈ l := by
  obtain ⟨u, hu, rfl⟩ := List.mem_map.1 h
  unfold Restore.inPlaceOf
  split
  · exact .inl rfl
  · exact .inr hu

/-- The ids of a table stand when a record is replaced. -/
theorem ids_map_inPlaceOf {y : Restore} {l : List Restore} {n : Nat} (h : ∀ q ∈ l, q.id ≠ n) :
    ∀ q ∈ l.map y.inPlaceOf, q.id ≠ n := by
  intro q hq
  obtain ⟨u, hu, rfl⟩ := List.mem_map.1 hq
  rw [inPlaceOf_id]
  exact h u hu

section
variable {d : Device} {before after : List Restore} {r : Restore}

theorem Device.HoldsRestore.map_inPlaceOf (h : d.HoldsRestore before r after) {y : Restore} (hy : y.id = r.id) :
    d.copy.restores.map y.inPlaceOf = before ++ y :: after := by
  have hon := congrArg (fun e : Device => e.copy.restores) (h.onRestore fun _ => y)
  rw [← hy] at hon
  exact hon

/-- A record that stands in the table still does when another one is replaced. -/
theorem Device.HoldsRestore.replace (h : d.HoldsRestore before r after) {y : Restore} (hy : r.id ≠ y.id) :
    ({ d with copy.restores := d.copy.restores.map y.inPlaceOf } : Device).HoldsRestore (before.map y.inPlaceOf) r
      (after.map y.inPlaceOf) where
  list := by
    show d.copy.restores.map y.inPlaceOf = _
    rw [h.list, List.map_append, List.map_cons, Restore.inPlaceOf, if_neg hy]
  others := by
    rw [← List.map_append]
    exact ids_map_inPlaceOf h.others

/-- The other records of the table. -/
theorem Device.HoldsRestore.mem_of_ne (h : d.HoldsRestore before r after) {q : Restore} (hq : q ∈ d.copy.restores)
    (hne : q ≠ r) : q ∈ before ++ after := by
  rw [h.list] at hq
  simpa [hne] using hq

theorem Device.HoldsRestore.runningCount (h : d.HoldsRestore before r after) : d.runningCount =
    ((before ++ after).filter fun q => q.state = .running).length + if r.state = .running then 1 else 0 := by
  rw [Device.runningCount, h.list]
  by_cases hr : r.state = .running
  · simp [hr]
    omega
  · simp [hr]

theorem restore_none {n : Nat} (h : ∀ q ∈ d.copy.restores, q.id ≠ n) : d.restore? n = none :=
  List.find?_eq_none.2 fun q hq => by simpa using h q hq

/-! #### Grants that find no stream (R116, R117) -/

/-- No pass runs, or no grain of the pass is ready. -/
def Device.PassUnready (d : Device) : Prop := d.dup.pass = none ∨ ∀ o ∈ d.dup.staging, o.phase ≠ .ready

theorem Device.PassUnready.not_eligible (h : d.PassUnready) : d.passEligible = false := by
  rcases h with h | h
  · exact passEligible_none h
  · have hready : d.readyPlace = none := List.find?_eq_none.2 fun o ho => by simpa using h o ho
    simp [Device.passEligible, hready]

/-- With no slot FREE, or with no stream for it beside a restore that is not eligible, no grant is made. -/
theorem Device.HoldsRestore.grant_still (h : d.HoldsRestore before r after) (hr : r.eligible = false)
    (hg : (∀ k, d.slot? k ≠ none) ∨ (∀ q ∈ before ++ after, q.state ≠ .running) ∧ d.PassUnready) :
    perform .grant d = (d, []) := by
  rcases hg with hg | ⟨ho, hp⟩
  · exact grant_full hg
  · refine grant_none (fun q hq => ?_) hp.not_eligible
    by_cases hqr : q = r
    · rw [hqr, hr]
    · exact Restore.not_eligible (ho q (h.mem_of_ne hq hqr))

/-! #### Promotion (R122) -/

/-- The record of a QUEUED restore that becomes RUNNING. -/
def Restore.promoted (q : Restore) : Restore := { q.enterExtent 0 with state := .running }

@[simp] theorem promoted_state (q : Restore) : q.promoted.state = .running := rfl

/-- While 8 restores run none is promoted. -/
theorem promote_full (h : 8 ≤ d.runningCount) : perform .promote d = (d, []) :=
  if_neg (Nat.not_lt.2 h)

/-- The oldest QUEUED restore becomes RUNNING while fewer than 8 run. -/
theorem Device.HoldsRestore.promote (h : d.HoldsRestore before r after) (hr : r.state = .queued)
    (ho : ∀ q ∈ before, q.state ≠ .queued) (hn : d.runningCount < 8) : perform .promote d =
      ({ d with copy.restores := before ++ r.promoted :: after }, [.promote, .grant]) := by
  have hfind : d.copy.restores.find? (fun q => q.state = .queued) = some r := by
    have hbefore : before.find? (fun q => q.state = .queued) = none :=
      List.find?_eq_none.2 fun q hq => by simpa using ho q hq
    rw [h.list, List.find?_append, hbefore]
    simp [hr]
  show promoteRestore d = _
  rw [promoteRestore, if_pos hn, hfind]
  exact congrArg (·, _) (h.onRestore fun q => { q.enterExtent 0 with state := .running })

/-! #### The end of a cancelled restore (R128, R129, R130) -/

/-- R129: a restore becomes ENDED, and its pin on the volume x is dropped. -/
theorem Device.HoldsRestore.endRestore {x : Volume} (h : d.HoldsRestore before r after) (hx : d.volume? r.source = some x)
    (o : RestoreOutcome) (why : Option RestoreReason) : d.endRestore r o why = { d with
      copy.restores := before
        ++ { r with state := .ended, current := none, cursor := none, outcome := some o, reason := why } :: after
      copy.endedOrder := d.copy.endedOrder ++ [r.id]
      volumes := d.volumes.insert r.source (x.unpinned r.snapshot) } := by
  have hon := h.onRestore fun q => { q with
    state := .ended, current := none, cursor := none, outcome := some o, reason := why }
  let listed : Device := { d with
    copy.restores := before
      ++ { r with state := .ended, current := none, cursor := none, outcome := some o, reason := why } :: after
    copy.endedOrder := d.copy.endedOrder ++ [r.id] }
  have hunpin : listed.unpin r.source r.snapshot = listed.setVolume r.source (x.unpinned r.snapshot) :=
    onVolume_eq (d := listed) hx _
  unfold Device.endRestore
  dsimp only at hon ⊢
  rw [hon]
  exact hunpin

/-- R120, R129: the record of a restore that a command has cancelled, its extents with these outcomes. -/
def Restore.cancelled (r : Restore) (os : List ExtentOutcome) : Restore := { r with
  state := .ended, current := none, cursor := none, outcomes := os, outcome := some .cancelled, reason := some .command }

/-- R129, R132: the part with a restore ended by a cancel, its pin on the volume x dropped and its notice handed over. -/
def Device.restoreCancelled (d : Device) (before : List Restore) (r : Restore) (after : List Restore) (x : Volume)
    (os : List ExtentOutcome) : Device :=
  { d.noted .restoreEnd (.restore r.id) (.restoreEnd .cancelled (some .command)) with
    copy.restores := before ++ r.cancelled os :: after
    copy.endedOrder := d.copy.endedOrder ++ [r.id]
    volumes := d.volumes.insert r.source (x.unpinned r.snapshot) }

/-- With the outcomes of its extents set, a restore ends by a cancel. -/
theorem Device.HoldsRestore.endCancelled {x : Volume} {os : List ExtentOutcome}
    (h : d.HoldsRestore before { r with outcomes := os } after) (hx : d.volume? r.source = some x) :
    (d.endRestore r .cancelled (some .command)).notifyRestoreEnd r.id .cancelled (some .command) =
      d.restoreCancelled before r after x os := by
  have hend := h.endRestore hx .cancelled (some .command)
  rw [show d.endRestore r .cancelled (some .command) = _ from hend, Device.notifyRestoreEnd, notify_eq]
  rfl

/-- R130: a QUEUED restore is cancelled, with every extent NOT_RUN. -/
theorem Device.HoldsRestore.cancelQueued {x : Volume} (h : d.HoldsRestore before r after)
    (hx : d.volume? r.source = some x) : d.cancelQueued r =
      d.restoreCancelled before r after x (r.outcomes.map fun _ => .notRun) := by
  let unrun : Device := { d with
    copy.restores := before ++ { r with outcomes := r.outcomes.map fun _ => .notRun } :: after }
  have hunrun : unrun.HoldsRestore before { r with outcomes := r.outcomes.map fun _ => .notRun } after := ⟨rfl, h.others⟩
  unfold Device.cancelQueued
  rw [h.onRestore]
  exact hunrun.endCancelled hx

/-- R123, R128: the current extent of a cancelled restore with no copy in flight ends, and with it the restore. -/
theorem Device.HoldsRestore.extentCheck_cancelled {x : Volume} {i : Nat} {e : Extent} (h : d.HoldsRestore before r after)
    (hr : r.state = .running) (hca : r.cancel = true) (hf : r.inFlight = 0) (hc : r.current = some i)
    (he : r.extents[i]? = some e) (hx : d.volume? r.source = some x) : perform (.extentCheck r.id) d =
      ((d.extentTold e r.id i r.finalOutcome).restoreCancelled before r after x
        (notRunAfter i (r.outcomes.set i r.finalOutcome)), [.promote, .grant]) := by
  let os : List ExtentOutcome := r.outcomes.set i r.finalOutcome
  let told : Device := { d.extentTold e r.id i r.finalOutcome with
    copy.restores := before ++ { r with outcomes := os } :: after }
  have htold : told.HoldsRestore before { r with outcomes := os } after := ⟨rfl, h.others⟩
  let unrun : Device := { told with copy.restores := before ++ { r with outcomes := notRunAfter i os } :: after }
  have hset : told.onRestore r.id (fun q => { q with outcomes := notRunAfter i os }) = unrun := htold.onRestore _
  have hunrun : unrun.HoldsRestore before { r with outcomes := notRunAfter i os } after := ⟨rfl, h.others⟩
  have hover : r.extentOver = true := by simp [Restore.extentOver, hr, hf, hc, hca]
  have hcheck : perform (.extentCheck r.id) d =
      ((((d.extentEnded r i).onRestore r.id fun q => { q with outcomes := notRunAfter i os }).endRestore r .cancelled
        (some .command)).notifyRestoreEnd r.id .cancelled (some .command), [.promote, .grant]) := by
    show extentCheck r.id d = _
    simp only [extentCheck, h.find, hc, hover, hca, if_true]
    rfl
  rw [hcheck, h.extentEnded he, hset, hunrun.endCancelled hx]
  rfl

/-- A restore with copies in flight, or none of whose extents is current, goes on. -/
theorem Device.HoldsRestore.extentCheck_flying (h : d.HoldsRestore before r after) (hf : r.inFlight ≠ 0) :
    perform (.extentCheck r.id) d = (d, []) := by
  cases hc : r.current with
  | some i => exact h.extentCheck_quiet hc hf
  | none =>
    show extentCheck r.id d = _
    simp only [extentCheck, h.find, hc]

end

/-! #### The slots that wait to retry (R130) -/

/-- The slot works for restore n and waits to make its write again. -/
def CopySlot.retriesFor (n : Nat) (z : CopySlot) : Bool :=
  z.stream = .restore n && match z.phase with
    | .writing _ (some _) => true
    | _ => false

/-- Those of the slots in l that wait to retry for restore n are FREE. -/
def droppedSlots (n : Nat) (l : List SlotId) (v : Vector (Option CopySlot) 16) : Vector (Option CopySlot) 16 :=
  Vector.ofFn fun k => if k ∈ l then v[k].filter fun z => !z.retriesFor n else v[k]

/-- The number of the slots in l that wait to retry for restore n. -/
def droppedCount (n : Nat) (l : List SlotId) (v : Vector (Option CopySlot) 16) : Nat :=
  (l.filter fun k => v[k].any (CopySlot.retriesFor n)).length

theorem droppedSlots_finRange (n : Nat) (v : Vector (Option CopySlot) 16) :
    droppedSlots n (List.finRange 16) v = v.map fun o => o.filter fun z => !z.retriesFor n := by
  ext1 i hi
  simp [droppedSlots]

theorem droppedCount_finRange (n : Nat) (v : Vector (Option CopySlot) 16) :
    droppedCount n (List.finRange 16) v = (v.toList.filter fun o => o.any (CopySlot.retriesFor n)).length := by
  have hlist : v.toList = (List.finRange 16).map fun k => v[k] := by
    refine List.ext_getElem (by simp) fun i h1 h2 => ?_
    simp
  rw [hlist, List.filter_map, List.length_map]
  rfl

theorem droppedSlots_cons {n : Nat} {k : SlotId} {l : List SlotId} (hk : k ∉ l) (v : Vector (Option CopySlot) 16) :
    droppedSlots n l (v.set k.val (v[k].filter fun z => !z.retriesFor n) k.isLt) = droppedSlots n (k :: l) v := by
  ext1 i hi
  by_cases hik : (⟨i, hi⟩ : SlotId) = k
  · subst hik
    simp [droppedSlots, hk]
  · have hne : k.val ≠ i := fun he => hik (Fin.ext he.symm)
    simp [droppedSlots, hik, hne]

theorem droppedCount_cons {n : Nat} {k : SlotId} {l : List SlotId} (hk : k ∉ l) (v : Vector (Option CopySlot) 16)
    (o : Option CopySlot) : droppedCount n (k :: l) v =
      (if v[k].any (CopySlot.retriesFor n) then 1 else 0) + droppedCount n l (v.set k.val o k.isLt) := by
  have hrest : droppedCount n l (v.set k.val o k.isLt) = droppedCount n l v := by
    refine congrArg List.length (List.filter_congr fun j hj => ?_)
    have hne : k.val ≠ j.val := fun he => hk (Fin.ext he ▸ hj)
    simp [hne]
  rw [hrest, droppedCount, droppedCount, List.filter_cons]
  split
  · rw [List.length_cons, Nat.add_comm]
  · rw [Nat.zero_add]

section
variable {d : Device} {before after : List Restore} {r : Restore}

theorem dropRetry_eq (d : Device) (n : Nat) (k : SlotId) : d.dropRetry n k =
    if (d.slot? k).any (CopySlot.retriesFor n) then
      (d.setSlot k none).onRestore n fun q => { q with inFlight := q.inFlight - 1 }
    else d := by
  unfold Device.dropRetry
  cases d.slot? k with
  | none => rfl
  | some z =>
    obtain ⟨_, _, _, _, _, _, _, _, phase⟩ := z
    cases phase with
    | reading => simp [CopySlot.retriesFor]
    | staging data => simp [CopySlot.retriesFor]
    | writing j due => cases due <;> simp [CopySlot.retriesFor]

/-- One slot is dropped, if it waits to retry. -/
theorem Device.HoldsRestore.dropRetry (h : d.HoldsRestore before r after) (k : SlotId) : d.dropRetry r.id k = { d with
    copy.slots := d.copy.slots.set k.val (d.copy.slots[k].filter fun z => !z.retriesFor r.id) k.isLt
    copy.restores := before
      ++ { r with inFlight := r.inFlight - if d.copy.slots[k].any (CopySlot.retriesFor r.id) then 1 else 0 } :: after } := by
  rw [dropRetry_eq, show d.slot? k = d.copy.slots[k] from rfl]
  cases hr : d.copy.slots[k].any (CopySlot.retriesFor r.id) with
  | true =>
    have hgone : d.copy.slots[k].filter (fun z => !z.retriesFor r.id) = none := by
      cases hz : d.copy.slots[k] with
      | none => rfl
      | some z => simpa [hz] using hr
    have hheld : (d.setSlot k none).HoldsRestore before r after := ⟨h.list, h.others⟩
    rw [if_pos rfl, if_pos rfl, hgone, hheld.onRestore]
    rfl
  | false =>
    have hkept : d.copy.slots[k].filter (fun z => !z.retriesFor r.id) = d.copy.slots[k] := by
      cases hz : d.copy.slots[k] with
      | none => rfl
      | some z => simpa [hz] using hr
    have hset : d.copy.slots.set k.val d.copy.slots[k] k.isLt = d.copy.slots := Vector.set_getElem_self _
    rw [if_neg (by decide), if_neg (by decide), hkept, hset, Nat.sub_zero, ← h.list]

/-- The slots of l that wait to retry are dropped. -/
theorem Device.HoldsRestore.dropRetries {l : List SlotId} (h : d.HoldsRestore before r after) (hl : l.Nodup) :
    l.foldl (fun d k => d.dropRetry r.id k) d = { d with
      copy.slots := droppedSlots r.id l d.copy.slots
      copy.restores := before
        ++ { r with inFlight := r.inFlight - droppedCount r.id l d.copy.slots } :: after } := by
  induction l generalizing d r with
  | nil =>
    have hsame : droppedSlots r.id [] d.copy.slots = d.copy.slots := by
      ext1 i hi
      simp [droppedSlots]
    rw [hsame]
    show d = { d with copy.restores := before ++ r :: after }
    rw [← h.list]
  | cons k l ih =>
    obtain ⟨hk, hl⟩ := List.nodup_cons.1 hl
    let kept : Option CopySlot := d.copy.slots[k].filter fun z => !z.retriesFor r.id
    let fewer : Restore :=
      { r with inFlight := r.inFlight - if d.copy.slots[k].any (CopySlot.retriesFor r.id) then 1 else 0 }
    have hheld : ({ d.setSlot k kept with copy.restores := before ++ fewer :: after } : Device).HoldsRestore before fewer
        after := ⟨rfl, h.others⟩
    rw [List.foldl_cons, h.dropRetry]
    refine (ih (r := fewer) hheld hl).trans ?_
    rw [droppedCount_cons hk d.copy.slots kept, ← droppedSlots_cons hk, ← Nat.sub_sub]
    rfl

/-- R130: the record of a RUNNING restore whose cancel is requested, with n of its copies dropped. -/
def Restore.marked (r : Restore) (n : Nat) : Restore := { r with cancel := true, inFlight := r.inFlight - n }

/-- R130: the copies of restore n that wait to retry. -/
def Device.retrying (d : Device) (n : Nat) : Nat :=
  (d.copy.slots.toList.filter fun o => o.any (CopySlot.retriesFor n)).length

/-- R130: the copy slots once those that wait to retry for restore n are FREE. -/
def Device.slotsKept (d : Device) (n : Nat) : Vector (Option CopySlot) 16 :=
  d.copy.slots.map fun o => o.filter fun z => !z.retriesFor n

/-- R130: the part with a RUNNING restore marked, and its slots that wait to retry dropped. -/
def Device.cancelMarked (d : Device) (before : List Restore) (r : Restore) (after : List Restore) : Device := { d with
  copy.slots := d.slotsKept r.id, copy.restores := before ++ r.marked (d.retrying r.id) :: after }

theorem Device.HoldsRestore.cancelRunning (h : d.HoldsRestore before r after) :
    d.cancelRunning r = d.cancelMarked before r after := by
  let marked : Device := { d with copy.restores := before ++ { r with cancel := true } :: after }
  have hmarked : marked.HoldsRestore before { r with cancel := true } after := ⟨rfl, h.others⟩
  have hdropped := hmarked.dropRetries (List.nodup_finRange 16)
  rw [droppedSlots_finRange, droppedCount_finRange] at hdropped
  unfold Device.cancelRunning
  rw [h.onRestore]
  exact hdropped

end

/-! #### The end of a RUNNING restore by a cancel (R128, R130) -/

/-- The outcome that extent i of a restore ends with once a cancel is requested. -/
def Restore.cancelOutcome (r : Restore) (i : Nat) : ExtentOutcome :=
  if r.outcomes[i]? = some .running then .cancelled else (r.outcomes[i]?).getD .done

theorem marked_finalOutcome {r : Restore} {i : Nat} (hc : r.current = some i) (n : Nat) :
    (r.marked n).finalOutcome = r.cancelOutcome i := by
  have hcur : (r.marked n).currentOutcome = r.outcomes[i]? := by
    simp only [Restore.currentOutcome, Restore.marked, hc, Option.bind_some]
  rw [Restore.finalOutcome, Restore.cancelOutcome, hcur]
  cases r.outcomes[i]? with
  | none => rfl
  | some o => cases o <;> rfl

/-- The record of a RUNNING restore with no copy left, its extent i current, once a cancel has ended it. -/
def Restore.runCancelled (r : Restore) (i : Nat) : Restore := { r with
  state := .ended, cancel := true, current := none, cursor := none, inFlight := 0
  outcomes := notRunAfter i (r.outcomes.set i (r.cancelOutcome i)), outcome := some .cancelled, reason := some .command }

@[simp] theorem runCancelled_state (r : Restore) (i : Nat) : (r.runCancelled i).state = .ended := rfl

theorem runCancelled_eq {r : Restore} {n : Nat} (hf : r.inFlight = n) (i : Nat) :
    (r.marked n).cancelled (notRunAfter i ((r.marked n).outcomes.set i (r.cancelOutcome i))) = r.runCancelled i := by
  simp only [Restore.cancelled, Restore.marked, Restore.runCancelled, hf, Nat.sub_self]

/-- R128 to R130: the part with the RUNNING restore r ended by a cancel, its extent i, the record e, current: the notices
handed over, its slots that wait to retry dropped, its pin on the volume x dropped; the restore table is then rs. -/
def Device.runCancelled (d : Device) (r : Restore) (i : Nat) (e : Extent) (x : Volume) (rs : List Restore) : Device :=
  { (d.extentTold e r.id i (r.cancelOutcome i)).noted .restoreEnd (.restore r.id) (.restoreEnd .cancelled (some .command))
    with
    copy.restores := rs
    copy.endedOrder := d.copy.endedOrder ++ [r.id]
    copy.slots := d.slotsKept r.id
    volumes := d.volumes.insert r.source (x.unpinned r.snapshot) }

/-! #### The commands -/

section
variable {s : State} {p : PortId} {tag : Nat} {t : Txn} {n : Nat}

theorem exec_restoreStatus (h : s.Issued p tag .restoreStatus t [.num n]) : exec (.restoreStatus p tag) s =
    .next { s with dev := (s.dev.taken p tag t).restoreStatus p tag [.num n] } := by
  simp only [exec, execRestoreStatus, event_high _ h.high, takeNow_issued h]

theorem exec_restoreCancel (h : s.Issued p tag .restoreCancel t [.num n]) : exec (.restoreCancel p tag) s =
    .next { s with dev := settle ((s.dev.taken p tag t).restoreCancel p tag [.num n]) } := by
  simp only [exec, execRestoreCancel, event_high _ h.high, takeThen_issued h]

theorem exec_restoreCancel_unknown (h : s.Issued p tag .restoreCancel t [.num n])
    (hn : ∀ q ∈ s.dev.copy.restores, q.id ≠ n) : exec (.restoreCancel p tag) s =
      .next { s with dev := s.dev.answered p tag t .notFound none [] } := by
  have hfind : (s.dev.taken p tag t).restore? n = none := restore_none hn
  simp only [exec_restoreCancel h, Device.restoreCancel, hfind, Device.denyEffect, settle_nil, deny_taken]

end

section
variable {s : State} {p : PortId} {tag : Nat} {t : Txn} {before after : List Restore} {r : Restore}
  (h : s.Issued p tag .restoreCancel t [.num r.id]) (hheld : s.dev.HoldsRestore before r after)
include h hheld

theorem exec_restoreCancel_ended (hr : r.state = .ended) : exec (.restoreCancel p tag) s =
    .next { s with dev := s.dev.answered p tag t .conflict none [] } := by
  have hfind : (s.dev.taken p tag t).restore? r.id = some r := hheld.find
  simp only [exec_restoreCancel h, Device.restoreCancel, hfind, hr, Device.denyEffect, settle_nil, deny_taken]

omit hheld in
/-- R130: a command that is not refused is answered with the record y, as it stands in the part e once all that follows
has run. -/
theorem exec_restoreCancel_answered {ts : List Task} {d e : Device} {older newer : List Restore} {y : Restore} {b : Nat}
    (hc : (s.dev.taken p tag t).restoreCancel p tag [.num r.id] = (d, ts ++ [.replyCancel p tag r.id]))
    (hr : Runs b ts d (e.taken p tag t)) (hb : b ≤ 90) (he : e.HoldsRestore older y newer) (hy : y.id = r.id) :
    exec (.restoreCancel p tag) s = .next { s with dev := e.answered p tag t .ok none y.recordItems } := by
  have hreply : perform (.replyCancel p tag r.id) (e.taken p tag t) = (e.answered p tag t .ok none y.recordItems, []) := by
    have hfind : (e.taken p tag t).restore? r.id = some y := hy ▸ he.find
    show replyCancel p tag r.id _ = _
    simp only [replyCancel, hfind, reply_taken]
  rw [exec_restoreCancel h, hc, (hr.append (Runs.one hreply)).settle (by omega)]

/-- R130: a restore marked before is left as it stands. -/
theorem exec_restoreCancel_marked (hr : r.state = .running) (hca : r.cancel = true) : exec (.restoreCancel p tag) s =
    .next { s with dev := s.dev.answered p tag t .ok none r.recordItems } := by
  have hfind : (s.dev.taken p tag t).restore? r.id = some r := hheld.find
  exact exec_restoreCancel_answered h (ts := []) (by simp only [Device.restoreCancel, hfind, hr, hca]; rfl)
    (Runs.nil (s.dev.taken p tag t)) (by decide) hheld rfl

/-- R130: a QUEUED restore ends at once. -/
theorem exec_restoreCancel_queued {x : Volume} (hr : r.state = .queued) (hx : s.dev.volume? r.source = some x) :
    exec (.restoreCancel p tag) s = .next { s with
      dev := (s.dev.restoreCancelled before r after x (r.outcomes.map fun _ => .notRun)).answered p tag t .ok none
        (r.cancelled (r.outcomes.map fun _ => .notRun)).recordItems } := by
  have htaken : (s.dev.taken p tag t).HoldsRestore before r after := ⟨hheld.list, hheld.others⟩
  exact exec_restoreCancel_answered h (ts := [])
    (by simp only [Device.restoreCancel, htaken.find, hr, htaken.cancelQueued (x := x) hx]; rfl)
    (Runs.nil ((s.dev.restoreCancelled before r after x (r.outcomes.map fun _ => .notRun)).taken p tag t)) (by decide)
    ⟨rfl, hheld.others⟩ rfl

section
variable (hr : r.state = .running) (hca : r.cancel = false)
include hr hca

/-- R130: the cancel of a RUNNING restore is the marking of its record and what follows from it. -/
theorem exec_restoreCancel_running {e : Device} {older newer : List Restore} {y : Restore} {b : Nat}
    (hruns : Runs b [.extentCheck r.id, .grant] ((s.dev.cancelMarked before r after).taken p tag t)
      (e.taken p tag t))
    (hb : b ≤ 90) (he : e.HoldsRestore older y newer) (hy : y.id = r.id) : exec (.restoreCancel p tag) s =
      .next { s with dev := e.answered p tag t .ok none y.recordItems } := by
  have htaken : (s.dev.taken p tag t).HoldsRestore before r after := ⟨hheld.list, hheld.others⟩
  refine exec_restoreCancel_answered h ?_ hruns hb he hy
  simp only [Device.restoreCancel, htaken.find, hr, hca, htaken.cancelRunning]
  rfl

/-- R130: with other copies in flight the restore stays RUNNING, marked. -/
theorem exec_restoreCancel_flying (hf : r.inFlight > s.dev.retrying r.id)
    (hg : (∀ k : SlotId, (s.dev.slotsKept r.id)[k] ≠ none)
      ∨ (∀ q ∈ before ++ after, q.state ≠ .running) ∧ s.dev.PassUnready) : exec (.restoreCancel p tag) s =
      .next { s with
        dev := (s.dev.cancelMarked before r after).answered p tag t .ok none
          (r.marked (s.dev.retrying r.id)).recordItems } := by
  have htaken : ((s.dev.cancelMarked before r after).taken p tag t).HoldsRestore before
    (r.marked (s.dev.retrying r.id)) after := ⟨rfl, hheld.others⟩
  have hcheck := htaken.extentCheck_flying (show r.inFlight - s.dev.retrying r.id ≠ 0 by omega)
  have hgrant := htaken.grant_still (by simp [Restore.eligible, Restore.marked]) hg
  exact exec_restoreCancel_running h hheld hr hca ((Runs.one hcheck).cons (Runs.one hgrant)) (by decide)
    (older := before) (newer := after) ⟨rfl, hheld.others⟩ rfl

/-- R130: with no other copy in flight the restore ends; what is left is the promotion of the oldest QUEUED one, and
the grants. -/
theorem exec_restoreCancel_ends {x : Volume} {i : Nat} {e : Extent} {rs older newer : List Restore} {b : Nat}
    (hf : r.inFlight = s.dev.retrying r.id) (hc : r.current = some i) (he : r.extents[i]? = some e)
    (hx : s.dev.volume? r.source = some x)
    (hruns : Runs b [.promote, .grant, .grant]
      ((s.dev.runCancelled r i e x (before ++ r.runCancelled i :: after)).taken p tag t)
      ((s.dev.runCancelled r i e x rs).taken p tag t)) (hb : b ≤ 80)
    (hrs : (s.dev.runCancelled r i e x rs).HoldsRestore older (r.runCancelled i) newer) :
    exec (.restoreCancel p tag) s = .next { s with
      dev := (s.dev.runCancelled r i e x rs).answered p tag t .ok none (r.runCancelled i).recordItems } := by
  have htaken : ((s.dev.cancelMarked before r after).taken p tag t).HoldsRestore before
    (r.marked (s.dev.retrying r.id)) after := ⟨rfl, hheld.others⟩
  have hcheck := htaken.extentCheck_cancelled (x := x) hr rfl (show r.inFlight - s.dev.retrying r.id = 0 by omega) hc he hx
  rw [marked_finalOutcome hc, Device.restoreCancelled, runCancelled_eq hf] at hcheck
  exact exec_restoreCancel_running h hheld hr hca (Runs.step hcheck hruns) (by omega) hrs rfl

section
variable {x : Volume} {i : Nat} {e : Extent} (hf : r.inFlight = s.dev.retrying r.id) (hc : r.current = some i)
  (he : r.extents[i]? = some e) (hx : s.dev.volume? r.source = some x)
include hf hc he hx

/-- R130: here no restore is QUEUED, and no grant follows. -/
theorem exec_restoreCancel_ends_alone (hq : ∀ q ∈ s.dev.copy.restores, q.state ≠ .queued)
    (hg : (∀ k : SlotId, (s.dev.slotsKept r.id)[k] ≠ none)
      ∨ (∀ q ∈ before ++ after, q.state ≠ .running) ∧ s.dev.PassUnready) :
    exec (.restoreCancel p tag) s = .next { s with
      dev := (s.dev.runCancelled r i e x (before ++ r.runCancelled i :: after)).answered p tag t .ok none
        (r.runCancelled i).recordItems } := by
  let d : Device := (s.dev.runCancelled r i e x (before ++ r.runCancelled i :: after)).taken p tag t
  have hended : d.HoldsRestore before (r.runCancelled i) after := ⟨rfl, hheld.others⟩
  have hpromote : perform .promote d = (d, []) := promote_quiet fun q hm => by
    by_cases hqr : q = r.runCancelled i
    · rw [hqr, runCancelled_state]
      decide
    · refine hq q ?_
      rw [hheld.list]
      exact List.mem_append.2 ((List.mem_append.1 (hended.mem_of_ne hm hqr)).imp_right (List.mem_cons_of_mem _))
  have hgrant : perform .grant d = (d, []) := hended.grant_still (Restore.not_eligible (by rw [runCancelled_state]; decide)) hg
  exact exec_restoreCancel_ends h hheld hr hca hf hc he hx
    ((Runs.one hpromote).cons ((Runs.one hgrant).cons (Runs.one hgrant))) (by decide)
    (older := before) (newer := after) ⟨rfl, hheld.others⟩

/-- R122, R130: here no copy slot is FREE, and the oldest QUEUED restore takes the place among the 8 that run. -/
theorem exec_restoreCancel_ends_promoting {q : Restore} {older newer : List Restore}
    (hg : ∀ k : SlotId, (s.dev.slotsKept r.id)[k] ≠ none) (hq : s.dev.HoldsRestore older q newer) (hqs : q.state = .queued)
    (ho : ∀ u ∈ older, u.state ≠ .queued) (hn : s.dev.runningCount = 8) :
    exec (.restoreCancel p tag) s = .next { s with
      dev := (s.dev.runCancelled r i e x ((before ++ r.runCancelled i :: after).map q.promoted.inPlaceOf)).answered p tag t
        .ok none (r.runCancelled i).recordItems } := by
  let y : Restore := r.runCancelled i
  let mid : List Restore := before ++ y :: after
  let d : Device := (s.dev.runCancelled r i e x mid).taken p tag t
  let u : Device := (s.dev.runCancelled r i e x (mid.map q.promoted.inPlaceOf)).taken p tag t
  have hne : q.id ≠ r.id := by
    have hmem : q ∈ s.dev.copy.restores := by rw [hq.list]; simp
    exact hheld.others q (hheld.mem_of_ne hmem fun hqr => by rw [hqr, hr] at hqs; cases hqs)
  have hmid : d.HoldsRestore before y after := ⟨rfl, hheld.others⟩
  have hwaits : d.HoldsRestore (older.map y.inPlaceOf) q (newer.map y.inPlaceOf) := by
    have hrep := hq.replace (y := y) hne
    exact ⟨(hheld.map_inPlaceOf (y := y) rfl).symm.trans hrep.list, hrep.others⟩
  have holder : ∀ v ∈ older.map y.inPlaceOf, v.state ≠ .queued := fun v hv => by
    rcases mem_map_inPlaceOf hv with rfl | hv
    · rw [runCancelled_state]
      decide
    · exact ho v hv
  have hseven : d.runningCount = 7 := by
    have h8 := hheld.runningCount
    have h7 := hmid.runningCount
    rw [hn, if_pos hr] at h8
    rw [if_neg (by rw [runCancelled_state]; decide)] at h7
    omega
  have hu : u.HoldsRestore (older.map y.inPlaceOf) q.promoted (newer.map y.inPlaceOf) :=
    ⟨(hwaits.map_inPlaceOf (y := q.promoted) rfl), hwaits.others⟩
  have hpromote : perform .promote d = (u, [.promote, .grant]) := by
    rw [hwaits.promote hqs holder (by omega), ← hwaits.map_inPlaceOf (y := q.promoted) rfl]
    rfl
  have hfull : perform .promote u = (u, []) := promote_full <| by
    have h7 := hwaits.runningCount
    have h8 := hu.runningCount
    rw [if_neg (by rw [hqs]; decide)] at h7
    rw [if_pos (promoted_state q)] at h8
    omega
  have hgrant : perform .grant u = (u, []) := grant_full hg
  have hruns : Runs 5 [.promote, .grant, .grant] d u := Runs.step hpromote
    ((Runs.one hfull).cons ((Runs.one hgrant).cons ((Runs.one hgrant).cons (Runs.one hgrant))))
  have hstands := hmid.replace (y := q.promoted) (Ne.symm hne)
  exact exec_restoreCancel_ends h hheld hr hca hf hc he hx hruns (by decide) ⟨hstands.list, hstands.others⟩

end

end

end

/-- Settles O48: the status is the record; a cancel goes by the record's state, and one that ends a RUNNING restore by
whether another one waits for its place. -/
theorem restoreStatusAndCancel : Obligations.RestoreStatusAndCancel := by
  intro s p tag t id Answers items record found
  have hitems (x : Restore) : x.items = items x := by
    rw [Restore.items, counted_singletons]
    rfl
  have hrecord (x : Restore) : x.recordItems = record x := by
    rw [Restore.recordItems, counted_singletons, counted_flatMap]
    rfl
  refine ⟨fun h => ⟨fun hn => ?_, ?_⟩, fun h => ⟨exec_restoreCancel_unknown h, ?_⟩⟩
  · have hfind : (s.dev.taken p tag t).restore? id = none := restore_none hn
    simp only [Answers, exec_restoreStatus h, Device.restoreStatus, hfind, deny_taken]
  · rintro x ⟨before, after, hl, rfl, hb, ha⟩
    have htaken : (s.dev.taken p tag t).HoldsRestore before x after :=
      ⟨hl, fun q hq => (List.mem_append.1 hq).elim (hb q) (ha q)⟩
    simp only [Answers, exec_restoreStatus h, Device.restoreStatus, htaken.find, reply_taken, hitems]
  · rintro x ⟨before, after, hl, rfl, hb, ha⟩
    have hheld : s.dev.HoldsRestore before x after := ⟨hl, fun q hq => (List.mem_append.1 hq).elim (hb q) (ha q)⟩
    intro changed retries kept dropped idle busy
    have hchanged (y : Restore) (hy : y.id = x.id) : changed y = before ++ y :: after := by
      have hplace : (fun r : Restore => if r.id = x.id then y else r) = y.inPlaceOf :=
        funext fun r => by rw [Restore.inPlaceOf, hy]
      rw [← hheld.map_inPlaceOf hy, ← hplace]
    have hquiet (hg : busy ∨ idle) : (∀ k : SlotId, (s.dev.slotsKept x.id)[k] ≠ none)
        ∨ (∀ q ∈ before ++ after, q.state ≠ .running) ∧ s.dev.PassUnready := by
      refine hg.imp id fun ⟨ho, hp⟩ => ⟨fun q hq => ho q ?_ (hheld.others q hq), hp⟩
      rw [hl]
      exact List.mem_append.2 ((List.mem_append.1 hq).imp_right (List.mem_cons_of_mem _))
    refine ⟨exec_restoreCancel_ended h hheld, fun hr hca => ?_, fun hr hca hf hg => ?_, ?_, ?_⟩
    · exact (exec_restoreCancel_marked h hheld hr hca).trans (by rw [hrecord])
    · intro y
      rw [hchanged y rfl, ← hrecord]
      exact exec_restoreCancel_flying h hheld hr hca hf (hquiet hg)
    · intro i e z hr hca hf hc he hz o y w told Ended
      have hy : y = x.runCancelled i := by
        simp only [y, o, Restore.runCancelled, Restore.cancelOutcome, notRunAfter, List.length_set]
      have hended (rs : List Restore) (hx : exec (.restoreCancel p tag) s = .next { s with
          dev := (s.dev.runCancelled x i e z rs).answered p tag t .ok none (x.runCancelled i).recordItems }) :
          Ended rs := by
        have htold : told = s.dev.extentTold e x.id i o := (extentTold_eq ..).symm
        show Answers _ { told.noted .restoreEnd (.restore x.id) (.restoreEnd .cancelled (some .command)) with
          copy.restores := rs, copy.endedOrder := s.dev.copy.endedOrder ++ [x.id], copy.slots := kept
          volumes := s.dev.volumes.insert x.source w } .ok (record y)
        rw [htold, hy, ← hrecord]
        exact hx
      refine ⟨fun hg hq => ?_, ?_⟩
      · rw [hchanged y (by rw [hy]; rfl), hy]
        exact hended _ (exec_restoreCancel_ends_alone h hheld hr hca hf hc he hz hq (hquiet hg))
      · intro q older newer hg hrs hqs ho hn h8
        have hq : s.dev.HoldsRestore older q newer :=
          ⟨hrs, fun u hu => (List.mem_append.1 hu).elim (fun hu => (ho u hu).2) (hn u)⟩
        rw [hchanged y (by rw [hy]; rfl), hy]
        exact hended _ (exec_restoreCancel_ends_promoting h hheld hr hca hf hc he hz hg hq hqs (fun u hu => (ho u hu).1) h8)
    · intro z hr hz y w
      rw [hchanged y rfl, ← hrecord]
      exact exec_restoreCancel_queued h hheld hr hz

end Sys2Proof.Machine
end

section
/-! ### The checks of RESTORE (O47) -/

namespace Sys2Proof.Machine

/-- R121 checks 1 to 3: a source, a destination or an extent list out of range. -/
def RestoreArgs.Bad (a : RestoreArgs) : Prop :=
  a.source = 0 ∨ a.source > 64 ∨ a.extents = [] ∨ a.extents.length > 32
    ∨ ∃ e ∈ a.extents, e.destVolume = 0 ∨ e.destVolume > 64 ∨ e.count = 0

theorem bad_iff (a : RestoreArgs) : (badVolume a.source = true ∨ a.extents = [] ∨ a.extents.length > 32
    ∨ (a.extents.any fun e => badVolume e.destVolume || decide (e.count = 0)) = true) ↔ a.Bad := by
  simp [RestoreArgs.Bad, badVolume_iff, or_assoc]

/-! #### The volumes of a RESTORE -/

/-- The volume is UNDEFINED or REMOVING. -/
def Device.Absent (d : Device) (v : Nat) : Prop := ∀ x, d.volume? v = some x → x.state = .removing

/-- The volume is PREPARING. -/
def Device.Preparing (d : Device) (v : Nat) : Prop := ∃ x, d.volume? v = some x ∧ x.state = .preparing

section
variable {d : Device} {v : Nat}

theorem restoreVolume_absent (h : d.Absent v) : d.restoreVolume v = some (.notFound, some .noVolume) := by
  unfold Device.restoreVolume
  cases hv : d.volume? v with
  | none => rfl
  | some x =>
    dsimp only
    rw [h x hv]

theorem restoreVolume_preparing (h : d.Preparing v) : d.restoreVolume v = some (.busy, some .notReady) := by
  obtain ⟨x, hv, hs⟩ := h
  simp only [Device.restoreVolume, hv, hs]

theorem restoreVolume_ready {x : Volume} (hv : d.volume? v = some x) (hs : x.state = .ready) :
    d.restoreVolume v = none := by
  simp only [Device.restoreVolume, hv, hs]

/-- A volume that is neither stands READY. -/
theorem exists_ready (ha : ¬ d.Absent v) (hp : ¬ d.Preparing v) : ∃ x, d.volume? v = some x ∧ x.state = .ready := by
  obtain ⟨x, hx⟩ := not_forall.1 ha
  obtain ⟨hv, hs⟩ := Classical.not_imp.1 hx
  refine ⟨x, hv, ?_⟩
  cases hst : x.state with
  | ready => rfl
  | removing => exact absurd hst hs
  | preparing => exact absurd ⟨x, hv, hst⟩ hp

theorem restoreVolume_of_not_absent {r : MgmtStatus × Option MgmtReason} (ha : ¬ d.Absent v)
    (h : d.restoreVolume v = some r) : r = (.busy, some .notReady) := by
  by_cases hp : d.Preparing v
  · exact Option.some.inj (h.symm.trans (restoreVolume_preparing hp))
  · obtain ⟨x, hv, hs⟩ := exists_ready ha hp
    rw [restoreVolume_ready hv hs] at h
    cases h

end

/-! #### The destinations (R121 checks 4 and 5) -/

section
variable {d : Device} {es : List Extent}

theorem destRefusal_absent (h : ∃ e ∈ es, d.Absent e.destVolume) :
    d.destRefusal es = some (.notFound, some .noVolume) := by
  unfold Device.destRefusal
  dsimp only
  cases hf : (es.filterMap fun e => d.restoreVolume e.destVolume).find? fun r => r.1 = .notFound with
  | none =>
    obtain ⟨e, he, ha⟩ := h
    have hmem := List.mem_filterMap (f := fun e => d.restoreVolume e.destVolume).2 ⟨e, he, restoreVolume_absent ha⟩
    exact absurd (List.find?_eq_none.1 hf _ hmem) (by simp)
  | some r =>
    obtain ⟨e, -, hr⟩ := List.mem_filterMap.1 (List.mem_of_find?_eq_some hf)
    have hst : r.1 = .notFound := by simpa using List.find?_some hf
    by_cases ha : d.Absent e.destVolume
    · rw [← hr, restoreVolume_absent ha]
    · rw [restoreVolume_of_not_absent ha hr] at hst
      cases hst

/-- With no destination UNDEFINED or REMOVING, the refusal is that of one PREPARING. -/
theorem destRefusal_of_not_absent (h : ¬ ∃ e ∈ es, d.Absent e.destVolume) :
    d.destRefusal es = (es.filterMap fun e => d.restoreVolume e.destVolume).head? := by
  have hbusy : ∀ r ∈ es.filterMap fun e => d.restoreVolume e.destVolume, r = (.busy, some .notReady) := by
    intro r hr
    obtain ⟨e, he, hr⟩ := List.mem_filterMap.1 hr
    exact restoreVolume_of_not_absent (fun ha => h ⟨e, he, ha⟩) hr
  have hf : ((es.filterMap fun e => d.restoreVolume e.destVolume).find? fun r => r.1 = .notFound) = none :=
    List.find?_eq_none.2 fun r hr => by simp [hbusy r hr]
  unfold Device.destRefusal
  dsimp only
  rw [hf]

theorem destRefusal_preparing (h : ¬ ∃ e ∈ es, d.Absent e.destVolume) (hp : ∃ e ∈ es, d.Preparing e.destVolume) :
    d.destRefusal es = some (.busy, some .notReady) := by
  rw [destRefusal_of_not_absent h]
  cases hf : (es.filterMap fun e => d.restoreVolume e.destVolume) with
  | nil =>
    obtain ⟨e, he, hp⟩ := hp
    have hmem := List.mem_filterMap (f := fun e => d.restoreVolume e.destVolume).2 ⟨e, he, restoreVolume_preparing hp⟩
    rw [hf] at hmem
    cases hmem
  | cons r rs =>
    obtain ⟨e, he, hr⟩ := List.mem_filterMap.1 (hf ▸ List.mem_cons_self : r ∈ _)
    rw [List.head?_cons, restoreVolume_of_not_absent (fun ha => h ⟨e, he, ha⟩) hr]

theorem destRefusal_none (h : ¬ ∃ e ∈ es, d.Absent e.destVolume) (hp : ¬ ∃ e ∈ es, d.Preparing e.destVolume) :
    d.destRefusal es = none := by
  have hnil : (es.filterMap fun e => d.restoreVolume e.destVolume) = [] := List.filterMap_eq_nil_iff.2 fun e he => by
    obtain ⟨x, hv, hs⟩ := exists_ready (fun ha => h ⟨e, he, ha⟩) (fun hq => hp ⟨e, he, hq⟩)
    exact restoreVolume_ready hv hs
  rw [destRefusal_of_not_absent h, hnil]
  rfl

end

/-! #### The checks in their order (R121) -/

section
variable {d : Device} {a : RestoreArgs}

theorem restoreRefusal_bad (hb : a.Bad) : d.restoreRefusal a = some (.badArgument, none) :=
  if_pos ((bad_iff a).2 hb)

section
variable (hb : ¬ a.Bad)
include hb

theorem restoreRefusal_source {r : MgmtStatus × Option MgmtReason} (hs : d.restoreVolume a.source = some r) :
    d.restoreRefusal a = some r := by
  unfold Device.restoreRefusal
  rw [if_neg (mt (bad_iff a).1 hb), hs]

section
variable {x : Volume} (hv : d.volume? a.source = some x) (hs : x.state = .ready)
include hv hs

theorem restoreRefusal_dest {r : MgmtStatus × Option MgmtReason} (hd : d.destRefusal a.extents = some r) :
    d.restoreRefusal a = some r := by
  unfold Device.restoreRefusal
  rw [if_neg (mt (bad_iff a).1 hb), restoreVolume_ready hv hs]
  dsimp only
  rw [hd]

/-- R121 check 6: an extent runs past the source x or its destination. -/
def Device.Outside (d : Device) (a : RestoreArgs) (x : Volume) : Prop :=
  ∃ e ∈ a.extents, e.source + e.count > x.capacity
    ∨ ∃ y, d.volume? e.destVolume = some y ∧ e.dest + e.count > y.capacity

/-- R121 check 8: the restore table holds 24 records, none of them ENDED. -/
def Device.RestoresFull (d : Device) : Prop :=
  d.copy.restores.length ≥ 24 ∧ ∀ r ∈ d.copy.restores, r.state ≠ .ended

section
variable (ha : ¬ ∃ e ∈ a.extents, d.Absent e.destVolume) (hp : ¬ ∃ e ∈ a.extents, d.Preparing e.destVolume)
include ha hp

omit hb hs in
theorem extentOutside_iff : (a.extents.any fun e => d.extentOutside a.source e) = true ↔ d.Outside a x := by
  have hcap : d.capacityOf a.source = x.capacity := by rw [Device.capacityOf, hv]; rfl
  rw [List.any_eq_true]
  refine exists_congr fun e => and_congr_right fun he => ?_
  obtain ⟨y, hy, -⟩ := exists_ready (fun h => ha ⟨e, he, h⟩) (fun h => hp ⟨e, he, h⟩)
  have hdest : d.capacityOf e.destVolume = y.capacity := by rw [Device.capacityOf, hy]; rfl
  simp [Device.extentOutside, hcap, hdest, hy]

/-- The three checks of a RESTORE whose volumes are all READY. -/
theorem restoreRefusal_ready [Decidable (d.Outside a x)]
    [Decidable (∃ n ∈ x.snapshots, n.number = a.snapshot ∧ n.state = .active)] [Decidable d.RestoresFull] :
    d.restoreRefusal a =
      if d.Outside a x then some (.badArgument, some .range)
      else if ∃ n ∈ x.snapshots, n.number = a.snapshot ∧ n.state = .active then
        if d.RestoresFull then some (.full, none) else none
      else some (.notFound, some .snapshot) := by
  have hheld : d.hasActive a.source a.snapshot = true ↔ ∃ n ∈ x.snapshots, n.number = a.snapshot ∧ n.state = .active := by
    simp [Device.hasActive, hv]
  have hfull : d.restoresFull = true ↔ d.RestoresFull := by
    simp [Device.restoresFull, Device.RestoresFull]
  unfold Device.restoreRefusal
  rw [if_neg (mt (bad_iff a).1 hb), restoreVolume_ready hv hs]
  dsimp only
  rw [destRefusal_none ha hp]
  simp only [extentOutside_iff hv ha hp, ← Bool.not_eq_true, hheld, hfull, ite_not]

theorem restoreRefusal_outside (ho : d.Outside a x) : d.restoreRefusal a = some (.badArgument, some .range) := by
  classical rw [restoreRefusal_ready hb hv hs ha hp, if_pos ho]

section
variable (ho : ¬ d.Outside a x)
include ho

theorem restoreRefusal_unlisted (hn : ¬ ∃ n ∈ x.snapshots, n.number = a.snapshot ∧ n.state = .active) :
    d.restoreRefusal a = some (.notFound, some .snapshot) := by
  classical rw [restoreRefusal_ready hb hv hs ha hp, if_neg ho, if_neg hn]

section
variable (hn : ∃ n ∈ x.snapshots, n.number = a.snapshot ∧ n.state = .active)
include hn

theorem restoreRefusal_full (hf : d.RestoresFull) : d.restoreRefusal a = some (.full, none) := by
  classical rw [restoreRefusal_ready hb hv hs ha hp, if_neg ho, if_pos hn, if_pos hf]

theorem restoreRefusal_none (hf : ¬ d.RestoresFull) : d.restoreRefusal a = none := by
  classical rw [restoreRefusal_ready hb hv hs ha hp, if_neg ho, if_pos hn, if_neg hf]

end
end
end
end
end
end

end Sys2Proof.Machine
end

section
/-! ### The first grain of a restore that needs a copy slot (R92, R117, R118) -/

namespace Sys2Proof.Machine

/-- R116: a restore is eligible while it runs uncancelled, its current extent running with grains left to take. -/
theorem Restore.eligible_iff (r : Restore) : r.eligible = true ↔ r.state = .running ∧ r.cancel = false
    ∧ ∃ i f c, r.current = some i ∧ r.extents[i]? = some f ∧ r.cursor = some c ∧ c < f.source + f.count
      ∧ r.outcomes[i]? = some .running := by
  unfold Restore.eligible Restore.hasGrains Restore.currentExtent Restore.currentOutcome
  cases hi : r.current with
  | none => simp
  | some i =>
    cases hf : r.extents[i]? with
    | none => simp [hf]
    | some f =>
      cases hc : r.cursor with
      | none => simp [hf]
      | some c => simp [hf, and_assoc]

section
variable {d : Device} {r : Restore} {e : Extent}

/-! #### The taking of grains (R118) -/

/-- R118: grain g of the extent e lies unwritten since the restore's snapshot, where its copy would go. -/
def Device.InPlace (d : Device) (r : Restore) (e : Extent) (g : Nat) : Prop :=
  (∃ v, d.resolve r.source r.snapshot g = .live v) ∧ e.destVolume = r.source ∧ e.dest + (g - e.source) = g

/-- R118: a grain that is neither unwritten nor in its place ends the taking. -/
theorem takeGrains_found {t : Taking} (hlt : t.cursor < e.source + e.count) (hp : ¬ d.InPlace r e t.cursor)
    (hi : d.resolve r.source r.snapshot t.cursor ≠ .unwritten) (m : Nat) : d.takeGrains r e (m + 1) t =
      { t with cursor := t.cursor + 1, found := some (t.cursor, d.resolve r.source r.snapshot t.cursor) } := by
  rw [Device.takeGrains, if_pos hlt]
  cases him : d.resolve r.source r.snapshot t.cursor with
  | unwritten => exact absurd him hi
  | slot n v => rfl
  | live v => exact if_neg fun h => hp ⟨⟨v, him⟩, h⟩

/-- The first n grains from c on that are unwritten, and those that are not. -/
def Device.unwrittenFrom (d : Device) (r : Restore) (c n : Nat) : Nat :=
  ((List.range' c n).filter fun g => d.resolve r.source r.snapshot g = .unwritten).length

def Device.writtenFrom (d : Device) (r : Restore) (c n : Nat) : Nat :=
  ((List.range' c n).filter fun g => d.resolve r.source r.snapshot g ≠ .unwritten).length

theorem unwrittenFrom_succ (c n : Nat) :
    d.unwrittenFrom r c (n + 1) = d.unwrittenFrom r c 1 + d.unwrittenFrom r (c + 1) n := by
  rw [Device.unwrittenFrom, Nat.add_comm n, ← List.range'_append_1, List.filter_append, List.length_append]
  rfl

theorem writtenFrom_succ (c n : Nat) : d.writtenFrom r c (n + 1) = d.writtenFrom r c 1 + d.writtenFrom r (c + 1) n := by
  rw [Device.writtenFrom, Nat.add_comm n, ← List.range'_append_1, List.filter_append, List.length_append]
  rfl

/-- R118: a grain that is unwritten or in its place is counted and passed over. -/
theorem takeGrains_over {t : Taking} (hlt : t.cursor < e.source + e.count)
    (h : d.resolve r.source r.snapshot t.cursor = .unwritten ∨ d.InPlace r e t.cursor) (m : Nat) :
    d.takeGrains r e (m + 1) t = d.takeGrains r e m { t with
      cursor := t.cursor + 1
      unwritten := t.unwritten + d.unwrittenFrom r t.cursor 1
      alreadyCurrent := t.alreadyCurrent + d.writtenFrom r t.cursor 1 } := by
  rw [Device.takeGrains, if_pos hlt]
  simp only [Device.unwrittenFrom, Device.writtenFrom, List.range'_one, List.filter_singleton]
  rcases h with h | ⟨⟨v, h⟩, hplace⟩
  · simp [h]
  · simp [h, hplace]

/-- R118: the grains up to the first that is neither unwritten nor in its place are passed over, and that one is found. -/
theorem takeGrains_passes {m n : Nat} {t : Taking} (hm : n < m) (hlt : t.cursor + n < e.source + e.count)
    (hover : ∀ g, t.cursor ≤ g → g < t.cursor + n → d.resolve r.source r.snapshot g = .unwritten ∨ d.InPlace r e g)
    (hp : ¬ d.InPlace r e (t.cursor + n)) (hi : d.resolve r.source r.snapshot (t.cursor + n) ≠ .unwritten) :
    d.takeGrains r e m t =
      { cursor := t.cursor + n + 1, unwritten := t.unwritten + d.unwrittenFrom r t.cursor n
        alreadyCurrent := t.alreadyCurrent + d.writtenFrom r t.cursor n
        found := some (t.cursor + n, d.resolve r.source r.snapshot (t.cursor + n)) } := by
  induction n generalizing m t with
  | zero =>
    obtain ⟨m, rfl⟩ : ∃ k, m = k + 1 := ⟨m - 1, by omega⟩
    exact takeGrains_found hlt hp hi m
  | succ n ih =>
    obtain ⟨m, rfl⟩ : ∃ k, m = k + 1 := ⟨m - 1, by omega⟩
    have hnext : t.cursor + (n + 1) = t.cursor + 1 + n := by omega
    rw [hnext] at hlt hp hi ⊢
    have hrest : ∀ g, t.cursor + 1 ≤ g → g < t.cursor + 1 + n →
        d.resolve r.source r.snapshot g = .unwritten ∨ d.InPlace r e g := fun g h1 h2 => hover g (by omega) (by omega)
    rw [takeGrains_over (by omega) (hover t.cursor (by omega) (by omega)), ih (Nat.lt_of_succ_lt_succ hm) hlt hrest hp hi]
    simp only [unwrittenFrom_succ t.cursor n, writtenFrom_succ t.cursor n, Nat.add_assoc]

end

/-! #### The read of the slot (R92) -/

section
variable {d : Device} {k : SlotId} {z : CopySlot}

theorem readAsked_setSlot (d : Device) (k : SlotId) (z : CopySlot) :
    (d.setSlot k (some z)).readAsked k z = d.readAsked k z := by
  simp only [Device.readAsked, Device.setSlot, Vector.set_set]
  rfl

/-- R11, R14: with the pool link UP a copy read joins class COPY. -/
theorem requestRead_up (hl : d.pool.link = .up) (k : SlotId) (addr : Nat) :
    d.requestRead k addr = (d.joinPool { requester := .slot k, op := .read addr 8 }, []) :=
  if_neg (by rw [hl]; decide)

/-- R92, R93: the image of a slot in READING is read; a live one is registered on the grain's entry, for which a place
is free. -/
theorem startRead_asks (hz : d.slot? k = some z) (hi : d.resolve z.volume z.snapshot z.grain = z.image)
    (hw : z.image ≠ .unwritten)
    (hp : (∃ v, z.image = .live v) → d.entry? z.volume z.grain = none → d.pres.table.length < 256)
    (hl : d.pool.link = .up) : perform (.startRead k) d = (d.readAsked k z, []) := by
  obtain ⟨stream, volume, grain, snapshot, image, destVolume, destGrain, declared, phase⟩ := z
  dsimp only at hi
  show startRead k d = _
  cases image with
  | unwritten => exact absurd rfl hw
  | slot n v =>
    simp only [startRead, hz, hi]
    exact requestRead_up (d := d.setSlot k (some _)) hl k _
  | live v =>
    let held : Device := d.setSlot k
      (some ⟨stream, volume, grain, snapshot, .live v, destVolume, destGrain, declared, phase⟩)
    simp only [startRead, hz, hi, Device.readAsked]
    cases he : d.entry? volume grain with
    | some m =>
      have hentry : held.entry? volume grain = some m := he
      rw [show d.setSlot k _ = held from rfl, hentry]
      dsimp only
      rw [onEntry_eq hentry]
      exact requestRead_up (d := held.withEntry volume grain _) hl k _
    | none =>
      have hentry : held.entry? volume grain = none := he
      have hplace : held.hasPlace = true := decide_eq_true (hp ⟨v, rfl⟩ he)
      rw [show d.setSlot k _ = held from rfl, hentry]
      dsimp only
      rw [if_pos hplace]
      exact requestRead_up (d := held.setEntry _) hl k _

/-! #### What a copy read that is asked for leaves alone -/

@[simp] theorem readAsked_restores (d : Device) (k : SlotId) (z : CopySlot) :
    (d.readAsked k z).copy.restores = d.copy.restores := by
  unfold Device.readAsked
  cases z.image with
  | unwritten => rfl
  | slot n v => exact joinPool_restores _ _
  | live v => exact joinPool_restores _ _

/-- With the one FREE slot given to a read all slots are taken. -/
theorem slots_taken_readAsked (h : ∀ l, l ≠ k → d.slot? l ≠ none) (z : CopySlot) (l : SlotId) :
    (d.readAsked k z).slot? l ≠ none := by
  have hset := slots_taken_setSlot h z
  unfold Device.readAsked
  cases z.image with
  | unwritten => exact hset l
  | slot n v => exact slots_taken_joinPool (d := d.setSlot k (some z)) hset _ l
  | live v => exact slots_taken_joinPool (d := (d.setSlot k (some z)).withEntry z.volume z.grain _) hset _ l

/-- R11 to R13: with no other request waiting a copy read is issued under the lowest FREE unreserved tag, or waits for
one. -/
theorem joinPool_read (hz : d.slot? k = some z) (hp : z.phase = .reading) (h1 : d.pool.preserveQ = [])
    (h2 : d.pool.pathQ = []) (h3 : d.pool.copyQ = []) (op : PoolOp) : d.joinPool { requester := .slot k, op := op } =
      match d.pool.freeUnreserved with
      | some j => { d with
        pool.tags := d.pool.tags.set j.val (.busy (.slot k) d.clock.now) j.isLt, pool.copyQ := [], pool.streak := 0
        out := d.out ++ [.pool j op] }
      | none => { d with pool.copyQ := [{ requester := .slot k, op := op }] } := by
  let r : PoolRequest := { requester := .slot k, op := op }
  have hjoin : d.joinPool r = ({ d with pool.copyQ := [r] } : Device).grantPool := by
    rw [Device.joinPool, h3]
    rfl
  show d.joinPool r = _
  rw [hjoin]
  cases hf : d.pool.freeUnreserved with
  | none => exact grantPool_none _ (grantOne_noUnreserved _ h1 hf)
  | some j =>
    have hone := grantOne_copyHead { d with pool.copyQ := [r] } (rest := []) h1 hf rfl (.inl h2)
    have hidle := grantOne_idle (({ d with pool.copyQ := [], pool.streak := 0 } : Device).issue j r)
      (by rw [issue_preserveQ]; exact h1) (by rw [issue_pathQ]; exact h2) (by rw [issue_copyQ])
    exact (grantPool_once hone hidle).trans
      (issue_slot_reading { d with pool.copyQ := [], pool.streak := 0 } j op hz hp)

/-- With no other request waiting a copy read looks at no transaction. -/
theorem joinPool_read_taken (hz : d.slot? k = some z) (hp : z.phase = .reading) (h1 : d.pool.preserveQ = [])
    (h2 : d.pool.pathQ = []) (h3 : d.pool.copyQ = []) (op : PoolOp) (p : PortId) (tag : Nat) (t : Txn) :
    (d.taken p tag t).joinPool { requester := .slot k, op := op } =
      (d.joinPool { requester := .slot k, op := op }).taken p tag t := by
  have htaken : (d.taken p tag t).slot? k = some z := hz
  rw [joinPool_read hz hp h1 h2 h3, joinPool_read htaken hp h1 h2 h3]
  show (match d.pool.freeUnreserved with
    | some j => _
    | none => _) = _
  cases d.pool.freeUnreserved <;> rfl

theorem readAsked_taken (hp : z.phase = .reading) (h1 : d.pool.preserveQ = []) (h2 : d.pool.pathQ = [])
    (h3 : d.pool.copyQ = []) (p : PortId) (tag : Nat) (t : Txn) :
    (d.taken p tag t).readAsked k z = (d.readAsked k z).taken p tag t := by
  have hz : (d.setSlot k (some z)).slot? k = some z := slot_setSlot_same _
  unfold Device.readAsked
  cases z.image with
  | unwritten => rfl
  | slot n v => exact joinPool_read_taken (d := d.setSlot k (some z)) hz hp h1 h2 h3 _ p tag t
  | live v =>
    exact joinPool_read_taken (d := (d.setSlot k (some z)).withEntry z.volume z.grain _) hz hp h1 h2 h3 _ p tag t

end

/-! #### The grant (R117) -/

section
variable {d : Device} {k : SlotId} {before after : List Restore} {r : Restore}

/-- R117: the one FREE slot goes to the chosen restore, unless the pass is eligible and was not served last. -/
theorem grantSlot_restore (hk : d.slot? k = none) (hfull : ∀ l, l ≠ k → d.slot? l ≠ none)
    (hr : d.chosenRestore = some r) (hp : d.PassUnready ∨ d.copy.lastServed ≠ some .restore) :
    perform .grant d = d.grantRestore k r := by
  show grantSlot d = _
  simp only [grantSlot, freeSlot_only hk hfull, hr]
  rcases hp with hp | hp
  · simp only [hp.not_eligible, Bool.false_eq_true, if_false]
  · simp only [if_neg hp]
    by_cases he : d.passEligible = true
    · rw [if_pos he]
      cases d.dup.pass with
      | none => rfl
      | some q => cases d.readyPlace <;> rfl
    · rw [if_neg he]

/-- R118: the record once u unwritten grains and w grains in their place were passed over and grain g given a slot. -/
def Restore.copying (r : Restore) (g u w : Nat) : Restore := { r with
  cursor := some (g + 1), inFlight := r.inFlight + 1, unwritten := r.unwritten + u, alreadyCurrent := r.alreadyCurrent + w }

/-- R115: the slot record of grain g of a restore's extent f, with this image. -/
def Restore.readSlot (r : Restore) (f : Extent) (g : Nat) (image : Image) : CopySlot :=
  { stream := .restore r.id, volume := r.source, grain := g, snapshot := r.snapshot, image := image
    destVolume := f.destVolume, destGrain := f.dest + (g - f.source), declared := if f.fresh then 1 else 0
    phase := .reading }

/-- R117: the part with a slot given to grain g of a restore, its read not yet asked for. -/
def Device.restoreServed (d : Device) (before : List Restore) (r : Restore) (after : List Restore) (g u w : Nat) : Device :=
  { d with
    copy.restores := before ++ r.copying g u w :: after, copy.lastServed := some .restore, copy.cursor := r.id }

theorem Device.HoldsRestore.grantRestore_found (h : d.HoldsRestore before r after) {f : Extent} {c g u w : Nat}
    {image : Image} (hf : r.currentExtent = some f) (hc : r.cursor = some c)
    (ht : d.takeGrains r f f.count { cursor := c, unwritten := 0, alreadyCurrent := 0, found := none } =
      { cursor := g + 1, unwritten := u, alreadyCurrent := w, found := some (g, image) }) :
    d.grantRestore k r = ((d.restoreServed before r after g u w).setSlot k (some (r.readSlot f g image)),
      [.startRead k, .grant]) := by
  let taken : Restore := { r with
    cursor := some (g + 1), unwritten := r.unwritten + u, alreadyCurrent := r.alreadyCurrent + w }
  let moved : Device := { d with copy.restores := before ++ taken :: after }
  have hmoved : moved.HoldsRestore before taken after := ⟨rfl, h.others⟩
  have hcounted := hmoved.onRestore fun x => { x with inFlight := x.inFlight + 1 }
  dsimp only [taken] at hcounted
  simp only [Device.grantRestore, hf, hc, ht, h.onRestore]
  rw [hcounted]
  rfl

/-- R92, R117, R118: the one FREE slot is given to grain g of the only eligible restore, and the read of its image is
asked for. -/
theorem Device.HoldsRestore.runs_grant_found (h : d.HoldsRestore before r after) {f : Extent} {c g u w : Nat}
    (hk : d.slot? k = none) (hfull : ∀ l, l ≠ k → d.slot? l ≠ none) (hr : r.eligible = true)
    (ho : ∀ q ∈ before ++ after, q.eligible = false) (hp : d.PassUnready ∨ d.copy.lastServed ≠ some .restore)
    (hf : r.currentExtent = some f) (hc : r.cursor = some c)
    (ht : d.takeGrains r f f.count { cursor := c, unwritten := 0, alreadyCurrent := 0, found := none } =
      { cursor := g + 1, unwritten := u, alreadyCurrent := w, found := some (g, d.resolve r.source r.snapshot g) })
    (hi : d.resolve r.source r.snapshot g ≠ .unwritten)
    (hplace : (∃ v, d.resolve r.source r.snapshot g = .live v) → d.entry? r.source g = none → d.pres.table.length < 256)
    (hl : d.pool.link = .up) :
    Runs 3 [.grant] d ((d.restoreServed before r after g u w).readAsked k
      (r.readSlot f g (d.resolve r.source r.snapshot g))) := by
  let z : CopySlot := r.readSlot f g (d.resolve r.source r.snapshot g)
  let served : Device := d.restoreServed before r after g u w
  have hgrant : perform .grant d = (served.setSlot k (some z), [.startRead k, .grant]) :=
    (grantSlot_restore hk hfull (h.chosen hr ho) hp).trans (h.grantRestore_found hf hc ht)
  have hstart : perform (.startRead k) (served.setSlot k (some z)) = (served.readAsked k z, []) :=
    (startRead_asks (d := served.setSlot k (some z)) (slot_setSlot_same _) rfl hi hplace hl).trans
      (congrArg (·, []) (readAsked_setSlot served k z))
  have hquiet : perform .grant (served.readAsked k z) = (served.readAsked k z, []) :=
    grant_full (slots_taken_readAsked (d := served) hfull z)
  exact Runs.task hgrant ((Runs.one hstart).cons (Runs.one hquiet))

end

end Sys2Proof.Machine
end

section
/-! ### The acceptance of RESTORE (O47) -/

namespace Sys2Proof.Machine

/-! #### The taking of the command -/

/-- The transaction holds the untaken command RESTORE with the arguments a, from a MANAGER port, and RESET# is high. -/
structure State.AsksRestore (s : State) (p : PortId) (tag : Nat) (t : Txn) (a : RestoreArgs) : Prop where
  high : s.dev.resetLow = false
  txn : s.dev.txn? p tag = some t
  command : ∃ c, t.command = some c ∧ c.isNamed .restore = true ∧ readRestore c.area = some a
  role : (s.dev.port p).role = .manager

section
variable {s : State} {p : PortId} {tag : Nat} {t : Txn} {a : RestoreArgs} (h : s.AsksRestore p tag t a)
include h

theorem exec_restore : exec (.restore p tag) s =
    .next { s with dev := settle ((s.dev.taken p tag t).restoreCommand p tag a) } := by
  obtain ⟨hl, ht, ⟨c, hc, hn, ha⟩, hr⟩ := h
  have hrole : ¬ (((s.dev.setTxn p tag { t with command := none }).port p).role = .data
      ∧ CommandName.restore.forData = false) := fun hd => by
    rw [show ((s.dev.setTxn p tag { t with command := none }).port p).role = .manager from hr] at hd
    exact absurd hd.1 (by decide)
  simp only [exec, execRestore, event_high _ hl, Device.take, ht, hc, hn, ha, if_true, if_neg hrole]
  rfl

theorem exec_restore_refused {r : MgmtStatus × Option MgmtReason} (hr : s.dev.restoreRefusal a = some r) :
    exec (.restore p tag) s = .next { s with dev := s.dev.answered p tag t r.1 r.2 [] } := by
  have htaken : (s.dev.taken p tag t).restoreRefusal a = some r := hr
  simp only [exec_restore h, Device.restoreCommand, htaken, settle_nil, reply_taken]

end

/-! #### The record made (R120, R122) -/

/-- R122: the next id given is the first after the last one that no record holds. -/
theorem nextId_eq {used : List Nat} {m n i : Nat} (hn : n ≤ m) (hu : ∀ k, k < n → idAfter^[k + 1] i ∈ used)
    (hf : idAfter^[n + 1] i ∉ used) : nextId used m i = idAfter^[n + 1] i := by
  induction m generalizing n i with
  | zero => rw [Nat.le_zero.1 hn]; rfl
  | succ m ih =>
    cases n with
    | zero => exact if_neg hf
    | succ n =>
      rw [nextId, if_pos (show idAfter i ∈ used from hu 0 n.succ_pos),
        ih (Nat.le_of_succ_le_succ hn) (fun k hk => hu (k + 1) (by omega)) hf]
      rfl

/-- R122: what the acceptance of a RESTORE finds: the records rs that an eviction leaves, with the order in which they
ended, and the next id. -/
structure Device.MakesRoom (d : Device) (rs : List Restore) (order : List Nat) (id : Nat) : Prop where
  room : (d.copy.restores.length < 24 ∧ rs = d.copy.restores ∧ order = d.copy.endedOrder)
    ∨ (d.copy.restores.length ≥ 24 ∧ (∃ r ∈ d.copy.restores, r.state = .ended)
      ∧ ∃ old, d.copy.endedOrder = old :: order ∧ rs = d.copy.restores.filter fun r => r.id ≠ old)
  next : nextId (rs.map Restore.id) 24 d.copy.lastId = id
  fresh : ∀ r ∈ rs, r.id ≠ id

section
variable {d : Device} {rs : List Restore} {order : List Nat} {id : Nat}

theorem Device.MakesRoom.not_full (h : d.MakesRoom rs order id) : ¬ d.RestoresFull := fun ⟨hlen, hall⟩ => by
  rcases h.room with ⟨hlt, -⟩ | ⟨-, ⟨r, hr, hs⟩, -⟩
  · omega
  · exact hall r hr hs

theorem Device.MakesRoom.evictRestore (h : d.MakesRoom rs order id) :
    d.evictRestore = { d with copy.restores := rs, copy.endedOrder := order } := by
  rcases h.room with ⟨hlt, rfl, rfl⟩ | ⟨hge, -, old, ho, rfl⟩
  · exact if_neg (Nat.not_le.2 hlt)
  · rw [Device.evictRestore, if_pos hge, ho]

end

/-- R112: the volume with one more pin on snapshot k. -/
def Volume.pinned (x : Volume) (k : Nat) : Volume := { x with
  snapshots := x.snapshots.map fun n => if n.number = k then { n with pins := n.pins + 1 } else n }

/-- R112, R122: the part with a RESTORE accepted: its record r at the tail of the records rs, the snapshot of the source x
pinned. -/
def Device.restoreAccepted (d : Device) (x : Volume) (rs : List Restore) (order : List Nat) (r : Restore) : Device :=
  { d with
    volumes := d.volumes.insert r.source (x.pinned r.snapshot)
    copy.restores := rs ++ [r]
    copy.endedOrder := order
    copy.lastId := r.id }

theorem acceptRestore_eq {d : Device} {a : RestoreArgs} {x : Volume} {rs : List Restore} {order : List Nat} {id : Nat}
    (h : d.MakesRoom rs order id) (hx : d.volume? a.source = some x) (p : PortId) (tag : Nat) :
    d.acceptRestore p tag a = (d.restoreAccepted x rs order (a.record id), [.promote, .replyRestore p tag id]) := by
  unfold Device.acceptRestore
  simp only [h.evictRestore, h.next]
  let listed : Device := { d with copy.restores := rs ++ [a.record id], copy.endedOrder := order, copy.lastId := id }
  have hpin : listed.pin a.source a.snapshot = listed.setVolume a.source (x.pinned a.snapshot) :=
    onVolume_eq (d := listed) hx _
  exact congrArg (·, _) hpin

/-- The new record stands at the tail of the table. -/
theorem Device.MakesRoom.holds {d f : Device} {rs : List Restore} {order : List Nat} {id : Nat} {r : Restore}
    (h : d.MakesRoom rs order id) (hf : f.copy.restores = rs ++ [r]) (hr : r.id = id) : f.HoldsRestore rs r [] :=
  ⟨hf, fun q hq => hr ▸ h.fresh q (by simpa using hq)⟩

/-! #### The record that runs at once -/

/-- R120, R122: the record of a restore that runs at its acceptance, e its first extent. -/
def RestoreArgs.started (a : RestoreArgs) (id : Nat) (e : Extent) (es : List Extent) : Restore :=
  { id := id, state := .running, cancel := false, source := a.source, snapshot := a.snapshot, account := a.account
    extents := a.extents, current := some 0, cursor := some e.source, inFlight := 0, copied := 0, unwritten := 0
    alreadyCurrent := 0, outcomes := .running :: es.map fun _ => .pending, outcome := none, reason := none }

section
variable {a : RestoreArgs} {e : Extent} {es : List Extent}

@[simp] theorem started_state (id : Nat) : (a.started id e es).state = .running := rfl

theorem promoted_record (he : a.extents = e :: es) (id : Nat) : (a.record id).promoted = a.started id e es := by
  simp [Restore.promoted, Restore.enterExtent, RestoreArgs.record, RestoreArgs.started, he]

theorem started_eligible (he : a.extents = e :: es) (hc : 0 < e.count) (id : Nat) :
    (a.started id e es).eligible = true :=
  (Restore.eligible_iff _).2 ⟨rfl, rfl, 0, e, e.source, rfl, by rw [RestoreArgs.started, he]; rfl, rfl, by omega, rfl⟩

/-- A pin changes no image. -/
theorem resolve_restoreAccepted {d : Device} {x : Volume} {r : Restore} (hx : d.volume? r.source = some x)
    (rs : List Restore) (order : List Nat) (k g : Nat) :
    (d.restoreAccepted x rs order r).resolve r.source k g = d.resolve r.source k g := by
  have hv : (d.restoreAccepted x rs order r).volume? r.source = some (x.pinned r.snapshot) := Table.find_insert_same ..
  simp only [Device.resolve, hv, hx]
  rfl

end

section
variable {s : State} {p : PortId} {tag : Nat} {t : Txn} {a : RestoreArgs} {x : Volume} {rs : List Restore}
  {order : List Nat} {id : Nat} (h : s.AsksRestore p tag t a) (hr : s.dev.restoreRefusal a = none)
  (hx : s.dev.volume? a.source = some x) (hroom : s.dev.MakesRoom rs order id)
include h hr hx hroom

/-- R122: an accepted RESTORE is answered with its id and the state of its record y, as it stands in the part e once the
promotion and the grants have been made. -/
theorem exec_restore_accepted {e : Device} {older newer : List Restore} {y : Restore} {b : Nat}
    (hruns : Runs b [.promote] ((s.dev.restoreAccepted x rs order (a.record id)).taken p tag t) (e.taken p tag t))
    (hb : b ≤ 90) (he : e.HoldsRestore older y newer) (hy : y.id = id) : exec (.restore p tag) s =
      .next { s with dev := e.answered p tag t .ok none [.num 2 id, .name y.state.name] } := by
  have hreply : perform (.replyRestore p tag id) (e.taken p tag t) =
      (e.answered p tag t .ok none [.num 2 id, .name y.state.name], []) := by
    have hfind : (e.taken p tag t).restore? id = some y := hy ▸ he.find
    show replyRestore p tag id _ = _
    simp only [replyRestore, hfind, reply_taken]
  have htaken : (s.dev.taken p tag t).restoreRefusal a = none := hr
  have hmakes : (s.dev.taken p tag t).MakesRoom rs order id := ⟨hroom.room, hroom.next, hroom.fresh⟩
  rw [exec_restore h, Device.restoreCommand, htaken]
  dsimp only
  rw [acceptRestore_eq hmakes (x := x) hx]
  exact congrArg (fun f : Device => Host.Outcome.next { s with dev := f })
    ((hruns.append (Runs.one hreply)).settle (by omega))

/-- R122: while 8 restores run the new one waits, QUEUED. -/
theorem exec_restore_waits (hn : (rs.filter fun r => r.state = .running).length ≥ 8) : exec (.restore p tag) s =
    .next { s with
      dev := (s.dev.restoreAccepted x rs order (a.record id)).answered p tag t .ok none [.num 2 id, .name .queued] } := by
  let d : Device := (s.dev.restoreAccepted x rs order (a.record id)).taken p tag t
  have hheld : d.HoldsRestore rs (a.record id) [] := hroom.holds rfl rfl
  have hpromote : perform .promote d = (d, []) := promote_full <| by
    rw [hheld.runningCount, List.append_nil]
    exact Nat.le_add_right_of_le hn
  exact exec_restore_accepted h hr hx hroom (Runs.one hpromote) (by decide)
    (hroom.holds (r := a.record id) rfl rfl) rfl

section
variable {e : Extent} {es : List Extent} (he : a.extents = e :: es)
  (hn : (rs.filter fun r => r.state = .running).length < 8) (hq : ∀ r ∈ rs, r.state ≠ .queued)
include he hn hq

/-- R122: with fewer than 8 running and no older one QUEUED, the new restore runs with its first extent; what is left is
the grant of a copy slot. -/
theorem exec_restore_runs {f : Device} {older newer : List Restore} {y : Restore} {b : Nat}
    (hruns : Runs b [.grant] ((s.dev.restoreAccepted x rs order (a.started id e es)).taken p tag t) (f.taken p tag t))
    (hb : b ≤ 80) (hf : f.HoldsRestore older y newer) (hy : y.id = id) : exec (.restore p tag) s =
      .next { s with dev := f.answered p tag t .ok none [.num 2 id, .name y.state.name] } := by
  let d : Device := (s.dev.restoreAccepted x rs order (a.record id)).taken p tag t
  let u : Device := (s.dev.restoreAccepted x rs order (a.started id e es)).taken p tag t
  have hheld : d.HoldsRestore rs (a.record id) [] := hroom.holds rfl rfl
  have hcount : d.runningCount < 8 := by
    rw [hheld.runningCount, List.append_nil]
    exact hn
  have hpromote : perform .promote d = (u, [.promote, .grant]) := by
    rw [hheld.promote rfl hq hcount, promoted_record he]
    rfl
  have hquiet : perform .promote u = (u, []) := promote_quiet fun q hm => by
    rcases List.mem_append.1 (show q ∈ rs ++ [a.started id e es] from hm) with hm | hm
    · exact hq q hm
    · rw [List.mem_singleton.1 hm, started_state]
      decide
  exact exec_restore_accepted h hr hx hroom (Runs.task hpromote ((Runs.one hquiet).cons hruns)) (by omega) hf hy

/-- R122: with no copy slot FREE nothing follows. -/
theorem exec_restore_runs_full (hfull : ∀ k, s.dev.slot? k ≠ none) : exec (.restore p tag) s =
    .next { s with
      dev := (s.dev.restoreAccepted x rs order (a.started id e es)).answered p tag t .ok none
        [.num 2 id, .name .running] } := by
  exact exec_restore_runs h hr hx hroom he hn hq (Runs.one (grant_full hfull)) (by decide)
    (hroom.holds (r := a.started id e es) rfl rfl) rfl

/-- R92, R117, R118, R122: the one FREE slot is given to the first grain g that needs one. -/
theorem exec_restore_runs_read {k : SlotId} {g : Nat} (hk : s.dev.slot? k = none)
    (hfull : ∀ l, l ≠ k → s.dev.slot? l ≠ none) (hl : s.dev.pool.link = .up)
    (hp : s.dev.PassUnready ∨ s.dev.copy.lastServed ≠ some .restore) (h1 : s.dev.pool.preserveQ = [])
    (h2 : s.dev.pool.pathQ = []) (h3 : s.dev.pool.copyQ = []) (ho : ∀ r ∈ rs, r.eligible = false)
    (hlo : e.source ≤ g) (hhi : g < e.source + e.count)
    (hover : ∀ i, e.source ≤ i → i < g →
      s.dev.resolve a.source a.snapshot i = .unwritten ∨ s.dev.InPlace (a.record id) e i)
    (hg : ¬ s.dev.InPlace (a.record id) e g) (hi : s.dev.resolve a.source a.snapshot g ≠ .unwritten)
    (hplace : (∃ v, s.dev.resolve a.source a.snapshot g = .live v) → s.dev.entry? a.source g = none →
      s.dev.pres.table.length < 256) :
    let unwritten : Nat := s.dev.unwrittenFrom (a.record id) e.source (g - e.source)
    let current : Nat := s.dev.writtenFrom (a.record id) e.source (g - e.source)
    exec (.restore p tag) s = .next { s with
      dev := Device.answered (((s.dev.restoreAccepted x rs order (a.started id e es)).restoreServed rs (a.started id e es)
          [] g unwritten current).readAsked k ((a.record id).readSlot e g (s.dev.resolve a.source a.snapshot g)))
        p tag t .ok none [.num 2 id, .name .running] } := by
  intro unwritten current
  let y : Restore := a.started id e es
  let accepted : Device := s.dev.restoreAccepted x rs order y
  let d : Device := accepted.taken p tag t
  have himage (i : Nat) : d.resolve a.source a.snapshot i = s.dev.resolve a.source a.snapshot i :=
    resolve_restoreAccepted (r := y) hx rs order a.snapshot i
  have hsame (i : Nat) : d.InPlace y e i ↔ s.dev.InPlace (a.record id) e i := by
    show (∃ v, d.resolve a.source a.snapshot i = .live v) ∧ _ ↔ _
    rw [himage]
    rfl
  have hsum : e.source + (g - e.source) = g := Nat.add_sub_cancel' hlo
  have hunwritten : d.unwrittenFrom y e.source (g - e.source) = unwritten := by
    show ((List.range' _ _).filter fun i => d.resolve a.source a.snapshot i = .unwritten).length = _
    simp only [himage]
    rfl
  have hwritten : d.writtenFrom y e.source (g - e.source) = current := by
    show ((List.range' _ _).filter fun i => d.resolve a.source a.snapshot i ≠ .unwritten).length = _
    simp only [himage]
    rfl
  have htaken : d.takeGrains y e e.count { cursor := e.source, unwritten := 0, alreadyCurrent := 0, found := none } =
      { cursor := g + 1, unwritten := unwritten, alreadyCurrent := current
        found := some (g, d.resolve y.source y.snapshot g) } := by
    have hpasses := takeGrains_passes (d := d) (r := y) (e := e) (m := e.count) (n := g - e.source)
      (t := { cursor := e.source, unwritten := 0, alreadyCurrent := 0, found := none }) (by omega)
      (by show e.source + (g - e.source) < _; omega)
      (fun i h1 h2 => (hover i h1 (hsum ▸ h2)).imp ((himage i).trans ·) (hsame i).2)
      (by show ¬ d.InPlace y e (e.source + (g - e.source)); rw [hsum]; exact mt (hsame g).1 hg)
      (by show d.resolve a.source a.snapshot (e.source + (g - e.source)) ≠ _; rw [hsum, himage]; exact hi)
    dsimp only at hpasses
    rw [hsum, hunwritten, hwritten, Nat.zero_add, Nat.zero_add] at hpasses
    exact hpasses
  have hheld : d.HoldsRestore rs y [] := hroom.holds rfl rfl
  have hextent : y.currentExtent = some e := by
    simp [y, Restore.currentExtent, RestoreArgs.started, he]
  have hruns := hheld.runs_grant_found (k := k) hk hfull (started_eligible he (by omega) id)
    (fun q hq => ho q (by simpa using hq)) hp hextent rfl htaken (fun hu => hi ((himage g).symm.trans hu))
    (fun ⟨v, hv⟩ => hplace ⟨v, (himage g).symm.trans hv⟩) hl
  let served : Device := accepted.restoreServed rs y [] g unwritten current
  let z : CopySlot := y.readSlot e g (s.dev.resolve a.source a.snapshot g)
  have hread : (d.restoreServed rs y [] g unwritten current).readAsked k
      (y.readSlot e g (d.resolve y.source y.snapshot g)) = (served.readAsked k z).taken p tag t := by
    rw [show d.resolve y.source y.snapshot g = _ from himage g]
    exact readAsked_taken (d := served) (z := z) rfl h1 h2 h3 p tag t
  rw [hread] at hruns
  exact exec_restore_runs h hr hx hroom he hn hq hruns (by decide)
    (hroom.holds (r := y.copying g unwritten current) (readAsked_restores served k z) rfl) rfl

end

end

end Sys2Proof.Machine
end
section
/-! ### RESTORE (O47) -/

namespace Sys2Proof.Machine

/-- The record of a restore whose first extent passed u and w grains before it gave grain g a slot. -/
theorem copying_started (a : RestoreArgs) (id : Nat) (e : Extent) (es : List Extent) (g u w : Nat) :
    (a.started id e es).copying g u w = { a.started id e es with
      cursor := some (g + 1), inFlight := 1, unwritten := u, alreadyCurrent := w } := by
  simp [Restore.copying, RestoreArgs.started]

/-- Settles O47: each check by the refusal it gives, the acceptance by the promotion and the grant that follow it. -/
theorem restoreStarts : Obligations.RestoreStarts := by
  unfold Obligations.RestoreStarts
  intro s p tag t c a hl ht hc hn ha hrole Refused bad absent preparing someDest
  have h : s.AsksRestore p tag t a := ⟨hl, ht, ⟨c, hc, hn, ha⟩, hrole⟩
  refine ⟨fun hb => exec_restore_refused h (restoreRefusal_bad hb),
    fun hb hs => exec_restore_refused h (restoreRefusal_source hb (restoreVolume_absent hs)),
    fun hb hs => exec_restore_refused h (restoreRefusal_source hb (restoreVolume_preparing hs)), ?_⟩
  intro x hb hv hs outside held full
  refine ⟨fun hd => exec_restore_refused h (restoreRefusal_dest hb hv hs (destRefusal_absent hd)),
    fun hd hq => exec_restore_refused h (restoreRefusal_dest hb hv hs (destRefusal_preparing hd hq)),
    fun hd hq ho => exec_restore_refused h (restoreRefusal_outside hb hv hs hd hq ho),
    fun hd hq ho hh => exec_restore_refused h (restoreRefusal_unlisted hb hv hs hd hq ho hh),
    fun hd hq ho hh hf => exec_restore_refused h (restoreRefusal_full hb hv hs hd hq ho hh hf), ?_⟩
  intro hd hq ho hh rs order n hrs after id hn24 hused hfresh running record accepted Becomes
  have hnext : nextId (rs.map Restore.id) 24 s.dev.copy.lastId = id :=
    nextId_eq hn24 (fun m hm => List.mem_map.2 (hused m hm)) fun hm => by
      obtain ⟨r, hr, hid⟩ := List.mem_map.1 hm
      exact hfresh r hr hid
  have hroom : s.dev.MakesRoom rs order id := ⟨hrs, hnext, hfresh⟩
  have hr : s.dev.restoreRefusal a = none := restoreRefusal_none hb hv hs hd hq ho hh hroom.not_full
  refine ⟨fun hrun => exec_restore_waits h hr hv hroom hrun, ?_⟩
  intro e es he hrun hqueued started
  refine ⟨fun hfull => exec_restore_runs_full h hr hv hroom he hrun hqueued hfull, ?_⟩
  intro k g hk hfull hlink hpass h1 h2 h3 hothers image inPlace hlo hhi hover hg hi hplace passed granted
  have hidle (r : Restore) (hm : r ∈ rs) : r.eligible = false := Bool.eq_false_iff.2 fun hel => by
    obtain ⟨hst, hca, i, f, c, hcur, hext, hcu, hlt, hout⟩ := r.eligible_iff.1 hel
    exact absurd hlt (Nat.not_lt.2 (hothers r hm i f c hst hca hcur hext hcu hout))
  have hread := exec_restore_runs_read h hr hv hroom he hrun hqueued hk hfull hlink ((or_assoc).2 hpass) h1 h2 h3 hidle
    hlo hhi hover hg hi hplace
  simp only [Device.restoreServed, copying_started] at hread
  exact hread

end Sys2Proof.Machine
end

section
/-! ### The frames the transmitter takes (R145) -/

namespace Sys2Proof.Machine

/-- A unit written with the ATTENTION it has. -/
theorem Duplication.attention_eta {u : Duplication} {a : Option Nat} (h : u.attention = a) :
    { u with attention := a } = u := by
  subst h
  rfl

section
variable {d : Device} {m : Nat} (hl : d.dup.link = .ready m) (ht : d.dup.transmitting = none)
include hl ht

/-- R145: what an idle transmitter on a READY link looks at, in its order. -/
theorem transmit_idle : transmit d =
    match d.dup.attention with
    | some c => ({ d with dup.attention := none }.transmitFrame (.attention c), [])
    | none =>
      match d.dup.batches.find? fun b => b.shutWaits with
      | some b =>
        ((d.onBatch b.sequence fun b => { b with shutWaits := false }).transmitFrame
          (.shut b.sequence b.grains.length b.check), [])
      | none =>
        match d.dup.pass with
        | none => (d, [])
        | some p =>
          if p.passEndWaits then
            ((d.onPass fun p => { p with passEndWaits := false }).transmitFrame
              (.passEnd p.target (p.snapshot.getD 0) p.sent), [])
          else (d.takeStaged p, [.passCheck]) := by
  unfold transmit
  exact if_neg (by simp [hl, ht, OffsiteLink.isReady])

theorem transmit_attention {c : Nat} (ha : d.dup.attention = some c) :
    perform .transmit d = ({ d with dup.attention := none }.transmitFrame (.attention c), []) := by
  show transmit d = _
  rw [transmit_idle hl ht, ha]

end

end Sys2Proof.Machine
end

section
/-! ### STAGING SET, PASS STATUS and SIGNAL PEER (O51) -/

namespace Sys2Proof.Machine

section
variable {s : State} {p : PortId} {tag : Nat} {t : Txn}

/-! #### STAGING SET (R159) -/

/-- R159: the marks and timers that a STAGING SET may not give. -/
theorem Settings.bad_iff (s : Settings) : s.bad = true ↔ s.low < 1 ∨ s.low > 62 ∨ s.high < 2 ∨ s.high > 63
    ∨ s.low ≥ s.high ∨ s.idleClose < 1 ∨ s.idleClose > 255 ∨ s.ackTimeout < 1 ∨ s.ackTimeout > 255 := by
  simp only [Settings.bad, Bool.or_eq_true, decide_eq_true_eq, or_assoc]

theorem exec_stagingSet {args : List Arg} (h : s.Issued p tag .stagingSet t args) : exec (.stagingSet p tag) s =
    .next { s with dev := (s.dev.taken p tag t).stagingSet p tag args } := by
  simp only [exec, execStagingSet, event_high _ h.high, takeNow_issued h]

/-! #### PASS STATUS (R158) -/

theorem Window.name_eq (w : Window) : w.name = if w = .opened then .opened else .closed := by cases w <;> rfl

theorem OffsiteLink.name_eq (l : OffsiteLink) : l.name = match l with
    | .down => .down
    | .up => .up
    | .ready _ => .ready := by cases l <;> rfl

/-- R139: the name of the mode in force. -/
theorem modeInForce_name (d : Device) :
    d.modeInForce.name = if d.clock.window = .opened then d.dup.mode.name else .trickle := by
  unfold Device.modeInForce
  split <;> rfl

/-- What PASS STATUS tells of the running pass, field by field (R140, R158). -/
theorem runningPassItems_eq (d : Device) : d.runningPassItems = match d.dup.pass with
    | none => [.num 1 0, .raw (List.replicate 85 0)]
    | some q =>
      [.num 1 1, .num 1 q.volume, .name q.origin.name, .num 2 q.target, .num 4 q.anchor]
      ++ Item.optNum 4 q.snapshot
      ++ [.name q.state.name, .num 1 (if q.stopRequested then 1 else 0), .num 4 q.cursor, .num 4 q.sent
        , .num 1 q.nextSeq, .name (if q.issuing then .on else .off), .num 2 q.backlog.length, .num 1 q.resends]
      ++ Item.optTime q.startTime
      ++ [.num 1 d.dup.staging.length, .num 1 (d.dup.staging.filter Place.isPlaced).length]
      ++ (.num 1 d.dup.batches.length :: (d.dup.batches.map Batch.items).flatten) := by
  unfold Device.runningPassItems
  cases d.dup.pass with
  | none => rfl
  | some q =>
    simp only [fields, Pass.items, Item.counted, Item.flag, List.length_map, List.flatten_cons, List.flatten_nil,
      List.append_nil, List.append_assoc]
    rfl

theorem exec_passStatus (h : s.Issued p tag .passStatus t []) : exec (.passStatus p tag) s =
    .next { s with dev := s.dev.answered p tag t .ok none s.dev.passStatusItems } := by
  simp only [exec, execPassStatus, event_high _ h.high, takeNow_issued h, reply_taken]
  rfl

/-! #### SIGNAL PEER (R157) -/

theorem exec_signalPeer {args : List Arg} (h : s.Issued p tag .signalPeer t args) : exec (.signalPeer p tag) s =
    .next { s with dev := settle ((s.dev.taken p tag t).signalPeer p tag args) } := by
  simp only [exec, execSignalPeer, event_high _ h.high, takeThen_issued h]

/-- R157: the part with an ATTENTION waiting. -/
def Device.signalling (d : Device) (code : Nat) : Device := { d with dup.attention := some code }

/-- R157: an accepted SIGNAL PEER is answered, and the transmitter looks at the ATTENTION that waits. -/
theorem exec_signalPeer_accepted {code : Nat} (h : s.Issued p tag .signalPeer t [.num code]) (hc : code ≤ 65535)
    (ha : s.dev.dup.attention = none) {e : Device}
    (he : perform .transmit ((s.dev.signalling code).answered p tag t .ok none []) = (e, [])) :
    exec (.signalPeer p tag) s = .next { s with dev := e } := by
  have hbody : (s.dev.taken p tag t).signalPeer p tag [.num code] =
      ((s.dev.signalling code).answered p tag t .ok none [], [.transmit]) := by
    have hfree : (s.dev.taken p tag t).dup.attention.isSome = false := by
      rw [taken_dup, ha]
      rfl
    simp only [Device.signalPeer, if_neg (Nat.not_lt.2 hc), hfree, Bool.false_eq_true, if_false]
    exact congrArg (·, _) (reply_taken (s.dev.signalling code) p tag t .ok none [])
  rw [exec_signalPeer h, hbody, (Runs.one he).settle (by decide)]

end

/-- Settles O51: settings by their checks, the status field by field, and the ATTENTION by what the transmitter can do
with it. -/
theorem stagingStatusAndSignal : Obligations.StagingStatusAndSignal := by
  intro s p tag t Answers u
  refine ⟨fun low high idle ack h => ⟨fun hbad => ?_, fun hbad => ?_⟩, fun h => ?_, fun code h =>
    ⟨fun hc => ?_, fun hc ha => ?_, fun hc ha ht => ?_, fun m hc ha hl ht => ?_⟩⟩
  · have hb := (Settings.bad_iff ⟨low, high, idle, ack⟩).2 hbad
    simp only [Answers, exec_stagingSet h, Device.stagingSet, hb, if_true, deny_taken]
  · have hb := Bool.eq_false_iff.2 (mt (Settings.bad_iff ⟨low, high, idle, ack⟩).1 hbad)
    simp only [Answers, exec_stagingSet h, Device.stagingSet, hb, Bool.false_eq_true, if_false]
    exact congrArg (fun d : Device => Host.Outcome.next { s with dev := d })
      (reply_taken (s.dev.setStaging ⟨low, high, idle, ack⟩) p tag t .ok none _)
  · have hitems := runningPassItems_eq s.dev
    simp only [Answers, exec_passStatus h, Device.passStatusItems, fields, Window.name_eq, modeInForce_name,
      OffsiteLink.name_eq, hitems, Item.counted, List.length_map, List.flatten_cons, List.flatten_nil, List.append_nil,
      List.append_assoc, Settings.items]
    rfl
  · simp only [Answers, exec_signalPeer h, Device.signalPeer, if_pos hc, Device.denyEffect, settle_nil, deny_taken]
  · have hwaits : (s.dev.taken p tag t).dup.attention.isSome = true := Option.isSome_iff_ne_none.2 ha
    simp only [Answers, exec_signalPeer h, Device.signalPeer, if_neg (Nat.not_lt.2 hc), hwaits, if_true,
      Device.denyEffect, settle_nil, deny_taken]
  · exact exec_signalPeer_accepted h hc ha (transmit_held ht)
  · intro d
    have hsent := transmit_attention (d := (s.dev.signalling code).answered p tag t .ok none []) hl ht rfl
    have hnone : ({ u with attention := none } : Duplication) = u := Duplication.attention_eta ha
    refine (exec_signalPeer_accepted h hc ha hsent).trans ?_
    show Host.Outcome.next { s with dev := Device.transmitFrame { d with dup := { u with attention := none } } _ } = _
    rw [hnone]
    rfl

end Sys2Proof.Machine
end

section
/-! ### The rows of the running pass, and whether its sweep or its draining is over (R142, R151) -/

namespace Sys2Proof.Machine

/-! #### A row and what follows it -/

section
variable {s : State} {f : Device → Effect} {d d' : Device} {ts : List Task}

/-- A row that finds nothing to do. -/
theorem event_idle (hf : f s.dev = (s.dev, [])) : s.event (fun d => settle (f d)) = .next s := by
  cases hl : s.dev.resetLow with
  | true => exact event_low _ hl
  | false =>
    rw [event_high _ hl, hf, settle_nil]

/-- A row from which nothing follows. -/
theorem event_done (hl : s.dev.resetLow = false) (hf : f s.dev = (d, [])) :
    s.event (fun d => settle (f d)) = .next { s with dev := d } := by
  rw [event_high _ hl, hf, settle_nil]

/-- A row whose consequences run out. -/
theorem event_runs {b : Nat} (hl : s.dev.resetLow = false) (hf : f s.dev = (d, ts)) (hr : Runs b ts d d')
    (hb : b ≤ 100) : s.event (fun d => settle (f d)) = .next { s with dev := d' } := by
  rw [event_high _ hl, hf, hr.settle (by omega)]

end

section
variable {d : Device} {q : Pass} {x : Volume}

theorem onPass_some (hq : d.dup.pass = some q) (f : Pass → Pass) :
    d.onPass f = { d with dup.pass := some (f q) } := by
  rw [Device.onPass, hq]
  rfl

theorem passCapacity_eq (hv : d.volume? q.volume = some x) : d.passCapacity q = x.capacity := by
  rw [Device.passCapacity, hv]

/-! #### The look at the end of the sweep and of the draining (R151) -/

/-- R151: the sweep has passed the last grain, and nothing is left to send. -/
def Device.SweepOver (d : Device) (q : Pass) : Prop :=
  q.state = .sweeping ∧ d.passCapacity q ≤ q.cursor ∧ q.backlog = [] ∧ d.dup.staging = []

/-- R151: nothing is left to be acknowledged or sent again. -/
def Device.DrainOver (d : Device) (q : Pass) : Prop :=
  q.state = .draining ∧ d.dup.batches = [] ∧ q.backlog = [] ∧ d.dup.staging = []

theorem passCheck_stands (hq : d.dup.pass = some q) (hs : ¬ d.SweepOver q) (hd : ¬ d.DrainOver q) :
    perform .passCheck d = (d, []) := by
  show passCheck d = _
  rw [passCheck, hq]
  exact (if_neg hs).trans (if_neg hd)

/-- R151: a pass that has a grain staged goes on. -/
theorem passCheck_staged (hq : d.dup.pass = some q) (h : d.dup.staging ≠ []) : perform .passCheck d = (d, []) :=
  passCheck_stands hq (fun hs => h hs.2.2.2) fun hd => h hd.2.2.2

/-- R151: the OPEN batch is shut and the pass becomes DRAINING. -/
theorem passCheck_drains (hq : d.dup.pass = some q) (hs : d.SweepOver q) : perform .passCheck d =
    (d.shutOpen.onPass fun q => { q with state := .draining }, [.passCheck, .transmit]) := by
  show passCheck d = _
  rw [passCheck, hq]
  exact if_pos hs

/-- R151: the pass whose PASS END waits, its timer of so many seconds started at a moment. -/
def Pass.closingAt (q : Pass) (now ack : Nat) : Pass :=
  { q with state := .closing, passEndWaits := true, passEndTimer := some (now + 1000 * ack) }

/-- R151, R152: the pass becomes CLOSING and asks for its PASS END. -/
theorem passCheck_closes (hq : d.dup.pass = some q) (hd : d.DrainOver q) : perform .passCheck d =
    ({ d with dup.pass := some (q.closingAt d.clock.now d.dup.settings.ackTimeout) }, [.transmit]) := by
  have hs : ¬ d.SweepOver q := fun hs => by
    have hstate := hd.1
    rw [hs.1] at hstate
    cases hstate
  show passCheck d = _
  rw [passCheck, hq]
  refine (if_neg hs).trans ((if_pos hd).trans ?_)
  rw [onPass_some hq]
  rfl

/-! #### The walk of the sweep (R142) -/

/-- R142: the grain's image as of the pass's snapshot is newer than the anchor. -/
def Device.Sends (d : Device) (q : Pass) (g : Nat) : Prop :=
  ∃ v, (d.resolve q.volume (q.snapshot.getD 0) g).version = some v ∧ q.anchor < v

theorem walkSweep_sends {c v : Nat} (hv : (d.resolve q.volume (q.snapshot.getD 0) c).version = some v)
    (ha : q.anchor < v) (n : Nat) : d.walkSweep q (n + 1) c = some (c, v) := by
  rw [Device.walkSweep, hv]
  exact if_pos ha

/-- R142: a grain that need not be sent is passed over. -/
theorem walkSweep_passes {c : Nat} (h : ¬ d.Sends q c) (n : Nat) :
    d.walkSweep q (n + 1) c = d.walkSweep q n (c + 1) := by
  rw [Device.walkSweep]
  cases hv : (d.resolve q.volume (q.snapshot.getD 0) c).version with
  | none => rfl
  | some v => exact if_neg fun ha => h ⟨v, hv, ha⟩

theorem walkSweep_found {n c g v : Nat} (hlo : c ≤ g) (hhi : g < c + n) (hover : ∀ f, c ≤ f → f < g → ¬ d.Sends q f)
    (hv : (d.resolve q.volume (q.snapshot.getD 0) g).version = some v) (ha : q.anchor < v) :
    d.walkSweep q n c = some (g, v) := by
  induction n generalizing c with
  | zero => omega
  | succ n ih =>
    rcases Nat.eq_or_lt_of_le hlo with rfl | hlt
    · exact walkSweep_sends hv ha n
    · rw [walkSweep_passes (hover c le_rfl hlt)]
      exact ih hlt (by omega) fun f h1 h2 => hover f (by omega) h2

theorem walkSweep_none_iff (n c : Nat) : d.walkSweep q n c = none ↔ ∀ g, c ≤ g → g < c + n → ¬ d.Sends q g := by
  induction n generalizing c with
  | zero => exact ⟨fun _ g h1 h2 => by omega, fun _ => rfl⟩
  | succ n ih =>
    by_cases hc : d.Sends q c
    · obtain ⟨v, hv, ha⟩ := hc
      rw [walkSweep_sends hv ha]
      exact ⟨fun h => (Option.some_ne_none _ h).elim, fun h => (h c le_rfl (by omega) ⟨v, hv, ha⟩).elim⟩
    · rw [walkSweep_passes hc, ih]
      refine ⟨fun h g h1 h2 => ?_, fun h g h1 h2 => h g (by omega) (by omega)⟩
      rcases Nat.eq_or_lt_of_le h1 with rfl | hlt
      · exact hc
      · exact h g hlt (by omega)

section
variable (hv : d.volume? q.volume = some x)
include hv

theorem nextSweep_found {g v : Nat} (hlo : q.cursor ≤ g) (hhi : g < x.capacity)
    (hover : ∀ f, q.cursor ≤ f → f < g → ¬ d.Sends q f)
    (hver : (d.resolve q.volume (q.snapshot.getD 0) g).version = some v) (ha : q.anchor < v) :
    d.nextSweep q = some (g, v) := by
  rw [Device.nextSweep, passCapacity_eq hv]
  exact walkSweep_found hlo (by omega) hover hver ha

theorem nextSweep_none_iff : d.nextSweep q = none ↔ ∀ g, q.cursor ≤ g → g < x.capacity → ¬ d.Sends q g := by
  rw [Device.nextSweep, passCapacity_eq hv, walkSweep_none_iff]
  exact ⟨fun h g h1 h2 => h g h1 (by omega), fun h g h1 h2 => h g h1 (by omega)⟩

end

end

end Sys2Proof.Machine
end

section
/-! ### Grains made ready and placed (O53) -/

namespace Sys2Proof.Machine

section
variable {d : Device} {q : Pass}

/-- R143: the part with a grain reserved at the tail of staging for the pass r. -/
def Device.reserved (d : Device) (r : Pass) (g v : Nat) (source : PlaceSource) : Device := { d with
  dup.staging := d.dup.staging ++ [{ grain := g, version := v, source := source, phase := .ready }]
  dup.pass := some { r with issuing := decide (d.dup.staging.length + 1 < d.dup.settings.high) } }

/-- R143: issuing becomes OFF at the high mark; it was ON before. -/
theorem reservePlace_eq (hq : d.dup.pass = some q) (hi : q.issuing = true) (g v : Nat) (source : PlaceSource) :
    d.reservePlace g v source = d.reserved q g v source := by
  let place : Place := { grain := g, version := v, source := source, phase := .ready }
  let staged : Device := { d with dup.staging := d.dup.staging ++ [place] }
  have hlen : staged.dup.staging.length = d.dup.staging.length + 1 := List.length_append
  unfold Device.reservePlace Device.reserved
  by_cases h : d.dup.staging.length + 1 < d.dup.settings.high
  · have hlow : ¬ staged.dup.staging.length ≥ staged.dup.settings.high := hlen ▸ Nat.not_le.2 h
    rw [decide_eq_true h, ← hi, ← hq]
    exact if_neg hlow
  · have hhigh : staged.dup.staging.length ≥ staged.dup.settings.high := hlen ▸ Nat.not_lt.1 h
    rw [decide_eq_false h]
    exact (if_pos hhigh).trans (onPass_some (d := staged) hq _)

theorem readyPlace_none (h : ¬ ∃ pl ∈ d.dup.staging, pl.phase = .ready) : d.readyPlace = none :=
  List.find?_eq_none.2 fun pl hpl => by simpa using fun hp => h ⟨pl, hpl, hp⟩

theorem readyPlace_some (h : ∃ pl ∈ d.dup.staging, pl.phase = .ready) : d.readyPlace.isSome = true := by
  obtain ⟨pl, hpl, hp⟩ := h
  exact List.find?_isSome.2 ⟨pl, hpl, decide_eq_true hp⟩

/-! #### Making ready (R142, R143) -/

theorem makeReady_none (hq : d.dup.pass = none) : makeReady d = (d, []) := by
  rw [makeReady, hq]

/-- R143: no grain is made ready by a pass that neither sweeps nor drains, with issuing OFF, or beside a ready grain. -/
theorem makeReady_refused (hq : d.dup.pass = some q) (h : (q.state ≠ .sweeping ∧ q.state ≠ .draining)
    ∨ q.issuing = false ∨ ∃ pl ∈ d.dup.staging, pl.phase = .ready) : makeReady d = (d, []) := by
  have hmay : d.mayMakeReady q = false := by
    unfold Device.mayMakeReady
    rcases h with ⟨h1, h2⟩ | h | h
    · simp [h1, h2]
    · simp [h]
    · simp [Option.isNone_eq_false_iff.2 (readyPlace_some h)]
  rw [makeReady, hq]
  exact if_neg (by rw [hmay]; decide)

section
variable (hq : d.dup.pass = some q) (hs : q.state = .sweeping ∨ q.state = .draining) (hi : q.issuing = true)
  (hr : ¬ ∃ pl ∈ d.dup.staging, pl.phase = .ready)
include hq hs hi hr

omit hq in
theorem mayMakeReady_true : d.mayMakeReady q = true := by
  unfold Device.mayMakeReady
  rw [readyPlace_none hr, hi]
  rcases hs with hs | hs <;> rw [hs] <;> rfl

theorem makeReady_backlog {g n v : Nat} {rest : List (Nat × Nat)} (hb : q.backlog = (g, n) :: rest)
    (hv : (d.resolve q.volume (q.snapshot.getD 0) g).version = some v) :
    makeReady d = (d.reserved { q with backlog := rest } g v (.resend n), [.grant]) := by
  rw [makeReady, hq]
  dsimp only
  rw [if_pos (mayMakeReady_true hs hi hr), hb]
  dsimp only
  rw [hv, onPass_some hq, reservePlace_eq (q := { q with backlog := rest }) rfl hi]
  rfl

/-- R142, R143: with nothing to send again, a SWEEPING pass looks for its next grain. -/
theorem makeReady_sweep (hb : q.backlog = []) : makeReady d =
    if q.state = .sweeping then
      match d.nextSweep q with
      | some (g, v) =>
        if d.dup.batches.length ≥ 4 ∧ d.openBatch = none then ({ d with dup.pass := some { q with cursor := g } }, [])
        else (d.reserved { q with cursor := g + 1 } g v .sweep, [.grant])
      | none => ({ d with dup.pass := some { q with cursor := max q.cursor (d.passCapacity q) } }, [.passCheck])
    else (d, []) := by
  rw [makeReady, hq]
  dsimp only
  rw [if_pos (mayMakeReady_true hs hi hr), hb]
  dsimp only
  congr 1
  cases d.nextSweep q with
  | none =>
    dsimp only
    rw [onPass_some hq, hb]
  | some w =>
    dsimp only
    rw [onPass_some hq, onPass_some hq, reservePlace_eq (q := { q with cursor := w.1 + 1 }) rfl hi, hb]
    simp only [Option.isNone_iff_eq_none]
    rfl

end

/-! #### Placements (R144) -/

/-- R144: the data and its grain check go into the place that slot k reads for. -/
def Place.filled (k : SlotId) (data : List Byte) (pl : Place) : Place :=
  if pl.phase = .reading k then { pl with phase := .placed data (grainCheck data) } else pl

theorem placeGrain_other {k : SlotId} (h : ∀ z data, d.slot? k = some z → z.phase ≠ .staging data) :
    placeGrain k d = (d, []) := by
  unfold placeGrain
  cases hz : d.slot? k with
  | none => rfl
  | some z =>
    dsimp only
    split
    · exact absurd (by assumption) (h z _ hz)
    · rfl

theorem placeGrain_staging {k : SlotId} {z : CopySlot} {data : List Byte} (hz : d.slot? k = some z)
    (hp : z.phase = .staging data) : placeGrain k d =
      ({ d with dup.staging := d.dup.staging.map (Place.filled k data) }.setSlot k none, [.grant, .transmit]) := by
  simp only [placeGrain, hz, hp]
  rfl

/-- A place that was not ready is not made so by a placement. -/
theorem Place.filled_not_ready {k : SlotId} {data : List Byte} {pl : Place} (h : pl.phase ≠ .ready) :
    (pl.filled k data).phase ≠ .ready := by
  unfold Place.filled
  split
  · exact fun hp => by cases hp
  · exact h

end

/-- Settles O53: what making ready comes to by the backlog and the walk, and a placement by its slot. -/
theorem grainsMadeReadyAndPlaced : Obligations.GrainsMadeReadyAndPlaced := by
  intro s hl staging batches ready
  refine ⟨fun q hq h => event_idle (makeReady_refused hq h), fun hq => event_idle (makeReady_none hq),
    fun q x hq hs hi hr hv => ?_, fun k h => event_idle (placeGrain_other h), fun k z data hz hp hr hrest ht => ?_⟩
  · intro version sends reserved passed
    refine ⟨fun g n rest v hfull hb hver => ?_, fun hb hd => ?_,
      fun g v hb hsw hlo hhi hover hver ha => ⟨fun h4 hopen => ?_, fun hfull hroom => ?_⟩,
      fun hb hsw hst hover => ?_⟩
    · exact event_runs hl (makeReady_backlog hq hs hi hr hb hver) (Runs.one (grant_full hfull)) (by decide)
    · have hstate : q.state ≠ .sweeping := by rw [hd]; decide
      exact event_idle ((makeReady_sweep hq hs hi hr hb).trans (if_neg hstate))
    · have hnone : s.dev.openBatch = none := List.find?_eq_none.2 fun b hb => by simpa using hopen b hb
      refine event_done hl ((makeReady_sweep hq hs hi hr hb).trans ((if_pos hsw).trans ?_))
      rw [nextSweep_found hv hlo hhi hover hver ha]
      exact if_pos ⟨h4, hnone⟩
    · have hroom : ¬ (batches.length ≥ 4 ∧ s.dev.openBatch = none) := by
        rintro ⟨h4, hnone⟩
        rcases hroom with h | ⟨b, hb, hopen⟩
        · omega
        · simpa [hopen] using List.find?_eq_none.1 hnone b hb
      refine event_runs hl ((makeReady_sweep hq hs hi hr hb).trans ((if_pos hsw).trans ?_))
        (Runs.one (grant_full hfull)) (by decide)
      rw [nextSweep_found hv hlo hhi hover hver ha]
      exact if_neg hroom
    · refine event_runs hl ((makeReady_sweep hq hs hi hr hb).trans ((if_pos hsw).trans ?_))
        (Runs.one (passCheck_staged rfl hst)) (by decide)
      rw [(nextSweep_none_iff hv).2 hover, passCapacity_eq hv]
  · let e : Device := { s.dev with dup.staging := s.dev.dup.staging.map (Place.filled k data) }.setSlot k none
    have hready : ∀ pl ∈ e.dup.staging, pl.phase ≠ .ready := by
      intro pl hpl
      obtain ⟨o, ho, rfl⟩ := List.mem_map.1 hpl
      exact Place.filled_not_ready fun hp => hr ⟨o, ho, hp⟩
    have hgrant : perform .grant e = (e, []) := grant_quiet (.inr ⟨hrest, hready⟩)
    exact event_runs hl (placeGrain_staging hz hp) ((Runs.one hgrant).cons (Runs.one (transmit_held (d := e) ht)))
      (by decide)

end Sys2Proof.Machine
end

section
/-! ### Batches in the table, and what the transmitter takes from staging (R143, R145, R146, R147) -/

namespace Sys2Proof.Machine

section
variable {d : Device} {q : Pass}

/-- The first batch of a sequence in the table. -/
theorem batch_first {before after : List Batch} {b : Batch} (hb : d.dup.batches = before ++ b :: after)
    (hne : ∀ f ∈ before, f.sequence ≠ b.sequence) : d.batch? b.sequence = some b := by
  have hbefore : before.find? (fun f => f.sequence = b.sequence) = none :=
    List.find?_eq_none.2 fun f hf => by simpa using hne f hf
  rw [Device.batch?, hb, List.find?_append, hbefore]
  simp

/-- The batch table holds b, with those before and those after it; no other has its sequence. -/
structure Device.HoldsBatch (d : Device) (before : List Batch) (b : Batch) (after : List Batch) : Prop where
  list : d.dup.batches = before ++ b :: after
  before_ne : ∀ f ∈ before, f.sequence ≠ b.sequence
  after_ne : ∀ f ∈ after, f.sequence ≠ b.sequence

section
variable {before after : List Batch} {b : Batch} (h : d.HoldsBatch before b after)
include h

theorem Device.HoldsBatch.find : d.batch? b.sequence = some b := batch_first h.list h.before_ne

theorem Device.HoldsBatch.onBatch (f : Batch → Batch) :
    d.onBatch b.sequence f = { d with dup.batches := before ++ f b :: after } := by
  have hmap (l : List Batch) (hl : ∀ c ∈ l, c.sequence ≠ b.sequence) :
      l.map (fun c => if c.sequence = b.sequence then f c else c) = l :=
    (List.map_congr_left fun c hc => if_neg (hl c hc)).trans (List.map_id' l)
  rw [Device.onBatch, h.list, List.map_append, List.map_cons, if_pos rfl, hmap before h.before_ne,
    hmap after h.after_ne]

/-- The part with the batch replaced holds the new one. -/
theorem Device.HoldsBatch.replaced {e : Device} {c : Batch} (he : e.dup.batches = before ++ c :: after)
    (hc : c.sequence = b.sequence) : e.HoldsBatch before c after :=
  ⟨he, hc ▸ h.before_ne, hc ▸ h.after_ne⟩

/-- R147: the batch shut now. -/
theorem Device.HoldsBatch.shutBatch : d.shutBatch b.sequence =
    { d with dup.batches := before ++ b.close d.clock.now d.dup.settings.ackTimeout :: after } := h.onBatch _

theorem Device.HoldsBatch.openBatch (ho : b.state = .opened) (hb : ∀ f ∈ before, f.state ≠ .opened) :
    d.openBatch = some b := by
  have hbefore : before.find? (fun f => f.state = .opened) = none :=
    List.find?_eq_none.2 fun f hf => by simpa using hb f hf
  rw [Device.openBatch, h.list, List.find?_append, hbefore]
  simp [ho]

end

theorem openBatch_none (h : ∀ b ∈ d.dup.batches, b.state ≠ .opened) : d.openBatch = none :=
  List.find?_eq_none.2 fun b hb => by simpa using h b hb

/-! #### Frames taken -/

/-- R145, R187: the part that sends a frame to the peer, its duplication unit otherwise at u. -/
def Device.transmits (d : Device) (u : Duplication) (f : OffsiteFrame) : Device :=
  { d with dup := { u with transmitting := some f }, out := d.out ++ [.offsite f] }

/-- R143: issuing is ON again once occupancy n is at the low mark or below. -/
def Pass.atOccupancy (q : Pass) (n low : Nat) : Pass := { q with issuing := if n ≤ low then true else q.issuing }

theorem checkLow_eq (hq : d.dup.pass = some q) : d.checkLow =
    { d with dup.pass := some (q.atOccupancy d.dup.staging.length d.dup.settings.low) } := by
  unfold Device.checkLow Pass.atOccupancy
  by_cases h : d.dup.staging.length ≤ d.dup.settings.low
  · rw [if_pos h, if_pos h, onPass_some hq]
  · rw [if_neg h, if_neg h, ← hq]

/-- R146: the OPEN batch that a grain joins, its idle timer running to a moment. -/
def Batch.joined (b : Batch) (g : Nat) (check : BitVec 32) (ends : Nat) : Batch :=
  { b with grains := b.grains ++ [g], check := b.check ^^^ check, idleEnds := some ends }

/-- R146: the RESENDING batch one more grain of which is sent again. -/
def Batch.resentOnce (b : Batch) (check : BitVec 32) : Batch :=
  { b with check := b.check ^^^ check, resent := b.resent + 1 }

section
variable {before after : List Batch} {b : Batch} {pl : Place} {rest : List Place} {data : List Byte} {check : BitVec 32}
  (h : d.HoldsBatch before b after) (hq : d.dup.pass = some q) (hs : d.dup.staging = pl :: rest)
include h hq hs

/-- R145, R146: a grain of the sweep joins the OPEN batch, and shuts it as the 256th. -/
theorem Device.HoldsBatch.takeGrainFrame_opened (ho : b.state = .opened) :
    let c := b.joined pl.grain check (d.clock.now + 100 * d.dup.settings.idleClose)
    d.takeGrainFrame q pl data check b = d.transmits { d.dup with
        staging := rest
        batches := before ++
          (if b.grains.length + 1 = 256 then c.close d.clock.now d.dup.settings.ackTimeout else c) :: after
        pass := some ({ q with sent := q.sent + 1 }.atOccupancy rest.length d.dup.settings.low) }
      (.grain q.target pl.grain pl.version data check) := by
  intro c
  let u : Device := { d with dup.staging := rest }
  have hu : u.HoldsBatch before b after := ⟨h.list, h.before_ne, h.after_ne⟩
  let e : Device := { u with dup.batches := before ++ c :: after, dup.pass := some { q with sent := q.sent + 1 } }
  have he : e.HoldsBatch before c after := hu.replaced rfl rfl
  have htaken : (u.onBatch b.sequence fun b => b.joined pl.grain check
      (d.clock.now + 100 * d.dup.settings.idleClose)).onPass (fun q => { q with sent := q.sent + 1 }) = e := by
    rw [hu.onBatch]
    exact onPass_some (d := { u with dup.batches := _ }) hq _
  have hshut : e.shutBatch b.sequence = _ := he.shutBatch
  have hframe : d.takeGrainFrame q pl data check b =
      ((if b.grains.length + 1 = 256 then e.shutBatch b.sequence else e).checkLow.transmitFrame
        (.grain q.target pl.grain pl.version data check)) := by
    unfold Device.takeGrainFrame
    rw [ho, hs, ← htaken]
    rfl
  rw [hframe]
  by_cases hlast : b.grains.length + 1 = 256
  · rw [if_pos hlast, if_pos hlast, hshut, checkLow_eq (q := { q with sent := q.sent + 1 }) rfl]
    rfl
  · rw [if_neg hlast, if_neg hlast, checkLow_eq (q := { q with sent := q.sent + 1 }) rfl]
    rfl

/-- R145, R146: a grain sent again, which shuts its batch as the last of it. -/
theorem Device.HoldsBatch.takeGrainFrame_resending (ho : b.state = .resending) :
    d.takeGrainFrame q pl data check b = d.transmits { d.dup with
        staging := rest
        batches := before ++ (if b.resent + 1 = b.grains.length then
          (b.resentOnce check).close d.clock.now d.dup.settings.ackTimeout else b.resentOnce check) :: after
        pass := some (q.atOccupancy rest.length d.dup.settings.low) }
      (.grain q.target pl.grain pl.version data check) := by
  let u : Device := { d with dup.staging := rest }
  have hu : u.HoldsBatch before b after := ⟨h.list, h.before_ne, h.after_ne⟩
  let e : Device := { u with dup.batches := before ++ b.resentOnce check :: after }
  have he : e.HoldsBatch before (b.resentOnce check) after := hu.replaced rfl rfl
  have htaken : u.onBatch b.sequence (fun b => b.resentOnce check) = e := hu.onBatch _
  let w : Device := { e with
    dup.batches := before ++ (b.resentOnce check).close d.clock.now d.dup.settings.ackTimeout :: after }
  have hshut : e.shutBatch b.sequence = w := he.shutBatch
  have hpass : e.dup.pass = some q ∧ w.dup.pass = some q := ⟨hq, hq⟩
  have hframe : d.takeGrainFrame q pl data check b =
      ((if b.resent + 1 = b.grains.length then e.shutBatch b.sequence else e).checkLow.transmitFrame
        (.grain q.target pl.grain pl.version data check)) := by
    unfold Device.takeGrainFrame
    rw [ho, hs, ← htaken]
    rfl
  rw [hframe]
  by_cases hlast : b.resent + 1 = b.grains.length
  · rw [if_pos hlast, if_pos hlast, hshut, checkLow_eq hpass.2]
    rfl
  · rw [if_neg hlast, if_neg hlast, checkLow_eq hpass.1]
    rfl

end

/-! #### The head place of staging -/

theorem takeStaged_empty (hs : d.dup.staging = []) : d.takeStaged q = d := by
  rw [Device.takeStaged, hs]

section
variable {pl : Place} {rest : List Place} (hs : d.dup.staging = pl :: rest)
include hs

/-- R145: a RESERVED head place holds everything behind it back. -/
theorem takeStaged_reserved (hp : ∀ data check, pl.phase ≠ .placed data check) : d.takeStaged q = d := by
  rw [Device.takeStaged, hs]
  dsimp only
  split
  · exact absurd (by assumption) (hp _ _)
  · rfl

section
variable {data : List Byte} {check : BitVec 32} (hp : pl.phase = .placed data check)
include hp

theorem takeStaged_resend {before after : List Batch} {b : Batch} (h : d.HoldsBatch before b after)
    (hsrc : pl.source = .resend b.sequence) : d.takeStaged q =
      if b.reopened then d.takeGrainFrame q pl data check b
      else d.transmits { d.dup with batches := before ++ { b with reopened := true, check := 0, resent := 0 } :: after }
        (.openBatch b.sequence q.target) := by
  simp only [Device.takeStaged, hs, hp, hsrc, h.find, h.onBatch]
  rfl

theorem takeStaged_open {b : Batch} (hsrc : pl.source = .sweep) (ho : d.openBatch = some b) :
    d.takeStaged q = d.takeGrainFrame q pl data check b := by
  simp only [Device.takeStaged, hs, hp, hsrc, ho]

/-- R146: with four batches in the table none is opened. -/
theorem takeStaged_full (hsrc : pl.source = .sweep) (ho : d.openBatch = none) (h4 : d.dup.batches.length ≥ 4) :
    d.takeStaged q = d := by
  simp only [Device.takeStaged, hs, hp, hsrc, ho]
  exact if_neg (Nat.not_lt.2 h4)

/-- R146: the record of a batch just opened. -/
def Batch.fresh (n : Nat) : Batch :=
  { sequence := n, state := .opened, grains := [], check := 0, resends := 0, reopened := false, resent := 0
    idleEnds := none, ackEnds := none, shutWaits := false }

theorem takeStaged_opens (hq : d.dup.pass = some q) (hsrc : pl.source = .sweep) (ho : d.openBatch = none)
    (h4 : d.dup.batches.length < 4) : d.takeStaged q =
      d.transmits { d.dup with
          batches := d.dup.batches ++ [Batch.fresh q.nextSeq]
          pass := some { q with nextSeq := (q.nextSeq + 1) % 256 } }
        (.openBatch q.nextSeq q.target) := by
  simp only [Device.takeStaged, hs, hp, hsrc, ho]
  rw [← hs]
  refine (if_pos h4).trans ?_
  exact congrArg (fun f : Device => f.transmitFrame (.openBatch q.nextSeq q.target))
    (onPass_some (d := { d with dup.batches := d.dup.batches ++ [Batch.fresh q.nextSeq] }) hq _)

end

end

end

end Sys2Proof.Machine
end

section
/-! ### The end of a transmission and of a batch's idle time (O54) -/

namespace Sys2Proof.Machine

section
variable {d : Device} {m : Nat} (hl : d.dup.link = .ready m) (ht : d.dup.transmitting = none)
  (ha : d.dup.attention = none)
include hl ht ha

/-- R147: the SHUT of the oldest batch that waits. -/
theorem transmit_shut {before after : List Batch} {b : Batch} (h : d.HoldsBatch before b after)
    (hw : b.shutWaits = true) (hb : ∀ f ∈ before, f.shutWaits = false) : perform .transmit d =
      (d.transmits { d.dup with batches := before ++ { b with shutWaits := false } :: after }
        (.shut b.sequence b.grains.length b.check), []) := by
  have hfind : d.dup.batches.find? (fun f => f.shutWaits) = some b := by
    have hbefore : before.find? (fun f => f.shutWaits) = none :=
      List.find?_eq_none.2 fun f hf => by simp [hb f hf]
    rw [h.list, List.find?_append, hbefore]
    simp [hw]
  show transmit d = _
  rw [transmit_idle hl ht]
  simp only [ha, hfind, h.onBatch]
  rfl

section
variable {q : Pass} (hb : ∀ f ∈ d.dup.batches, f.shutWaits = false) (hq : d.dup.pass = some q)
include hb hq

/-- R145: with no ATTENTION and no SHUT waiting the running pass has its turn. -/
theorem transmit_pass : transmit d =
    if q.passEndWaits then
      (d.transmits { d.dup with pass := some { q with passEndWaits := false } }
        (.passEnd q.target (q.snapshot.getD 0) q.sent), [])
    else (d.takeStaged q, [.passCheck]) := by
  have hfind : d.dup.batches.find? (fun f => f.shutWaits) = none := List.find?_eq_none.2 fun f hf => by simp [hb f hf]
  rw [transmit_idle hl ht]
  simp only [ha, hfind, hq, onPass_some hq]
  rfl

theorem transmit_passEnd (hw : q.passEndWaits = true) : perform .transmit d =
    (d.transmits { d.dup with pass := some { q with passEndWaits := false } }
      (.passEnd q.target (q.snapshot.getD 0) q.sent), []) :=
  (transmit_pass hl ht ha hb hq).trans (if_pos hw)

/-- R145: what is taken from staging, the pass then not at an end. -/
theorem runs_transmit_staged {e : Device} (hw : q.passEndWaits = false) (hs : d.takeStaged q = e)
    (hc : perform .passCheck e = (e, [])) : Runs 2 [.transmit] d e := by
  have htake : perform .transmit d = (e, [.passCheck]) := by
    rw [← hs]
    exact (transmit_pass hl ht ha hb hq).trans (if_neg (by rw [hw]; decide))
  exact Runs.task htake (Runs.one hc)

end

end

section
variable {s : State} (hl : s.dev.resetLow = false)
include hl

/-- R145: the frame has been sent, and the transmitter looks for the next. -/
theorem exec_transmissionEnd {b : Nat} {e : Device} (ht : s.dev.dup.transmitting ≠ none)
    (hr : Runs b [.transmit] { s.dev with dup.transmitting := none } e) (hb : b ≤ 100) :
    exec .transmissionEnd s = .next { s with dev := e } :=
  event_runs hl (if_pos (Option.isSome_iff_ne_none.2 ht)) hr hb

omit hl in
/-- An end of a transmission with no frame in transmission (entry 4). -/
theorem exec_transmissionEnd_none (ht : s.dev.dup.transmitting = none) : exec .transmissionEnd s = .next s := by
  refine event_idle (f := Device.endTransmission) (if_neg ?_)
  rw [ht]
  decide

omit hl in
/-- An idle close of no batch, or of one whose timer does not run (entry 4). -/
theorem exec_batchIdleClose_none (h : ∀ b, s.dev.openBatch = some b → b.idleEnds = none) :
    exec .batchIdleClose s = .next s := by
  refine event_idle (f := Device.idleClose) ?_
  unfold Device.idleClose
  cases ho : s.dev.openBatch with
  | none => rfl
  | some b =>
    dsimp only
    rw [h b ho]

theorem exec_batchIdleClose {before after : List Batch} {b : Batch} {m : Nat} (h : s.dev.HoldsBatch before b after)
    (ho : s.dev.openBatch = some b) (hm : b.idleEnds = some m) (ht : s.dev.TransmitterHeld) :
    exec .batchIdleClose s = .next { s with dev := { s.dev with
      clock.now := max s.dev.clock.now m
      dup.batches := before ++ b.close (max s.dev.clock.now m) s.dev.dup.settings.ackTimeout :: after } } := by
  have hheld : (s.dev.reach m).HoldsBatch before b after := ⟨h.list, h.before_ne, h.after_ne⟩
  refine event_runs (f := Device.idleClose) hl ?_ (Runs.one (transmit_held ht)) (by decide)
  simp only [Device.idleClose, ho, hm, hheld.shutBatch]
  rfl

end

/-- Settles O54: the order is that of `transmit_idle`, and what staging gives goes by its head place. -/
theorem transmitterTakesFrames : Obligations.TransmitterTakesFrames := by
  intro s hl u idle sent shut isAt
  have hheld {before after : List Batch} {b : Batch} (h : isAt before b after) : s.dev.HoldsBatch before b after :=
    ⟨h.1, h.2.1, h.2.2⟩
  refine ⟨exec_transmissionEnd_none,
    fun ht hn => exec_transmissionEnd hl ht (Runs.one (transmit_held (.inl hn))) (by decide), fun m ht hm => ?_,
    fun hn => exec_batchIdleClose_none fun b hb => ?_, fun before b after h ho hb => ⟨fun hi => ?_, fun m hi hth =>
      exec_batchIdleClose hl (hheld h) ((hheld h).openBatch ho hb) hi hth⟩⟩
  · let e : Device := { s.dev with dup.transmitting := none }
    have hone {f : Device} (h : perform .transmit e = (f, [])) : exec .transmissionEnd s = .next { s with dev := f } :=
      exec_transmissionEnd hl ht (Runs.one h) (by decide)
    have hat {before after : List Batch} {b : Batch} (h : isAt before b after) : e.HoldsBatch before b after :=
      ⟨h.1, h.2.1, h.2.2⟩
    refine ⟨fun c ha => hone (transmit_attention (d := e) hm rfl ha),
      fun before b after ha h hw hb => hone (transmit_shut (d := e) hm rfl ha (hat h) hw hb),
      fun ha hb hp => hone (transmit_nothing (d := e) ha hb hp), fun q ha hb hq =>
      ⟨fun hw => hone (transmit_passEnd (d := e) hm rfl ha hb hq hw), fun hw hs hsweep hdrain => ?_,
        fun pl rest hw hs => ?_⟩⟩
    · have hstands : perform .passCheck e = (e, []) := by
        refine passCheck_stands hq (fun ⟨hstate, hcap, hback, _⟩ => ?_) fun ⟨hstate, hbatch, hback, _⟩ =>
          (hdrain hstate).elim (fun h => h hback) fun h => h hbatch
        rcases hsweep hstate with h | ⟨x, hx, hlt⟩
        · exact h hback
        · rw [passCapacity_eq (d := e) hx] at hcap
          omega
      exact exec_transmissionEnd hl ht
        (runs_transmit_staged (d := e) hm rfl ha hb hq hw (takeStaged_empty hs) hstands) (by decide)
    · have hstaged {f : Device} {r : Pass} (hf : e.takeStaged q = f) (hr : f.dup.pass = some r)
          (hne : f.dup.staging ≠ []) : exec .transmissionEnd s = .next { s with dev := f } :=
        exec_transmissionEnd hl ht (runs_transmit_staged (d := e) hm rfl ha hb hq hw hf (passCheck_staged hr hne))
          (by decide)
      have hne : e.dup.staging ≠ [] := fun h => List.cons_ne_nil pl rest (hs.symm.trans h)
      refine ⟨fun hp => hstaged (takeStaged_reserved (d := e) hs hp) hq hne, fun data check hp =>
        ⟨fun before b after h hsrc hre => ?_,
          fun hsrc ho h4 => hstaged (takeStaged_full (d := e) hs hp hsrc (openBatch_none ho) h4) hq hne,
          fun hsrc ho h4 => hstaged (takeStaged_opens (d := e) hs hp hq hsrc (openBatch_none ho) h4) rfl hne,
          fun before b after hrest h => ?_⟩⟩
      · have hclosed : ¬ b.reopened = true := by rw [hre]; decide
        exact hstaged ((takeStaged_resend (d := e) hs hp (hat h) hsrc).trans (if_neg hclosed)) hq hne
      · intro low taken
        refine ⟨fun hsrc ho hb => ?_, fun hsrc ho hre => ?_⟩
        · exact hstaged ((takeStaged_open (d := e) hs hp hsrc ((hat h).openBatch ho hb)).trans
            ((hat h).takeGrainFrame_opened hq hs ho)) rfl hrest
        · exact hstaged ((takeStaged_resend (d := e) hs hp (hat h) hsrc).trans
            ((if_pos hre).trans ((hat h).takeGrainFrame_resending hq hs ho))) rfl hrest
  · rw [openBatch_none hn] at hb
    cases hb
  · refine exec_batchIdleClose_none fun c hc => ?_
    rw [(hheld h).openBatch ho hb] at hc
    cases hc
    exact hi

end Sys2Proof.Machine
end

section
/-! ### Acknowledgements and the go-back (O55) -/

namespace Sys2Proof.Machine

section
variable {d : Device} {n : Nat}

theorem batch_none (h : ∀ b ∈ d.dup.batches, b.sequence ≠ n) : d.batch? n = none :=
  List.find?_eq_none.2 fun b hb => by simpa using h b hb

theorem isReady_false (h : ∀ m, d.dup.link ≠ .ready m) : d.dup.link.isReady = false := by
  cases hl : d.dup.link with
  | ready m => exact absurd hl (h m)
  | _ => rfl

/-! #### Frames and timers that find no batch (R148, R149) -/

theorem takeAck_none (h : (∀ m, d.dup.link ≠ .ready m) ∨ ∀ b ∈ d.dup.batches, b.sequence ≠ n) :
    d.takeAck n = (d, []) := by
  unfold Device.takeAck
  rcases h with h | h
  · exact if_neg (by rw [isReady_false h]; decide)
  · rw [batch_none h]
    exact ite_self _

theorem takeRefuse_none (h : (∀ m, d.dup.link ≠ .ready m) ∨ ∀ b ∈ d.dup.batches, b.sequence ≠ n) (r : RefuseReason) :
    d.takeRefuse n r = (d, []) := by
  unfold Device.takeRefuse
  refine if_neg fun ⟨hl, hb⟩ => ?_
  rcases h with h | h
  · rw [isReady_false h] at hl
    cases hl
  · rw [batch_none h] at hb
    cases hb

theorem ackExpiry_none (h : ∀ b, d.batch? n = some b → b.ackEnds = none) : d.ackExpiry n = (d, []) := by
  unfold Device.ackExpiry
  cases hb : d.batch? n with
  | none => rfl
  | some b =>
    dsimp only
    rw [h b hb]

theorem ackExpiry_some {b : Batch} {m : Nat} (hb : d.batch? n = some b) (hm : b.ackEnds = some m) :
    d.ackExpiry n = goBack n (d.reach m) := by
  simp only [Device.ackExpiry, hb, hm]

/-! #### ACK (R148) -/

theorem takeAck_not_shut {b : Batch} (hb : d.batch? n = some b) (hs : b.state ≠ .shut) : d.takeAck n = (d, []) := by
  unfold Device.takeAck
  rw [hb]
  exact (congrArg (ite _ · _) (if_neg hs)).trans (ite_self _)

theorem batchesAfter_eq {before after : List Batch} {b : Batch} (hne : ∀ f ∈ before, f.sequence ≠ b.sequence) :
    batchesAfter b.sequence (before ++ b :: after) = after := by
  rw [batchesAfter, List.dropWhile_append_of_pos fun f hf => by simpa using hne f hf]
  simp

/-- R148: the batch and every older one leave the table. -/
theorem takeAck_shut {before after : List Batch} {b : Batch} {m : Nat} (hl : d.dup.link = .ready m)
    (hb : d.dup.batches = before ++ b :: after) (hne : ∀ f ∈ before, f.sequence ≠ b.sequence) (hs : b.state = .shut) :
    d.takeAck b.sequence = ({ d with dup.batches := after }, [.passCheck, .transmit]) := by
  unfold Device.takeAck
  rw [batch_first hb hne, if_pos (by rw [hl]; rfl)]
  refine (if_pos hs).trans ?_
  rw [hb, batchesAfter_eq hne]

/-! #### The go-back (R150) -/

/-- R150: the batches of a go-back that stay in the table: all but an OPEN one without a grain. -/
def keptBatches (covered : List Batch) : List Batch := covered.filter fun c => ¬ (c.state = .opened ∧ c.grains = [])

/-- R150: the pass after a go-back over the covered batches. -/
def Pass.goneBack (q : Pass) (covered : List Batch) (staging : List Place) : Pass := { q with
  nextSeq := match covered.find? fun c => c.state = .opened ∧ c.grains = [] with
    | some c => c.sequence
    | none => q.nextSeq
  cursor := (lowestSweep staging).getD q.cursor
  backlog := ((keptBatches covered).map fun c => c.grains.map fun g => (g, c.sequence)).flatten
  issuing := true }

/-- R150: the part after a go-back. -/
def Device.goneBack (d : Device) (q : Pass) (older covered : List Batch) : Device := { d with
  dup.staging := []
  dup.batches := older ++ (keptBatches covered).map fun c => c.goBack d.clock.now d.dup.settings.ackTimeout
  dup.pass := some (q.goneBack covered d.dup.staging) }

theorem coverFrom_eq {older covered : List Batch} (ho : ∀ f ∈ older, f.sequence ≠ n ∧ f.state ≠ .resending)
    (hc : ∃ f rest, covered = f :: rest ∧ (f.sequence = n ∨ f.state = .resending)) :
    coverFrom n (older ++ covered) = (older, covered) := by
  obtain ⟨f, rest, rfl, hf⟩ := hc
  have htake : (older ++ f :: rest).takeWhile (fun b => b.sequence ≠ n && b.state ≠ .resending) = older := by
    rw [List.takeWhile_append_of_pos fun b hb => by simpa using ho b hb, List.takeWhile_cons_of_neg, List.append_nil]
    simpa [or_iff_not_imp_left] using hf
  rw [coverFrom, htake]
  exact congrArg (Prod.mk older) List.drop_left

theorem goBack_fails {older covered : List Batch} (hcover : coverFrom n d.dup.batches = (older, covered))
    (h : ∃ c ∈ covered, c.resends ≥ 3) : goBack n d = (d, [.passEnd .failed (some .resend)]) := by
  have hany : (covered.any fun b => b.resends ≥ Config.maxResends) = true :=
    List.any_eq_true.2 (h.imp fun c hc => ⟨hc.1, decide_eq_true hc.2⟩)
  rw [goBack, hcover]
  exact if_pos hany

theorem goBack_goes {q : Pass} {older covered : List Batch} (hcover : coverFrom n d.dup.batches = (older, covered))
    (hq : d.dup.pass = some q) (h : ∀ c ∈ covered, c.resends < 3) :
    goBack n d = (d.goneBack q older covered, [.passCheck, .transmit]) := by
  have hany : ¬ (covered.any fun b => b.resends ≥ Config.maxResends) = true := by
    rw [List.any_eq_true]
    rintro ⟨c, hc, h3⟩
    exact Nat.not_le.2 (h c hc) (of_decide_eq_true h3)
  have hkept : (covered.filter fun b => !(b.state = .opened && b.grains = [])) = keptBatches covered :=
    List.filter_congr fun b _ => by simp only [Bool.decide_and, decide_not]
  have hempty : (covered.find? fun b => b.state = .opened && b.grains = []) =
      covered.find? fun c => c.state = .opened ∧ c.grains = [] := by simp only [Bool.decide_and]
  rw [goBack, hcover]
  refine (if_neg hany).trans ?_
  dsimp only
  rw [hkept, hempty, List.map_map]
  let cleared : Device := { d with
    dup.batches := older ++ (keptBatches covered).map fun c => c.goBack d.clock.now d.dup.settings.ackTimeout
    dup.staging := [] }
  refine congrArg (·, _) ((onPass_some (d := cleared) hq _).trans ?_)
  unfold Device.goneBack Pass.goneBack
  cases covered.find? fun c => c.state = .opened ∧ c.grains = [] <;> rfl

/-- R150: a covered batch with a grain leaves grains to send again. -/
theorem backlog_goneBack {q : Pass} {covered : List Batch} {staging : List Place} (h : ∃ c ∈ covered, c.grains ≠ []) :
    (q.goneBack covered staging).backlog ≠ [] := by
  obtain ⟨c, hc, hg⟩ := h
  have hkept : c ∈ keptBatches covered := List.mem_filter.2 ⟨hc, decide_eq_true fun he => hg he.2⟩
  obtain ⟨g, hmem⟩ := List.exists_mem_of_ne_nil _ hg
  refine List.ne_nil_of_mem (a := (g, c.sequence)) ?_
  exact List.mem_flatten.2 ⟨_, List.mem_map.2 ⟨c, hkept, rfl⟩, List.mem_map.2 ⟨g, hmem, rfl⟩⟩

end

/-- The consequences of a table or a backlog that has changed, when the pass goes on and the transmitter is held. -/
theorem runs_passGoesOn {d : Device} {q : Pass} (hq : d.dup.pass = some q) (hs : ¬ d.SweepOver q) (hd : ¬ d.DrainOver q)
    (ht : d.TransmitterHeld) : Runs 2 [.passCheck, .transmit] d d :=
  (Runs.one (passCheck_stands hq hs hd)).cons (Runs.one (transmit_held ht))

/-- R149: a REFUSE of a batch that stands, by its reason. -/
theorem takeRefuse_found {d : Device} {b : Batch} {n m : Nat} (hl : d.dup.link = .ready m) (hb : d.batch? n = some b)
    (r : RefuseReason) : d.takeRefuse n r = match r with
      | .full => (d, [.passEnd .failed (some .full)])
      | .noTarget => (d, [.passEnd .failed (some .noTarget)])
      | .data => goBack n d
      | .order => goBack n d := by
  unfold Device.takeRefuse
  exact if_pos ⟨by rw [hl]; rfl, by rw [hb]; rfl⟩

section
variable {s : State} (hl : s.dev.resetLow = false) {q : Pass} {d : Device} {f : Device → Effect} {n : Nat}
  {older covered : List Batch}
include hl

/-- R150: a go-back with a grain to send again. -/
theorem event_goneBack (hf : f s.dev = goBack n d) (hcover : coverFrom n d.dup.batches = (older, covered))
    (hq : d.dup.pass = some q) (h3 : ∀ c ∈ covered, c.resends < 3) (hg : ∃ c ∈ covered, c.grains ≠ [])
    (ht : d.TransmitterHeld) :
    s.event (fun d => settle (f d)) = .next { s with dev := d.goneBack q older covered } := by
  have hback := backlog_goneBack (q := q) (staging := d.dup.staging) hg
  exact event_runs hl (hf.trans (goBack_goes hcover hq h3))
    (runs_passGoesOn (d := d.goneBack q older covered) rfl (fun h => hback h.2.2.1) (fun h => hback h.2.2.1) ht)
    (by decide)

/-- R150, R153: a go-back over a batch that was sent again three times. -/
theorem event_resendFails (hf : f s.dev = goBack n d) (hcover : coverFrom n d.dup.batches = (older, covered))
    (hq : d.dup.pass = some q) {x : Volume} (hx : d.volume? q.volume = some x) (h3 : ∃ c ∈ covered, c.resends ≥ 3)
    (ha : d.PassAlone) : s.event (fun d => settle (f d)) = .next { s with
      dev := (d.passClosed q x .failed (some .resend)).noted .passFailed (.volume q.volume) (.name .resend) } :=
  event_runs hl (hf.trans (goBack_fails hcover h3)) (runs_passEnd_alone hq hx ha (by decide)) (by decide)

end

/-- Settles O55: an ACK by what it leaves of the table, a REFUSE and an expiry by what the go-back covers. -/
theorem acksAndGoBack : Obligations.AcksAndGoBack := by
  intro s hl ht u now
  refine ⟨fun n h => ⟨event_idle (f := (Device.takeAck · n)) (takeAck_none h), fun r =>
      event_idle (f := (Device.takeRefuse · n r)) (takeRefuse_none h r)⟩,
    fun n h => event_idle (f := (Device.ackExpiry · n)) (ackExpiry_none fun b hb => ?_),
    fun before b after hbs hne => ?_⟩
  · rw [batch_none h] at hb
    cases hb
  intro n
  have hfind : s.dev.batch? n = some b := batch_first hbs hne
  refine ⟨fun hs => event_idle (f := (Device.takeAck · n)) (takeAck_not_shut hfind hs),
    fun ha => event_idle (f := (Device.ackExpiry · n)) (ackExpiry_none fun c hc => ?_), fun q x hq hx =>
      ⟨fun m hm hs hleft => ?_, fun m hm hs hst hstaging hback hafter => ?_, fun m hm ha => ?_,
        fun older covered hbatches ho hc => ?_⟩⟩
  · rw [hfind] at hc
    cases hc
    exact ha
  · let e : Device := { s.dev with dup.batches := after }
    have hgoes (hd : u.staging = []) (hb : q.backlog = []) :=
      (hleft.resolve_left (absurd hd)).resolve_left (absurd hb)
    have hsweep : ¬ e.SweepOver q := fun ⟨hstate, hcap, hback, hstaging⟩ => by
      rw [passCapacity_eq (d := e) hx] at hcap
      exact Nat.not_lt.2 hcap ((hgoes hstaging hback).1 hstate)
    have hdrain : ¬ e.DrainOver q := fun ⟨hstate, hafter, hback, hstaging⟩ => (hgoes hstaging hback).2 hstate hafter
    exact event_runs (f := (Device.takeAck · n)) hl (takeAck_shut hm hbs hne hs)
      (runs_passGoesOn (d := e) hq hsweep hdrain ht) (by decide)
  · subst hafter
    let e : Device := { s.dev with dup.batches := [] }
    let f : Device := { e with dup.pass := some (q.closingAt now u.settings.ackTimeout) }
    have hcloses : perform .passCheck e = (f, [.transmit]) := passCheck_closes (d := e) hq ⟨hst, rfl, hback, hstaging⟩
    have hheld : Runs 1 [.transmit] f f := Runs.one (transmit_held ht)
    exact event_runs (f := (Device.takeAck · n)) hl (takeAck_shut hm hbs hne hs) ((Runs.task hcloses hheld).cons hheld)
      (by decide)
  · exact ⟨event_runs (f := (Device.takeRefuse · n .full)) hl (takeRefuse_found hm hfind .full)
        (runs_passEnd_alone hq hx ha (by decide)) (by decide),
      event_runs (f := (Device.takeRefuse · n .noTarget)) hl (takeRefuse_found hm hfind .noTarget)
        (runs_passEnd_alone hq hx ha (by decide)) (by decide)⟩
  · intro kept back
    have hcover : coverFrom n s.dev.dup.batches = (older, covered) := by
      rw [hbatches]
      exact coverFrom_eq ho hc
    have hexpiry {m : Nat} (hm : b.ackEnds = some m) : s.dev.ackExpiry n = goBack n (s.dev.reach m) :=
      ackExpiry_some hfind hm
    refine ⟨fun h3 hg => ⟨fun m hm => ⟨?_, ?_⟩, fun m hm => ?_⟩, fun h3 ha => ?_⟩
    · exact event_goneBack (f := (Device.takeRefuse · n .data)) hl (takeRefuse_found hm hfind .data) hcover hq h3 hg ht
    · exact event_goneBack (f := (Device.takeRefuse · n .order)) hl (takeRefuse_found hm hfind .order) hcover hq h3 hg
        ht
    · exact event_goneBack (f := (Device.ackExpiry · n)) hl (hexpiry hm) hcover hq h3 hg ht
    · intro ended
      have hreach (m : Nat) : (s.dev.reach m).PassAlone := ⟨ha.slots, ha.restores, ha.queue, ha.transmitter⟩
      refine ⟨fun m hm => ⟨?_, ?_⟩, fun m hm => ?_⟩
      · exact event_resendFails (f := (Device.takeRefuse · n .data)) hl (takeRefuse_found hm hfind .data) hcover hq hx
          h3 ha
      · exact event_resendFails (f := (Device.takeRefuse · n .order)) hl (takeRefuse_found hm hfind .order) hcover hq hx
          h3 ha
      · exact event_resendFails (f := (Device.ackExpiry · n)) hl (hexpiry hm) hcover hq hx h3 (hreach m)

end Sys2Proof.Machine
end

section
/-! ### The ends of the sweep and of the draining, and the PASS END timer (O56) -/

namespace Sys2Proof.Machine

/-! #### The end of the sweep (R151) -/

section
variable {d : Device} {q : Pass} {x : Volume}

theorem endSweep_none (hq : d.dup.pass = none) : endSweep d = (d, []) := by
  rw [endSweep, hq]

/-- R151: the pass sweeps with nothing staged, nothing to send again and no grain left to send. -/
def Device.Swept (d : Device) (q : Pass) (x : Volume) : Prop :=
  q.state = .sweeping ∧ q.backlog = [] ∧ d.dup.staging = [] ∧ ∀ g, q.cursor ≤ g → g < x.capacity → ¬ d.Sends q g

/-- R142: the pass whose sweep has passed the last grain. -/
def Pass.pastLast (q : Pass) (x : Volume) : Pass := { q with cursor := max q.cursor x.capacity }

/-- A part written with the batches it has. -/
theorem batches_eta {bs : List Batch} (h : d.dup.batches = bs) : { d with dup.batches := bs } = d := by
  subst h
  rfl

/-- The part with the record of the running pass replaced. -/
def Device.withPass (d : Device) (r : Pass) : Device := { d with dup.pass := some r }

section
variable (hq : d.dup.pass = some q) (hx : d.volume? q.volume = some x)
include hq hx

theorem endSweep_early (h : ¬ d.Swept q x) : endSweep d = (d, []) := by
  rw [endSweep, hq]
  exact if_neg fun ⟨hs, hb, hst, hn⟩ => h ⟨hs, hb, hst, (nextSweep_none_iff hx).1 hn⟩

theorem endSweep_over (h : d.Swept q x) : endSweep d = (d.withPass (q.pastLast x), [.passCheck]) := by
  obtain ⟨hs, hb, hst, hn⟩ := h
  rw [endSweep, hq]
  refine (if_pos ⟨hs, hb, hst, (nextSweep_none_iff hx).2 hn⟩).trans ?_
  rw [onPass_some hq, passCapacity_eq hx]
  rfl

omit hq in
theorem sweepOver_pastLast (h : d.Swept q x) : (d.withPass (q.pastLast x)).SweepOver (q.pastLast x) := by
  obtain ⟨hs, hb, hst, -⟩ := h
  refine ⟨hs, ?_, hb, hst⟩
  rw [passCapacity_eq (d := d.withPass (q.pastLast x)) (q := q.pastLast x) (x := x) hx]
  exact le_max_right ..

end

/-- R151: a pass that drains, with the batches it waits for. -/
def Device.draining (d : Device) (r : Pass) (batches : List Batch) : Device :=
  { d with dup.batches := batches, dup.pass := some { r with state := .draining } }

/-- R151: with a batch left the pass drains. -/
theorem runs_draining {r : Pass} {batches : List Batch} (hb : batches ≠ []) (ht : d.TransmitterHeld) :
    Runs 2 [.passCheck, .transmit] (d.draining r batches) (d.draining r batches) :=
  runs_passGoesOn rfl (fun h => nomatch h.1) (fun h => hb h.2.1) ht

/-- R151, R152: with no batch left the pass asks for its PASS END at once. -/
theorem runs_draining_closes {r : Pass} (hb : r.backlog = []) (hst : d.dup.staging = []) (ht : d.TransmitterHeld) :
    Runs 3 [.passCheck, .transmit] (d.draining r [])
      { d with
        dup.batches := []
        dup.pass := some (r.closingAt d.clock.now d.dup.settings.ackTimeout) } := by
  have hcloses := passCheck_closes (d := d.draining r []) (q := { r with state := .draining }) rfl ⟨rfl, rfl, hb, hst⟩
  have hheld {e : Device} (he : e.TransmitterHeld) : Runs 1 [.transmit] e e := Runs.one (transmit_held he)
  exact (Runs.task hcloses (hheld ht)).cons (hheld ht)

/-- R151: the consequences of the sweep's end, the OPEN batch then being shut. -/
theorem runs_sweepOver {r : Pass} {batches : List Batch} {e : Device} {b : Nat} (hr : d.dup.pass = some r)
    (hs : d.SweepOver r) (hshut : d.shutOpen = { d with dup.batches := batches })
    (hruns : Runs b [.passCheck, .transmit] (d.draining r batches) e) : Runs (b + 1) [.passCheck] d e := by
  refine Runs.task (passCheck_drains hr hs) ?_
  rw [hshut, onPass_some (d := { d with dup.batches := batches }) hr]
  exact hruns

theorem shutOpen_none (h : ∀ b ∈ d.dup.batches, b.state ≠ .opened) :
    d.shutOpen = { d with dup.batches := d.dup.batches } := by
  rw [Device.shutOpen, openBatch_none h]

theorem Device.HoldsBatch.shutOpen {before after : List Batch} {b : Batch} (h : d.HoldsBatch before b after)
    (ho : b.state = .opened) (hb : ∀ f ∈ before, f.state ≠ .opened) : d.shutOpen =
      { d with dup.batches := before ++ b.close d.clock.now d.dup.settings.ackTimeout :: after } := by
  rw [Device.shutOpen, h.openBatch ho hb]
  exact h.shutBatch

/-! #### The end of the draining (R151) -/

theorem drainEnd_early (h : ∀ q, d.dup.pass = some q → ¬ d.DrainOver q) : d.drainEnd = (d, []) := by
  unfold Device.drainEnd
  cases hq : d.dup.pass with
  | none => rfl
  | some q =>
    dsimp only
    by_cases hs : q.state = .draining
    · rw [if_pos hs]
      exact passCheck_stands hq (fun ho => absurd (hs.symm.trans ho.1) (by decide)) (h q hq)
    · exact if_neg hs

theorem drainEnd_over (hq : d.dup.pass = some q) (h : d.DrainOver q) : d.drainEnd =
    (d.withPass (q.closingAt d.clock.now d.dup.settings.ackTimeout), [.transmit]) := by
  simp only [Device.drainEnd, hq]
  exact (if_pos h.1).trans (passCheck_closes hq h)

/-! #### The timer of PASS END (R152) -/

theorem passEndExpiry_none (h : ∀ q, d.dup.pass = some q → q.state ≠ .closing ∨ q.passEndTimer = none) :
    d.passEndExpiry = (d, []) := by
  unfold Device.passEndExpiry
  cases hq : d.dup.pass with
  | none => rfl
  | some q =>
    dsimp only
    split
    · rename_i hs hm
      rcases h q hq with h | h
      · exact absurd hs h
      · rw [h] at hm
        cases hm
    · rfl

section
variable {m : Nat} (hq : d.dup.pass = some q) (hs : q.state = .closing) (hm : q.passEndTimer = some m)
include hq hs hm

/-- R152: the PASS END waits again, and its timer starts again. -/
theorem passEndExpiry_resends (h3 : q.resends < 3) : d.passEndExpiry =
    ((d.reach m).withPass { q.closingAt (max d.clock.now m) d.dup.settings.ackTimeout with resends := q.resends + 1 },
      [.transmit]) := by
  simp only [Device.passEndExpiry, hq, hs, hm]
  refine (if_pos h3).trans ?_
  rw [onPass_some (d := d.reach m) hq, hs]
  rfl

theorem passEndExpiry_fails (h3 : q.resends ≥ 3) :
    d.passEndExpiry = (d.reach m, [.passEnd .failed (some .close)]) := by
  simp only [Device.passEndExpiry, hq, hs, hm]
  exact if_neg (Nat.not_lt.2 h3)

end

end

end Sys2Proof.Machine
end

section
/-! ### PASS ACK and PASS STOP (O56) -/

namespace Sys2Proof.Machine

/-! #### The older DUPLICATION snapshots (R107, R154) -/

/-- R154 step 5: the numbers of the ACTIVE unpinned DUPLICATION snapshots below n. -/
def Volume.olderCopies (x : Volume) (n : Nat) : List Nat :=
  (x.snapshots.filter fun k =>
    k.state = .active ∧ k.pins = 0 ∧ k.kind = .duplication ∧ k.number < n).map Snapshot.number

/-- R107, R108: the snapshots of these numbers have started retiring with nothing to answer. -/
def Volume.allRetire (x : Volume) (ks : List Nat) : Volume := { x with
  snapshots := x.snapshots.map fun k => if k.number ∈ ks then { k with state := .retiring, answers := none } else k
  sweeps := x.sweeps ++ ks
  sweepAt := if x.sweeps = [] ∧ ks ≠ [] then none else x.sweepAt
  sweepFreed := if x.sweeps = [] ∧ ks ≠ [] then 0 else x.sweepFreed }

theorem Volume.allRetire_nil (x : Volume) : x.allRetire [] = x := by
  simp [Volume.allRetire]

theorem Volume.allRetire_cons (x : Volume) (k : Nat) (ks : List Nat) :
    x.allRetire (k :: ks) = (x.startRetirement k none).allRetire ks := by
  have hmap : (x.startRetirement k none).snapshots.map
      (fun n => if n.number ∈ ks then { n with state := .retiring, answers := none } else n) =
        x.snapshots.map fun n => if n.number ∈ k :: ks then { n with state := .retiring, answers := none } else n := by
    have hs : (x.startRetirement k none).snapshots =
        x.snapshots.map fun n => if n.number = k then { n with state := .retiring, answers := none } else n := by
      unfold Volume.startRetirement
      split <;> rfl
    rw [hs, List.map_map]
    refine List.map_congr_left fun n _ => ?_
    by_cases hk : n.number = k
    · by_cases hks : k ∈ ks <;> simp [hk, hks]
    · simp [hk]
  unfold Volume.allRetire
  rw [hmap]
  unfold Volume.startRetirement
  by_cases hx : x.sweeps = [] <;> simp [hx]

theorem foldl_startRetirement (d : Device) (v : Nat) (ks : List Nat) (x : Volume) :
    ks.foldl (fun d k => d.startRetirement v k none) (d.setVolume v x) = d.setVolume v (x.allRetire ks) := by
  induction ks generalizing x with
  | nil => rw [Volume.allRetire_nil]; rfl
  | cons k ks ih =>
    have hstart : (d.setVolume v x).startRetirement v k none = d.setVolume v (x.startRetirement k none) := by
      rw [Device.startRetirement, onVolume_eq (volume_setVolume d v x), setVolume_setVolume]
    rw [List.foldl_cons, hstart, ih, Volume.allRetire_cons]

/-- R154 step 5: the older DUPLICATION snapshots of a record just set start retiring, and nothing follows. -/
theorem retireOlder_setVolume (d : Device) (v n : Nat) (x : Volume) : perform (.retireOlder v n) (d.setVolume v x) =
    (d.setVolume v (x.allRetire (x.olderCopies n)), []) := by
  have hold : (x.snapshots.filter fun s => s.loose && s.kind = .duplication && s.number < n).map Snapshot.number =
      x.olderCopies n := by
    simp only [Volume.olderCopies, Snapshot.loose, Bool.decide_and, Bool.and_assoc]
  show retireOlder v n _ = _
  simp only [retireOlder, volume_setVolume, hold, foldl_startRetirement]

/-! #### The record of the volume after a pass (R153, R154) -/

/-- R153: the volume of a pass that has ended: its snapshot unpinned, its report written. -/
def Volume.passDone (x : Volume) (q : Pass) (r : PassReport) : Volume := { x with
  snapshots := x.snapshots.map fun n => if q.snapshot = some n.number then { n with pins := n.pins - 1 } else n
  report := some r }

theorem passClosed_eq (d : Device) (q : Pass) (x : Volume) (o : PassOutcome) (r : Option PassReason) :
    d.passClosed q x o r = { d with dup.pass := none, dup.staging := [], dup.batches := [] }.setVolume q.volume
      (x.passDone q
        { outcome := o, snapshot := q.snapshot, sent := q.sent, reason := r, endTime := d.clock.stamp }) := rfl

/-- The pin dropped with the pass is of a later snapshot than those that retire. -/
theorem allRetire_passDone {x : Volume} {q : Pass} {n : Nat} (hn : q.snapshot = some n) (r : PassReport) :
    (x.passDone q r).allRetire ((x.passDone q r).olderCopies n) = (x.allRetire (x.olderCopies n)).passDone q r := by
  have hold : (x.passDone q r).olderCopies n = x.olderCopies n := by
    unfold Volume.olderCopies Volume.passDone
    rw [List.filter_map, List.map_map]
    have hnumber (k : Snapshot) : (if q.snapshot = some k.number then { k with pins := k.pins - 1 } else k).number
        = k.number := by split <;> rfl
    refine (congrArg (List.map · _) (funext hnumber)).trans ?_
    refine congrArg (List.map Snapshot.number) (List.filter_congr fun k _ => ?_)
    simp only [Function.comp]
    by_cases hk : k.number = n
    · simp [hk, hn]
    · have hne : ¬ q.snapshot = some k.number := fun h => hk (Option.some.inj (hn.symm.trans h)).symm
      simp only [hne, if_false]
  rw [hold]
  unfold Volume.allRetire Volume.passDone
  simp only [List.map_map]
  congr 1
  refine List.map_congr_left fun k _ => ?_
  simp only [Function.comp]
  by_cases hk : q.snapshot = some k.number <;> by_cases ho : k.number ∈ x.olderCopies n <;> simp [hk, ho]

/-! #### PASS ACK (R152, R154) -/

section
variable {d : Device} {q : Pass} {x : Volume} {n : Nat}

theorem takePassAck_none {target : Nat} (h : ∀ q, d.dup.pass = some q →
    (∀ m, d.dup.link ≠ .ready m) ∨ q.state ≠ .closing ∨ q.target ≠ target ∨ q.snapshot ≠ some n) :
    d.takePassAck target n = (d, []) := by
  unfold Device.takePassAck
  cases hq : d.dup.pass with
  | none => rfl
  | some q =>
    refine if_neg fun ⟨hl, hs, ht, hn⟩ => ?_
    rcases h q hq with h | h | h | h
    · rw [isReady_false h] at hl
      cases hl
    · exact h hs
    · exact h ht
    · exact h hn

/-- R154 steps 1 to 3: the anchor is the snapshot, ONCE is NONE with its queue entry gone, PASS_END is handed over. -/
def Device.confirmed (d : Device) (q : Pass) (x : Volume) (n : Nat) : Device :=
  { d.noted .passEnd (.volume q.volume) (.number n) with
    volumes := d.volumes.insert q.volume (x.confirmed n)
    dup.queue := if x.enrolment = .once then d.dup.queue.filter fun e => e.volume ≠ q.volume else d.dup.queue }

theorem confirmPass_eq (hx : d.volume? q.volume = some x) : d.confirmPass q n = d.confirmed q x n := by
  simp only [Device.confirmPass, hx, onVolume_eq hx, decide_eq_true_eq, notify_eq]
  unfold Device.confirmed
  split <;> rfl

theorem takePassAck_confirms {m : Nat} (hq : d.dup.pass = some q) (hx : d.volume? q.volume = some x)
    (hl : d.dup.link = .ready m) (hs : q.state = .closing) (hn : q.snapshot = some n) :
    d.takePassAck q.target n = (d.confirmed q x n, [.passEnd .done none, .retireOlder q.volume n]) := by
  have hready : d.dup.link.isReady = true := by rw [hl]; rfl
  unfold Device.takePassAck
  rw [hq]
  refine (if_pos ⟨hready, hs, rfl, hn⟩).trans ?_
  rw [confirmPass_eq hx]

/-- With its queue entry gone no more of the pass's end is waited for than before. -/
theorem Device.PassAlone.confirmed (h : d.PassAlone) : (d.confirmed q x n).PassAlone where
  slots := h.slots
  restores := h.restores
  queue := by
    show (if x.enrolment = .once then d.dup.queue.filter _ else d.dup.queue) = [] ∨
      (d.clock.window = .closed ∧ ∀ e ∈ (if x.enrolment = .once then d.dup.queue.filter _ else d.dup.queue), _)
    split
    · exact h.queue.imp (fun hn => by rw [hn]; rfl) fun ⟨hw, ho⟩ => ⟨hw, fun e he => ho e (List.mem_filter.1 he).1⟩
    · exact h.queue
  transmitter := h.transmitter

theorem passClosed_confirmed (y : Volume) : (d.confirmed q x n).passClosed q y .done none =
    { (d.passClosed q y .done none).noted .passEnd (.volume q.volume) (.number n) with
      dup := { d.dup with
        pass := none, staging := [], batches := []
        queue := if x.enrolment = .once then d.dup.queue.filter fun e => e.volume ≠ q.volume else d.dup.queue } } := by
  unfold Device.passClosed Device.confirmed
  rw [Table.insert_insert]
  rfl

/-- R117, R138, R145: what a pass's end leads to finds nothing to do when nothing else waits on that end. -/
theorem Device.PassAlone.runs_closed (ha : d.PassAlone) (o : PassOutcome) (r : Option PassReason) :
    Runs 3 [.passStart, .grant, .transmit] (d.passClosed q x o r) (d.passClosed q x o r) := by
  let e : Device := d.passClosed q x o r
  have hstart : perform .passStart e = (e, []) := passStart_quiet (.inr (startable_none ha.queue))
  have hgrant : perform .grant e = (e, []) :=
    grant_none (fun r hr => Restore.not_eligible (ha.restores r hr)) (passEligible_none rfl)
  have htransmit : perform .transmit e = (e, []) := by
    rcases ha.transmitter with h | h
    · exact transmit_held h
    · exact transmit_nothing h (fun b hb => absurd hb List.not_mem_nil) rfl
  exact (Runs.one hstart).cons ((Runs.one hgrant).cons (Runs.one htransmit))

/-- R153: the end of a pass that is DONE, which nothing else waits on. -/
theorem runs_passEnd_done (hq : d.dup.pass = some q) (hx : d.volume? q.volume = some x) (ha : d.PassAlone) :
    Runs 4 [.passEnd .done none] d (d.passClosed q x .done none) := by
  have hend : perform (.passEnd .done none) d = (d.passClosed q x .done none, [.passStart, .grant, .transmit]) := by
    show passEnd .done none d = _
    simp only [passEnd, hq, closePass_others ha.slots hx]
  exact Runs.task hend (ha.runs_closed .done none)

/-- R153, R154: the pass that is confirmed ends DONE, and its volume's older DUPLICATION snapshots start retiring. -/
theorem runs_passConfirmed (hq : d.dup.pass = some q) (hn : q.snapshot = some n) (ha : d.PassAlone) :
    Runs 5 [.passEnd .done none, .retireOlder q.volume n] (d.confirmed q x n)
      ((d.confirmed q x n).passClosed q ((x.confirmed n).allRetire (x.olderCopies n)) .done none) := by
  have hx' : (d.confirmed q x n).volume? q.volume = some (x.confirmed n) := Table.find_insert_same ..
  refine (runs_passEnd_done (d := d.confirmed q x n) hq hx' ha.confirmed).cons (Runs.one ?_)
  rw [passClosed_eq, passClosed_eq, retireOlder_setVolume, allRetire_passDone hn]
  rfl

/-! #### PASS STOP (R155) -/

theorem passCutOpen_iff (hx : d.volume? q.volume = some x) :
    d.passCutOpen q = true ↔ q.state = .cutting ∧ ∃ c, x.cut = some c ∧ c.requester = .pass := by
  unfold Device.passCutOpen
  rw [hx]
  cases q.state <;> simp
  cases x.cut <;> simp

end

section
variable {s : State} {p : PortId} {tag : Nat} {t : Txn} {q : Pass} {x : Volume} (h : s.Issued p tag .passStop t [])
include h

theorem exec_passStop : exec (.passStop p tag) s =
    .next { s with dev := settle ((s.dev.taken p tag t).passStop p tag) } := by
  simp only [exec, execPassStop, event_high _ h.high, takeThen_issued h]

theorem exec_passStop_none (hq : s.dev.dup.pass = none) : exec (.passStop p tag) s =
    .next { s with dev := s.dev.answered p tag t .notFound none [] } := by
  have htaken : (s.dev.taken p tag t).dup.pass = none := hq
  simp only [exec_passStop h, Device.passStop, htaken, Device.denyEffect, settle_nil, deny_taken]

variable (hq : s.dev.dup.pass = some q) (hx : s.dev.volume? q.volume = some x)
include hq hx

/-- R155: a pass whose cut is still open stops at its outcome. -/
theorem exec_passStop_open {c : CutRecord} (hs : q.state = .cutting) (hc : x.cut = some c) (hr : c.requester = .pass) :
    exec (.passStop p tag) s = .next { s with
      dev := (s.dev.withPass { q with stopRequested := true }).answered p tag t .ok none
        [.num 1 1, .name .cutting] } := by
  have htaken : (s.dev.taken p tag t).dup.pass = some q := hq
  have hopen : (s.dev.taken p tag t).passCutOpen q = true :=
    (passCutOpen_iff (d := s.dev.taken p tag t) (x := x) hx).2 ⟨hs, c, hc, hr⟩
  have hmarked : (s.dev.taken p tag t).onPass (fun y => { y with stopRequested := true }) =
      (s.dev.withPass { q with stopRequested := true }).taken p tag t := onPass_some htaken _
  simp only [exec_passStop h, Device.passStop, htaken, hopen, if_true, settle_nil, hmarked, hs, reply_taken]
  rfl

/-- R155: any other pass ends STOPPED at once, after the answer. -/
theorem exec_passStop_ends (hs : q.state ≠ .cutting ∨ ∀ c, x.cut = some c → c.requester ≠ .pass)
    (ha : s.dev.PassAlone) : exec (.passStop p tag) s = .next { s with
      dev := Device.noted ((s.dev.passClosed q x .stopped (some .stop)).answered p tag t .ok none
          [.num 1 0, .raw (List.replicate 16 0)])
        .passFailed (.volume q.volume) (.name .stop) } := by
  have htaken : (s.dev.taken p tag t).dup.pass = some q := hq
  have hclosed : (s.dev.taken p tag t).passCutOpen q = false := by
    rw [Bool.eq_false_iff, Ne, passCutOpen_iff (d := s.dev.taken p tag t) (x := x) hx]
    rintro ⟨hcut, c, hc, hr⟩
    exact hs.elim (fun h => h hcut) fun h => h c hc hr
  let e : Device := s.dev.answered p tag t .ok none (Item.optName none)
  have hbody : (s.dev.taken p tag t).passStop p tag = (e, [.passEnd .stopped (some .stop)]) := by
    simp only [Device.passStop, htaken, hclosed, Bool.false_eq_true, if_false, reply_taken]
    rfl
  have halone : e.PassAlone := ⟨ha.slots, ha.restores, ha.queue, ha.transmitter⟩
  rw [exec_passStop h, hbody, (runs_passEnd_alone (d := e) hq hx halone (by decide)).settle (by decide)]
  rfl

end

/-- Settles O56: each event by what it finds of the pass, with the looks that follow it. -/
theorem passEnds : Obligations.PassEnds := by
  intro s hl ht u
  refine ⟨fun hq => ?_, fun q x hq hx => ?_⟩
  · have hnot {P : Pass → Prop} (r : Pass) (hr : s.dev.dup.pass = some r) : P r := by
      rw [show s.dev.dup.pass = none from hq] at hr
      cases hr
    exact ⟨event_idle (endSweep_none hq), event_idle (f := Device.drainEnd) (drainEnd_early hnot),
      event_idle (f := Device.passEndExpiry) (passEndExpiry_none hnot),
      fun target n => event_idle (f := (Device.takePassAck · target n)) (takePassAck_none hnot),
      fun p tag t h => exec_passStop_none h hq⟩
  intro now sends swept drained onward closing atEnd
  have hsole {P : Pass → Prop} (h : P q) (r : Pass) (hr : s.dev.dup.pass = some r) : P r := by
    cases hq.symm.trans hr
    exact h
  let e : Device := s.dev.withPass (q.pastLast x)
  refine ⟨fun h => event_idle (endSweep_early hq hx h), fun h hb => ?_, fun h hb ho => ?_,
    fun before b after h hb ho hbefore hafter => ?_,
    fun h => event_idle (f := Device.drainEnd) (drainEnd_early (hsole fun hd => ?_)), fun h => ?_, fun h => ?_,
    fun m hs hm => ⟨fun h3 => ?_, fun h3 ha => ?_⟩, fun target n h => ?_, fun m n hm hs hn ha => ?_,
    fun p tag t h => ⟨fun c hs hc hr => ?_, fun hs ha => ?_⟩⟩
  · have hruns := runs_draining_closes (d := e) (r := q.pastLast x) h.2.1 h.2.2.1 ht
    have hshut : e.shutOpen = { e with dup.batches := [] } := by
      have hnone : e.dup.batches = [] := hb
      rw [shutOpen_none (d := e) (by simp [hnone]), hnone]
    exact event_runs hl (endSweep_over hq hx h) (runs_sweepOver (d := e) rfl (sweepOver_pastLast hx h) hshut hruns)
      (by decide)
  · exact event_runs hl (endSweep_over hq hx h) (runs_sweepOver (d := e) rfl (sweepOver_pastLast hx h)
      (shutOpen_none ho) (runs_draining hb ht)) (by decide)
  · have hheld : e.HoldsBatch before b after := ⟨hb, fun f hf => (hbefore f hf).2, hafter⟩
    exact event_runs hl (endSweep_over hq hx h) (runs_sweepOver (d := e) rfl (sweepOver_pastLast hx h)
      (hheld.shutOpen ho fun f hf => (hbefore f hf).1) (runs_draining (by simp) ht)) (by decide)
  · exact h ⟨hd.1, hd.2.2.1, hd.2.2.2, hd.2.1⟩
  · obtain ⟨hs, hback, hstaging, hb⟩ := h
    have hempty := batches_eta (d := s.dev.withPass (closing q now)) hb
    exact event_runs (f := Device.drainEnd) hl
      ((drainEnd_over hq ⟨hs, hb, hback, hstaging⟩).trans (congrArg (·, _) hempty.symm))
      (Runs.one (transmit_held ht)) (by decide)
  · exact event_idle (f := Device.passEndExpiry) (passEndExpiry_none (hsole h))
  · exact event_runs (f := Device.passEndExpiry) hl (passEndExpiry_resends hq hs hm h3)
      (Runs.one (transmit_held ht)) (by decide)
  · have halone : (s.dev.reach m).PassAlone := ⟨ha.slots, ha.restores, ha.queue, ha.transmitter⟩
    exact event_runs (f := Device.passEndExpiry) hl (passEndExpiry_fails hq hs hm h3)
      (runs_passEnd_alone (d := s.dev.reach m) hq hx halone (by decide)) (by decide)
  · exact event_idle (f := (Device.takePassAck · target n)) (takePassAck_none (hsole h))
  · intro older begins y
    have hruns := runs_passConfirmed (x := x) hq hn ha
    rw [passClosed_confirmed] at hruns
    exact event_runs (f := (Device.takePassAck · q.target n)) hl (takePassAck_confirms hq hx hm hs hn) hruns (by decide)
  · exact exec_passStop_open h hq hx hs hc hr
  · exact exec_passStop_ends h hq hx hs ha

end Sys2Proof.Machine
end

section
/-! ### The start of a pass (O52) -/

namespace Sys2Proof.Machine

section
variable {d : Device} {e : DupEntry} {x : Volume}

/-! #### The entry that may start (R138) -/

/-- R138: the head of the queue while the window is OPEN, the oldest DEMAND entry while it is CLOSED. -/
def Device.Starts (d : Device) (e : DupEntry) : Prop :=
  if d.clock.window = .opened then d.dup.queue.head? = some e
  else ∃ before after, d.dup.queue = before ++ e :: after ∧ e.origin = .demand ∧ ∀ f ∈ before, f.origin ≠ .demand

theorem startable_iff : d.startable = some e ↔ d.Starts e := by
  unfold Device.startable Device.Starts
  by_cases hw : d.clock.window = .opened
  · rw [if_pos hw, if_pos hw]
  · rw [if_neg hw, if_neg hw, List.find?_eq_some_iff_append]
    constructor
    · rintro ⟨ho, before, after, hq, hb⟩
      exact ⟨before, after, hq, of_decide_eq_true ho, fun f hf => by simpa using hb f hf⟩
    · rintro ⟨before, after, hq, ho, hb⟩
      exact ⟨decide_eq_true ho, before, after, hq, fun f hf => by simpa using hb f hf⟩

/-- R138, R140: the entry leaves the queue, the record is made, and the pass asks for its cut. -/
theorem passStart_startable (hp : d.dup.pass = none) (he : d.Starts e) (hx : d.volume? e.volume = some x) :
    passStart d = (d.passBegun d.clock.stamp e d.dup.queue x, [.passCut]) := by
  simp only [passStart, hp, startable_iff.2 he, hx]
  rfl

/-! #### What its cut request comes to (R99, R141) -/

section
variable {q : Pass} (hq : d.dup.pass = some q) (hs : q.state = .cutting) (hx : d.volume? q.volume = some x)
include hq hs hx

/-- R141: a volume in a cut makes the pass wait. -/
theorem passCut_busy (hc : x.cut ≠ none) : perform .passCut d = (d, []) := by
  show passCut d = _
  rw [passCut, hq]
  refine (if_pos hs).trans ?_
  rw [askCut_refused hx (Volume.cutRefusal_busy (.inr hc))]

/-- R141: a refused cut ends the pass. -/
theorem passCut_exhausted (hr : x.state = .ready) (hc : x.cut = none) (he : x.epoch = 16777215) :
    perform .passCut d = (d, [.passEnd .failed (some .cut)]) := by
  show passCut d = _
  rw [passCut, hq]
  refine (if_pos hs).trans ?_
  rw [askCut_refused hx (Volume.cutRefusal_exhausted hr hc he)]

variable (hcut : x.Cuttable)
include hcut

/-- R103, R141: an accepted cut with a write in flight drains. -/
theorem runs_passCut_drains (hf : x.inFlight > 0) :
    Runs 2 [.passCut] d (d.cutAccepted d.clock.stamp q.volume x .duplication .pass) :=
  Runs.task (passCut_accepted rfl hq hs hx hcut) (runs_volumeCheck_drains _ hf _ _)

/-- R103, R141: with nothing in flight and no held write, an accepted cut completes at once. -/
theorem runs_passCut_completes (hstop : q.stopRequested = false) (hf : x.inFlight = 0) (hh : d.Unheld q.volume) :
    Runs 3 [.passCut] d
      { d.cutMade q.volume x.epoch (x.cutBy (d.cutRecord d.clock.stamp .duplication .pass)) with
        dup.pass := some (q.cutAt x.epoch) } := by
  let c : CutRecord := d.cutRecord d.clock.stamp .duplication .pass
  have hcheck : perform (.volumeCheck q.volume) (d.setVolume q.volume (x.inCut c)) =
      (d.setVolume q.volume (x.cutBy c), [.cutDone q.volume c x.epoch 0]) := by
    have hheld : (d.setVolume q.volume (x.inCut c)).Unheld q.volume := fun w hw j hj =>
      hh w hw j (by rw [← hj]; cases w <;> rfl)
    rw [volumeCheck_cut (volume_setVolume d q.volume (x.inCut c)) rfl hf rfl, completeCut_unheld hheld]
    exact congrArg (·, _) (setVolume_setVolume ..)
  have hdone := cutDone_pass (d := d) (v := q.volume) (x := x.cutBy c) (c := c) rfl hq x.epoch 0
  rw [Volume.retained_keeps (.inl (show CutKind.duplication ≠ .scheduled by decide)), hstop] at hdone
  exact Runs.task (passCut_accepted rfl hq hs hx hcut) (Runs.task hcheck (Runs.one hdone))

end

end

section
variable {s : State} (hl : s.dev.resetLow = false)
include hl

/-- A pass that starts, and the outcome of its cut request. -/
theorem exec_passStart {e : DupEntry} {x : Volume} {d : Device} {b : Nat} (hp : s.dev.dup.pass = none)
    (he : s.dev.Starts e) (hx : s.dev.volume? e.volume = some x)
    (hr : Runs b [.passCut] (s.dev.passBegun s.dev.clock.stamp e s.dev.dup.queue x) d) (hb : b ≤ 100) :
    exec .passStart s = .next { s with dev := d } :=
  event_runs hl (passStart_startable hp he hx) hr hb

end

/-- Settles O52: the entry that may start is the one R138 names, and its cut request goes by the volume's state. -/
theorem passStarts : Obligations.PassStarts := by
  intro s hl queue starts
  refine ⟨fun h => event_idle (passStart_quiet (h.imp_right fun hn => Option.eq_none_iff_forall_ne_some.2 fun e he =>
    hn e (startable_iff.1 he))), fun e x hp he hx => ?_⟩
  intro stamp pass d
  have hstart {f : Device} {b : Nat} := exec_passStart (d := f) (b := b) hl hp he hx
  let f : Device := s.dev.passBegun s.dev.clock.stamp e queue x
  refine ⟨fun hc => ⟨_, hstart (Runs.one (passCut_busy (d := f) rfl rfl hx hc)) (by decide), rfl, rfl⟩,
    fun hc hs hep hlen => ⟨fun hf => ?_, fun hf hhold => ?_⟩, fun hc hs hep hq ha => ?_⟩
  · exact hstart (runs_passCut_drains (d := f) rfl rfl hx ⟨hs, hc, hep, hlen⟩ hf) (by decide)
  · have hheld : f.Unheld e.volume := fun w hw => by
      rw [show f.cutHold = [] from hhold] at hw
      cases hw
    refine (hstart (runs_passCut_completes (d := f) rfl rfl hx ⟨hs, hc, hep, hlen⟩ rfl hf hheld) (by decide)).trans ?_
    unfold Volume.cutBy
    rw [← hc]
    rfl
  · let g : Device := { s.dev with dup.queue := [], dup.pass := some (pass none .cutting) }
    have hleft : queue.filter (fun f => f.volume ≠ e.volume) = [] := by
      rw [hq]
      simp
    have hg : f = g :=
      congrArg (fun l => { s.dev with dup.queue := l, dup.pass := some (pass none .cutting) }) hleft
    have halone : g.PassAlone := ⟨ha.slots, ha.restores, ha.queue, ha.transmitter⟩
    have hends := runs_passEnd_alone (d := g) (o := .failed) (why := .cut) rfl hx halone (by decide)
    refine hstart (b := 5) ?_ (by decide)
    show Runs 5 [.passCut] f _
    rw [hg]
    exact Runs.task (passCut_exhausted (d := g) rfl rfl hx hs hc hep) hends

end Sys2Proof.Machine
end

section
/-! ### ENROL and DUPLICATE NOW (O50) -/

namespace Sys2Proof.Machine

/-! #### The names of enrolments (R135) -/

theorem readEnrolment_none {bs : List Byte} (h1 : bs ≠ padded "NONE") (h2 : bs ≠ padded "NIGHTLY")
    (h3 : bs ≠ padded "ONCE") : readEnrolment bs = none := by
  have hname {n : Name} (h : bs ≠ padded n.text) : isName bs n = false := decide_eq_false h
  rw [readEnrolment, hname (n := .none) h1, hname (n := .nightly) h2, hname (n := .once) h3]
  rfl

theorem readEnrolment_some {bs : List Byte} {e : Enrolment} (h : (bs = padded "NONE" ∧ e = .none)
    ∨ (bs = padded "NIGHTLY" ∧ e = .nightly) ∨ (bs = padded "ONCE" ∧ e = .once)) : readEnrolment bs = some e := by
  rcases h with ⟨rfl, rfl⟩ | ⟨rfl, rfl⟩ | ⟨rfl, rfl⟩ <;> decide

/-! #### The checks of ENROL (R135) -/

section
variable {d : Device} {v target : Nat} {e : Enrolment} {x : Volume}

/-- R135 check 1: the volume or the target is out of its range. -/
def BadEnrol (v : Nat) (e : Enrolment) (target : Nat) : Prop :=
  v = 0 ∨ v > 64 ∨ (e ≠ .none ∧ (target = 0 ∨ target > 4095))

/-- R135 check 3: another enrolled volume has the target. -/
def Device.TargetTaken (d : Device) (v target : Nat) : Prop :=
  ∃ f ∈ d.volumes, f.1 ≠ v ∧ f.2.enrolment ≠ .none ∧ f.2.target = some target

/-- R135 check 4: a pass of the volume runs to another target. -/
def Device.PassElsewhere (d : Device) (v target : Nat) : Prop :=
  ∃ q, d.dup.pass = some q ∧ q.volume = v ∧ q.target ≠ target

theorem targetTaken_iff : d.targetTaken v target = true ↔ d.TargetTaken v target := by
  simp [Device.targetTaken, Device.TargetTaken, and_assoc]

theorem passElsewhere_iff : d.passElsewhere v target = true ↔ d.PassElsewhere v target := by
  unfold Device.passElsewhere Device.PassElsewhere
  cases d.dup.pass <;> simp

theorem badEnrol_iff : (badVolume v = true ∨ (e ≠ .none ∧ (target = 0 ∨ target > 4095))) ↔ BadEnrol v e target := by
  rw [badVolume_iff, BadEnrol, or_assoc]

theorem enrolRefusal_bad (h : BadEnrol v e target) : d.enrolRefusal v e target = some .badArgument :=
  if_pos (badEnrol_iff.2 h)

section
variable (hb : ¬ BadEnrol v e target)
include hb

theorem enrolRefusal_undefined (hv : d.volume? v = none) : d.enrolRefusal v e target = some .notFound := by
  rw [Device.enrolRefusal, if_neg (mt badEnrol_iff.1 hb), hv]

variable (hv : d.volume? v = some x)
include hv

/-- What follows R135's first check on a volume that is defined. -/
theorem enrolRefusal_defined : d.enrolRefusal v e target =
    if x.state = .removing then some .notFound
    else if e ≠ .none ∧ d.targetTaken v target then some .conflict
    else if e ≠ .none ∧ d.passElsewhere v target then some .busy
    else none := by
  rw [Device.enrolRefusal, if_neg (mt badEnrol_iff.1 hb), hv]

theorem enrolRefusal_removing (hs : x.state = .removing) : d.enrolRefusal v e target = some .notFound :=
  (enrolRefusal_defined hb hv).trans (if_pos hs)

variable (hs : x.state ≠ .removing)
include hs

theorem enrolRefusal_taken (he : e ≠ .none) (ht : d.TargetTaken v target) :
    d.enrolRefusal v e target = some .conflict := by
  rw [enrolRefusal_defined hb hv, if_neg hs, if_pos ⟨he, targetTaken_iff.2 ht⟩]

theorem enrolRefusal_elsewhere (he : e ≠ .none) (ht : ¬ d.TargetTaken v target) (hp : d.PassElsewhere v target) :
    d.enrolRefusal v e target = some .busy := by
  rw [enrolRefusal_defined hb hv, if_neg hs, if_neg fun h => ht (targetTaken_iff.1 h.2),
    if_pos ⟨he, passElsewhere_iff.2 hp⟩]

theorem enrolRefusal_passes (h : e = .none ∨ (¬ d.TargetTaken v target ∧ ¬ d.PassElsewhere v target)) :
    d.enrolRefusal v e target = none := by
  rw [enrolRefusal_defined hb hv, if_neg hs, if_neg, if_neg]
  · rintro ⟨he, hp⟩
    exact (h.resolve_left he).2 (passElsewhere_iff.1 hp)
  · rintro ⟨he, ht⟩
    exact (h.resolve_left he).1 (targetTaken_iff.1 ht)

end

/-! #### What an accepted ENROL stores and answers (R135) -/

/-- R135: the volume enrolled for a target; the anchor starts again at a new one. -/
theorem enrolled_eq (x : Volume) (he : e ≠ .none) (target : Nat) : x.enrolled e target = { x with
    enrolment := e, target := some target
    anchor := if x.target = none ∨ x.target = some target then x.anchor else 0 } := by
  rw [Volume.enrolled, if_neg he]
  by_cases h : x.target = none ∨ x.target = some target
  · rw [if_pos h, if_pos h]
  · rw [if_neg h, if_neg h]

theorem enrolItems_of (hv : d.volume? v = some x) :
    d.enrolItems v = [.name x.enrolment.name] ++ Item.optNum 2 x.target ++ [.num 4 x.anchor] := by
  simp [Device.enrolItems, hv, fields]

end

section
variable {s : State} {p : PortId} {tag : Nat} {t : Txn} {v target : Nat} {bytes : List Byte}
  (h : s.Issued p tag .enrol t [.num v, .text bytes, .num target])
include h

theorem exec_enrol : exec (.enrol p tag) s =
    .next { s with dev := (s.dev.taken p tag t).enrol p tag [.num v, .text bytes, .num target] } := by
  simp only [exec, execEnrol, event_high _ h.high, takeNow_issued h]

theorem exec_enrol_unnamed (he : readEnrolment bytes = none) : exec (.enrol p tag) s =
    .next { s with dev := s.dev.answered p tag t .badArgument none [] } := by
  simp only [exec_enrol h, Device.enrol, he, deny_taken]

variable {e : Enrolment} (he : readEnrolment bytes = some e)
include he

theorem exec_enrol_refused {st : MgmtStatus} (hr : s.dev.enrolRefusal v e target = some st) :
    exec (.enrol p tag) s = .next { s with dev := s.dev.answered p tag t st none [] } := by
  have htaken : (s.dev.taken p tag t).enrolRefusal v e target = some st := hr
  simp only [exec_enrol h, Device.enrol, he, htaken, deny_taken]

/-- R135: an accepted ENROL leaves the part d, and answers with the volume y as it is there. -/
theorem exec_enrol_accepted {d : Device} {y : Volume} (hr : s.dev.enrolRefusal v e target = none)
    (hd : (s.dev.taken p tag t).enrolVolume v e target = d.taken p tag t) (hy : d.volume? v = some y) :
    exec (.enrol p tag) s = .next { s with
      dev := d.answered p tag t .ok none
        ([.name y.enrolment.name] ++ Item.optNum 2 y.target ++ [.num 4 y.anchor]) } := by
  have htaken : (s.dev.taken p tag t).enrolRefusal v e target = none := hr
  have hitems : (d.taken p tag t).enrolItems v = _ := enrolItems_of (d := d.taken p tag t) hy
  simp only [exec_enrol h, Device.enrol, he, htaken, hd, hitems, reply_taken]

end

/-! #### DUPLICATE NOW (R137) -/

section
variable {d : Device} {v : Nat} {x : Volume}

theorem duplicateRefusal_bad (h : v = 0 ∨ v > 64) : d.duplicateRefusal v = some .badArgument :=
  if_pos ((badVolume_iff v).2 h)

section
variable (h1 : 1 ≤ v) (h64 : v ≤ 64)
include h1 h64

theorem duplicateRefusal_undefined (hv : d.volume? v = none) : d.duplicateRefusal v = some .notFound := by
  rw [Device.duplicateRefusal, badVolume_false h1 h64, hv]
  rfl

theorem duplicateRefusal_defined (hv : d.volume? v = some x) : d.duplicateRefusal v =
    match x.state with
    | .removing => some .notFound
    | .preparing => some .busy
    | .ready => if x.enrolment = .none then some .conflict else none := by
  rw [Device.duplicateRefusal, badVolume_false h1 h64, hv]
  rfl

end

/-- R137: an entry joins at the tail, its place the last. -/
theorem demand_joins (h : ∀ f ∈ d.dup.queue, f.volume ≠ v) :
    d.demand v = { d with dup.queue := d.dup.queue ++ [{ volume := v, origin := .demand }] } := by
  rw [Device.demand, if_neg]
  simpa using h

theorem queuePosition_of {before after : List DupEntry} {f : DupEntry} (hq : d.dup.queue = before ++ f :: after)
    (hf : f.volume = v) (hb : ∀ g ∈ before, g.volume ≠ v) : d.queuePosition v = before.length + 1 := by
  rw [Device.queuePosition, hq, List.takeWhile_append_of_pos fun g hg => by simpa using hb g hg,
    List.takeWhile_cons_of_neg (by simp [hf]), List.append_nil]

/-- R137: the entry of a volume turns DEMAND in its place. -/
theorem demand_turns {before after : List DupEntry} {f : DupEntry} (hq : d.dup.queue = before ++ f :: after)
    (hf : f.volume = v) (hb : ∀ g ∈ before, g.volume ≠ v) (ha : ∀ g ∈ after, g.volume ≠ v) :
    d.demand v = { d with dup.queue := before ++ { f with origin := .demand } :: after } := by
  have hmap (l : List DupEntry) (hl : ∀ g ∈ l, g.volume ≠ v) :
      l.map (fun g => if g.volume = v then { g with origin := .demand } else g) = l :=
    (List.map_congr_left fun g hg => if_neg (hl g hg)).trans (List.map_id' l)
  have hany : (d.dup.queue.any fun g => g.volume = v) = true :=
    List.any_eq_true.2 ⟨f, by simp [hq], decide_eq_true hf⟩
  rw [Device.demand, if_pos hany, hq, List.map_append, List.map_cons, hmap before hb, hmap after ha, if_pos hf]

end

section
variable {s : State} {p : PortId} {tag : Nat} {t : Txn} {v : Nat} (h : s.Issued p tag .duplicateNow t [.num v])
include h

theorem exec_duplicateNow : exec (.duplicateNow p tag) s =
    .next { s with dev := settle ((s.dev.taken p tag t).duplicateNow p tag [.num v]) } := by
  simp only [exec, execDuplicateNow, event_high _ h.high, takeThen_issued h]

theorem exec_duplicateNow_refused {st : MgmtStatus} (hr : s.dev.duplicateRefusal v = some st) :
    exec (.duplicateNow p tag) s = .next { s with dev := s.dev.answered p tag t st none [] } := by
  have htaken : (s.dev.taken p tag t).duplicateRefusal v = some st := hr
  simp only [exec_duplicateNow h, Device.duplicateNow, htaken, Device.denyEffect, settle_nil, deny_taken]

/-- R137, R138: an accepted DUPLICATE NOW is answered with the place of the entry, and a pass may then start. -/
theorem exec_duplicateNow_accepted {d : Device} {n : Nat} (hr : s.dev.duplicateRefusal v = none)
    (hd : (s.dev.taken p tag t).demand v = d.taken p tag t) (hn : d.queuePosition v = n) :
    exec (.duplicateNow p tag) s = .next { s with
      dev := settle (d.answered p tag t .ok none [.num 1 n, .name .demand], [.passStart]) } := by
  have htaken : (s.dev.taken p tag t).duplicateRefusal v = none := hr
  have hplace : (d.taken p tag t).queuePosition v = n := hn
  simp only [exec_duplicateNow h, Device.duplicateNow, htaken, hd, hplace, reply_taken]

/-- R137, R138: while a pass runs none starts. -/
theorem exec_duplicateNow_running {d : Device} {n : Nat} (hr : s.dev.duplicateRefusal v = none)
    (hd : (s.dev.taken p tag t).demand v = d.taken p tag t) (hn : d.queuePosition v = n) (hp : d.dup.pass ≠ none) :
    exec (.duplicateNow p tag) s =
      .next { s with dev := d.answered p tag t .ok none [.num 1 n, .name .demand] } := by
  let e : Device := d.answered p tag t .ok none [.num 1 n, .name .demand]
  have hstart : perform .passStart e = (e, []) := passStart_quiet (.inl hp)
  rw [exec_duplicateNow_accepted h hr hd hn, (Runs.one hstart).settle (by decide)]

end

end Sys2Proof.Machine
end

section
/-! ### The next grant of a copy slot (R92, R116, R117, R118) -/

namespace Sys2Proof.Machine

/-! #### Which restore is chosen, and whether the pass is eligible (R116, R117) -/

section
variable {d : Device} {k : SlotId} {before after : List Restore} {r : Restore}

/-- R117: of the eligible restores, r comes first after the cursor, taken round. -/
def Device.ComesFirst (d : Device) (r q : Restore) : Prop :=
  (d.copy.cursor < r.id ∧ (d.copy.cursor < q.id → r.id < q.id))
    ∨ (r.id ≤ d.copy.cursor ∧ q.id ≤ d.copy.cursor ∧ r.id < q.id)

theorem min_of_mem {l : List Nat} {n : Nat} (hn : n ∈ l) (h : ∀ m ∈ l, n ≤ m) : l.min? = some n :=
  List.min?_eq_some_iff.2 ⟨hn, h⟩

/-- R117: the eligible restore that comes first after the cursor is chosen. -/
theorem Device.HoldsRestore.chosen_first (h : d.HoldsRestore before r after) (hr : r.eligible = true)
    (ho : ∀ q ∈ before ++ after, q.eligible = true → d.ComesFirst r q) : d.chosenRestore = some r := by
  let ids : List Nat := (d.copy.restores.filter Restore.eligible).map Restore.id
  have hself : r.id ∈ ids := List.mem_map.2 ⟨r, List.mem_filter.2 ⟨by simp [h.list], hr⟩, rfl⟩
  have hothers (n : Nat) (hn : n ∈ ids) : n = r.id ∨ ∃ q, q.id = n ∧ d.ComesFirst r q := by
    obtain ⟨q, hq, rfl⟩ := List.mem_map.1 hn
    obtain ⟨hmem, he⟩ := List.mem_filter.1 hq
    by_cases hqr : q = r
    · exact .inl (congrArg Restore.id hqr)
    · exact .inr ⟨q, rfl, ho q (h.mem_of_ne hmem hqr) he⟩
  have hnext : (match (ids.filter fun i => d.copy.cursor < i).min? with
      | some i => some i
      | none => ids.min?) = some r.id := by
    by_cases hlt : d.copy.cursor < r.id
    · have hmin : (ids.filter fun i => d.copy.cursor < i).min? = some r.id := by
        refine min_of_mem (List.mem_filter.2 ⟨hself, decide_eq_true hlt⟩) fun n hn => ?_
        obtain ⟨hn, hcn⟩ := List.mem_filter.1 hn
        have hcn : d.copy.cursor < n := of_decide_eq_true hcn
        rcases hothers n hn with rfl | ⟨q, rfl, ⟨_, hq⟩ | ⟨hle, _, _⟩⟩
        · exact le_rfl
        · exact (hq hcn).le
        · omega
      rw [hmin]
    · have hbelow (n : Nat) (hn : n ∈ ids) : n ≤ d.copy.cursor ∧ r.id ≤ n := by
        rcases hothers n hn with rfl | ⟨q, rfl, ⟨hq, _⟩ | ⟨_, hq, hlt⟩⟩
        · exact ⟨Nat.not_lt.1 hlt, le_rfl⟩
        · exact absurd hq hlt
        · exact ⟨hq, hlt.le⟩
      have hnone : ids.filter (fun i => d.copy.cursor < i) = [] :=
        List.filter_eq_nil_iff.2 fun n hn => by simpa using (hbelow n hn).1
      rw [hnone]
      exact min_of_mem hself fun n hn => (hbelow n hn).2
  show Option.bind (match (ids.filter fun i => d.copy.cursor < i).min? with
      | some i => some i
      | none => ids.min?) d.restore? = some r
  rw [hnext]
  exact h.find

/-- R116: the pass has no ready grain, or its cap is reached. -/
theorem passEligible_false (h : d.dup.pass = none ∨ (∀ o ∈ d.dup.staging, o.phase ≠ .ready)
    ∨ d.modeInForce.cap ≤ d.passSlots) : d.passEligible = false := by
  rcases h with h | h | h
  · exact passEligible_none h
  · exact Device.PassUnready.not_eligible (.inr h)
  · simp [Device.passEligible, h]

theorem passEligible_true {q : Pass} {pl : Place} (hq : d.dup.pass = some q) (hr : d.readyPlace = some pl)
    (h : d.passSlots < d.modeInForce.cap) : d.passEligible = true := by
  simp [Device.passEligible, hq, hr, h]

/-! #### Whom the one FREE slot goes to (R117) -/

section
variable (hk : d.slot? k = none) (hfull : ∀ l, l ≠ k → d.slot? l ≠ none)
include hk hfull

/-- R117: the chosen restore is served, unless the pass is eligible and was not served last. -/
theorem grantSlot_chosen (hr : d.chosenRestore = some r)
    (hp : d.passEligible = false ∨ d.copy.lastServed ≠ some .restore) : perform .grant d = d.grantRestore k r := by
  rcases hp with hp | hp
  · show grantSlot d = _
    simp only [grantSlot, freeSlot_only hk hfull, hr, hp, Bool.false_eq_true, if_false]
  · exact grantSlot_restore hk hfull hr (.inr hp)

/-- R117: the ready grain of the pass is served when no restore is eligible, or one was served last. -/
theorem grantSlot_pass {q : Pass} {pl : Place} (hq : d.dup.pass = some q) (hready : d.readyPlace = some pl)
    (hcap : d.passSlots < d.modeInForce.cap)
    (hr : (∀ r ∈ d.copy.restores, r.eligible = false) ∨ d.copy.lastServed = some .restore) :
    perform .grant d = d.grantPass k q pl := by
  show grantSlot d = _
  simp only [grantSlot, freeSlot_only hk hfull, passEligible_true hq hready hcap, hq, hready, if_true]
  rcases hr with hr | hr
  · rw [chosenRestore_none hr]
  · cases d.chosenRestore with
    | none => rfl
    | some r => exact if_pos hr

end

/-! #### The grant to the pass (R117, R119) -/

/-- R119: the record of a slot that reads grain g for the pass. -/
def Pass.readSlot (q : Pass) (g : Nat) (image : Image) : CopySlot :=
  { stream := .pass, volume := q.volume, grain := g, snapshot := q.snapshot.getD 0, image := image
    destVolume := 0, destGrain := 0, declared := 0, phase := .reading }

/-- R117: the part with a slot given to the pass, its grain being read, the read not yet asked for. -/
def Device.passServed (d : Device) (staging : List Place) : Device :=
  { d with copy.lastServed := some .pass, dup.staging := staging }

section
variable {first rest : List Place} {pl : Place} {q : Pass} (hs : d.dup.staging = first ++ pl :: rest)
  (hp : pl.phase = .ready) (ho : ∀ o ∈ first ++ rest, o.phase ≠ .ready)
include hs hp ho

theorem readyPlace_only : d.readyPlace = some pl := by
  have hfirst : first.find? (fun o => o.phase = .ready) = none :=
    List.find?_eq_none.2 fun o hm => by simpa using ho o (List.mem_append_left _ hm)
  rw [Device.readyPlace, hs, List.find?_append, hfirst]
  simp [hp]

theorem grantPass_eq (k : SlotId) (q : Pass) : d.grantPass k q pl =
    ((d.passServed (first ++ { pl with phase := .reading k } :: rest)).setSlot k
      (some (q.readSlot pl.grain (d.resolve q.volume (q.snapshot.getD 0) pl.grain))), [.startRead k, .grant]) := by
  have hmap (l : List Place) (hl : ∀ o ∈ l, o ∈ first ++ rest) :
      l.map (fun o => if o.phase = .ready then { o with phase := .reading k } else o) = l :=
    (List.map_congr_left fun o hm => if_neg (ho o (hl o hm))).trans (List.map_id' l)
  have hstaging : d.dup.staging.map (fun o => if o.phase = .ready then { o with phase := .reading k } else o) =
      first ++ { pl with phase := .reading k } :: rest := by
    rw [hs, List.map_append, List.map_cons, if_pos hp, hmap first fun o => List.mem_append_left _,
      hmap rest fun o => List.mem_append_right _]
  rw [← hstaging]
  rfl

end

/-! #### The grant and the read that follows it -/

/-- R92: the read of the slot just given is asked for, and with no other slot FREE no more follows. -/
theorem runs_grant_read {e : Device} {z : CopySlot} (hfull : ∀ l, l ≠ k → e.slot? l ≠ none)
    (hg : perform .grant d = (e.setSlot k (some z), [.startRead k, .grant]))
    (hi : e.resolve z.volume z.snapshot z.grain = z.image) (hw : z.image ≠ .unwritten)
    (hp : (∃ v, z.image = .live v) → e.entry? z.volume z.grain = none → e.pres.table.length < 256)
    (hl : e.pool.link = .up) : Runs 3 [.grant] d (e.readAsked k z) := by
  have hread : perform (.startRead k) (e.setSlot k (some z)) = (e.readAsked k z, []) :=
    (startRead_asks (d := e.setSlot k (some z)) (slot_setSlot_same _) hi hw hp hl).trans
      (congrArg (·, []) (readAsked_setSlot e k z))
  exact Runs.task hg ((Runs.one hread).cons (Runs.one (grant_full (slots_taken_readAsked hfull z))))

section
variable (hk : d.slot? k = none) (hfull : ∀ l, l ≠ k → d.slot? l ≠ none) (hl : d.pool.link = .up)
include hk hfull hl

/-- R92, R117: the one FREE slot is given to the ready grain of the pass. -/
theorem runs_grant_pass {first rest : List Place} {pl : Place} {q : Pass} (hq : d.dup.pass = some q)
    (hs : d.dup.staging = first ++ pl :: rest) (hp : pl.phase = .ready) (ho : ∀ o ∈ first ++ rest, o.phase ≠ .ready)
    (hcap : d.passSlots < d.modeInForce.cap)
    (hr : (∀ r ∈ d.copy.restores, r.eligible = false) ∨ d.copy.lastServed = some .restore) {image : Image}
    (hi : d.resolve q.volume (q.snapshot.getD 0) pl.grain = image) (hw : image ≠ .unwritten)
    (hplace : (∃ v, image = .live v) → d.entry? q.volume pl.grain = none → d.pres.table.length < 256) :
    Runs 3 [.grant] d ((d.passServed (first ++ { pl with phase := .reading k } :: rest)).readAsked k
      (q.readSlot pl.grain image)) := by
  subst hi
  have hgrant := grantSlot_pass hk hfull hq (readyPlace_only hs hp ho) hcap hr
  exact runs_grant_read (e := d.passServed (first ++ { pl with phase := .reading k } :: rest)) hfull
    (hgrant.trans (grantPass_eq hs hp ho k q)) rfl hw hplace hl

/-- R92, R117, R118: the one FREE slot is given to the first grain g that needs it of the eligible restore that comes
first, those before it being counted. -/
theorem Device.HoldsRestore.runs_grant_first (h : d.HoldsRestore before r after) (he : r.eligible = true)
    (hfirst : ∀ q ∈ before ++ after, q.eligible = true → d.ComesFirst r q)
    (hp : d.passEligible = false ∨ d.copy.lastServed ≠ some .restore) {f : Extent} {c g : Nat}
    (hf : r.currentExtent = some f) (hc : r.cursor = some c) (hlo : f.source ≤ c) (hcg : c ≤ g)
    (hhi : g < f.source + f.count)
    (hover : ∀ i, c ≤ i → i < g → d.resolve r.source r.snapshot i = .unwritten ∨ d.InPlace r f i)
    (hg : ¬ d.InPlace r f g) (hw : d.resolve r.source r.snapshot g ≠ .unwritten)
    (hplace : (∃ v, d.resolve r.source r.snapshot g = .live v) → d.entry? r.source g = none →
      d.pres.table.length < 256) :
    Runs 3 [.grant] d
      ((d.restoreServed before r after g (d.unwrittenFrom r c (g - c)) (d.writtenFrom r c (g - c))).readAsked k
        (r.readSlot f g (d.resolve r.source r.snapshot g))) := by
  have hsum : c + (g - c) = g := Nat.add_sub_cancel' hcg
  have htaken : d.takeGrains r f f.count { cursor := c, unwritten := 0, alreadyCurrent := 0, found := none } =
      { cursor := g + 1, unwritten := d.unwrittenFrom r c (g - c), alreadyCurrent := d.writtenFrom r c (g - c)
        found := some (g, d.resolve r.source r.snapshot g) } := by
    have hpasses := takeGrains_passes (d := d) (r := r) (e := f) (m := f.count) (n := g - c)
      (t := { cursor := c, unwritten := 0, alreadyCurrent := 0, found := none })
    simp only [hsum, Nat.zero_add] at hpasses
    exact hpasses (by omega) hhi hover hg hw
  have hgrant := grantSlot_chosen hk hfull (h.chosen_first he hfirst) hp
  exact runs_grant_read (e := d.restoreServed before r after g _ _) hfull
    (hgrant.trans (h.grantRestore_found hf hc htaken)) rfl hw hplace hl

end

end

end Sys2Proof.Machine
end

section
/-! ### PACING SET (O50) -/

namespace Sys2Proof.Machine

theorem readPacing_eq (bs : List Byte) : readPacing bs =
    if bs = padded "SPRINT" then .sprint else if bs = padded "SHARE" then .share else .trickle := by
  simp only [readPacing, isName, decide_eq_true_eq]
  rfl

/-- R139: the part with the pacing mode stored. -/
def Device.paced (d : Device) (m : Pacing) : Device := { d with dup.mode := m }

theorem exec_pacingSet {s : State} {p : PortId} {tag : Nat} {t : Txn} {bytes : List Byte}
    (h : s.Issued p tag .pacingSet t [.text bytes]) {d : Device} {b : Nat}
    (hr : Runs b [.grant]
      ((s.dev.paced (readPacing bytes)).answered p tag t .ok none [.name (readPacing bytes).name]) d) (hb : b ≤ 100) :
    exec (.pacingSet p tag) s = .next { s with dev := d } := by
  have hbody : (s.dev.taken p tag t).pacingSet p tag [.text bytes] =
      ((s.dev.paced (readPacing bytes)).answered p tag t .ok none [.name (readPacing bytes).name], [.grant]) :=
    congrArg (·, _) (reply_taken (s.dev.paced (readPacing bytes)) p tag t .ok none _)
  simp only [exec, execPacingSet, event_high _ h.high, takeThen_issued h, hbody, hr.settle (hb.trans (by decide))]

/-- R116, R139: the cap of the mode in force. -/
theorem modeInForce_cap (d : Device) : d.modeInForce.cap =
    if d.clock.window = .opened then (match d.dup.mode with | .sprint => 12 | .share => 6 | .trickle => 1) else 1 := by
  unfold Device.modeInForce
  by_cases hw : d.clock.window = .opened
  · rw [if_pos hw, if_pos hw]
    rfl
  · rw [if_neg hw, if_neg hw]
    rfl

/-- Settles O50: an ENROL and a DUPLICATE NOW by their checks in order, a PACING SET by the grant that follows it. -/
theorem enrolAndPacing : Obligations.EnrolAndPacing := by
  intro s p tag t Answers
  refine ⟨fun v target bytes h => ?_, fun v h => ?_, fun bytes h => ?_⟩
  · intro i
    refine ⟨fun h1 h2 h3 => exec_enrol_unnamed h (readEnrolment_none h1 h2 h3), fun e hbytes => ?_⟩
    intro bad taken elsewhere
    have he := readEnrolment_some hbytes
    refine ⟨fun hb => exec_enrol_refused h he (enrolRefusal_bad hb),
      fun hb hv => exec_enrol_refused h he (enrolRefusal_undefined hb hv), fun x hb hv =>
      ⟨fun hs => exec_enrol_refused h he (enrolRefusal_removing hb hv hs),
        fun hs hne ht => exec_enrol_refused h he (enrolRefusal_taken hb hv hs hne ht),
        fun hs hne ht hp => exec_enrol_refused h he (enrolRefusal_elsewhere hb hv hs hne ht hp),
        fun hs hne ht hp => ?_, fun hs hnone => ?_⟩⟩
    · intro anchor
      let y : Volume := { x with enrolment := e, target := some target, anchor := anchor }
      refine exec_enrol_accepted h he (d := s.dev.setVolume v y) (y := y)
        (enrolRefusal_passes hb hv hs (.inr ⟨ht, hp⟩)) ?_ (volume_setVolume ..)
      rw [Device.enrolVolume, onVolume_eq (d := s.dev.taken p tag t) hv, enrolled_eq x hne]
      exact if_neg hne
    · subst hnone
      let y : Volume := { x with enrolment := .none }
      refine exec_enrol_accepted h he (y := y)
        (d := { s.dev.setVolume v y with dup.queue := s.dev.dup.queue.filter fun f => f.volume ≠ v })
        (enrolRefusal_passes hb hv hs (.inl rfl)) ?_ (volume_setVolume ..)
      rw [Device.enrolVolume, onVolume_eq (d := s.dev.taken p tag t) hv]
      rfl
  · intro i
    refine ⟨fun hb => exec_duplicateNow_refused h (duplicateRefusal_bad hb),
      fun h1 h64 hv => exec_duplicateNow_refused h (duplicateRefusal_undefined h1 h64 hv), fun x h1 h64 hv => ?_⟩
    have hrefusal := duplicateRefusal_defined h1 h64 hv
    refine ⟨fun hs => exec_duplicateNow_refused h (by rw [hrefusal, hs]),
      fun hs => exec_duplicateNow_refused h (by rw [hrefusal, hs]),
      fun hs he => exec_duplicateNow_refused h (by rw [hrefusal, hs]; exact if_pos he), fun hs he => ?_⟩
    have hpasses : s.dev.duplicateRefusal v = none := by
      rw [hrefusal, hs]
      exact if_neg he
    intro queue
    refine ⟨fun hnew => ?_, fun before f after hq hf hb ha hp => ?_⟩
    · intro d
      let joined : Device := { s.dev with dup.queue := queue ++ [{ volume := v, origin := .demand }] }
      have hjoins : (s.dev.taken p tag t).demand v = joined.taken p tag t :=
        demand_joins (d := s.dev.taken p tag t) hnew
      have hplace := queuePosition_of (d := joined) rfl rfl hnew
      exact ⟨exec_duplicateNow_accepted h hpasses hjoins hplace,
        exec_duplicateNow_running h hpasses hjoins hplace⟩
    · let turned : Device := { s.dev with dup.queue := before ++ { f with origin := .demand } :: after }
      exact exec_duplicateNow_running h (d := turned) hpasses (demand_turns (d := s.dev.taken p tag t) hq hf hb ha)
        (queuePosition_of (d := turned) rfl hf hb) hp
  · intro mode word d Becomes cap noPass eligible image inPlace room
    have hmode : readPacing bytes = mode := readPacing_eq bytes
    have hword : mode.name = word := by
      simp only [mode, word]
      split
      · rfl
      · split <;> rfl
    have hd : (s.dev.paced (readPacing bytes)).answered p tag t .ok none [.name (readPacing bytes).name] = d := by
      rw [hmode, hword]
      rfl
    have hbecomes {f : Device} {b : Nat} (hr : Runs b [.grant] d f) (hb : b ≤ 100) : Becomes f :=
      exec_pacingSet h (hd ▸ hr) hb
    have hcap : d.modeInForce.cap = cap := modeInForce_cap d
    have hpass (hn : noPass) : d.passEligible = false := passEligible_false (hcap ▸ hn)
    have hruns (r : Restore) (he : r.eligible = true) : ∃ i e c, eligible r i e c := by
      obtain ⟨hrun, hcancel, i, e, c, hcurrent, hextent, hcursor, hleft, houtcome⟩ := r.eligible_iff.1 he
      exact ⟨i, e, c, hrun, hcancel, hcurrent, hextent, hcursor, hleft, houtcome⟩
    have hnone (hn : ∀ r ∈ s.dev.copy.restores, ∀ i e c, ¬ eligible r i e c) (r : Restore)
        (hr : r ∈ s.dev.copy.restores) : r.eligible = false := Bool.eq_false_iff.2 fun he => by
      obtain ⟨i, e, c, hel⟩ := hruns r he
      exact hn r hr i e c hel
    refine ⟨fun hfull => hbecomes (Runs.one (grant_full (d := d) hfull)) (by decide),
      fun hn hr => hbecomes (Runs.one (grant_none (d := d) (hnone hr) (hpass hn))) (by decide),
      fun k hk hfull hl => ⟨fun q before pl after hq hs hp ho hlt hr => ?_, ?_⟩⟩
    · intro m hroom
      exact hbecomes (runs_grant_pass (d := d) hk hfull hl hq hs hp ho (hcap ▸ hlt) (hr.imp_left hnone) (image := m) rfl
        hroom.1 hroom.2) (by decide)
    · intro before r after i e c g hrs ho ⟨hrun, hcancel, hcurrent, hextent, hcursor, hleft, houtcome⟩ hp hfirst hlo hcg
        hhi hplace hroom hover passed
      have hheld : d.HoldsRestore before r after := ⟨hrs, ho⟩
      have hr : r.eligible = true :=
        r.eligible_iff.2 ⟨hrun, hcancel, i, e, c, hcurrent, hextent, hcursor, hleft, houtcome⟩
      have hcurrentExtent : r.currentExtent = some e := by
        rw [Restore.currentExtent, hcurrent, ← hextent]
        rfl
      have hchosen (q : Restore) (hq : q ∈ before ++ after) (he : q.eligible = true) : d.ComesFirst r q := by
        obtain ⟨j, f, b, hel⟩ := hruns q he
        exact hfirst q hq j f b hel
      exact hbecomes (hheld.runs_grant_first (d := d) hk hfull hl hr hchosen (hp.imp_left hpass) hcurrentExtent hcursor hlo hcg
        hhi hover hplace hroom.1 hroom.2) (by decide)

end Sys2Proof.Machine
end

section
/-! ### Who changes a port's role, reload and link (O12) -/

namespace Sys2Proof.Machine

/-- A port of a vector of which one port has been set, and what the old and the new one agree on. -/
theorem ports_set_congr {α : Type} (f : Port → α) (ports : Vector Port 4) {p q : PortId} {x : Port}
    (h : q = p → f x = f ports[q]) : f (ports.set q.val x q.isLt)[p] = f ports[p] := by
  by_cases hq : q = p
  · subst hq
    exact (congrArg f (Vector.getElem_set_self q.isLt)).trans (h rfl)
  · exact congrArg f (Vector.getElem_set_ne q.isLt p.isLt fun he => hq (Fin.ext he))

/-- No consequence of an event changes a port's role, reload or link. -/
theorem Prim.port_same {c c' : Core} (h : Prim c c') (p : PortId) :
    c'.ports[p].role = c.ports[p].role ∧ c'.ports[p].reload = c.ports[p].reload
      ∧ c'.ports[p].link = c.ports[p].link := by
  cases h with
  | port q x hrole hreload hlink =>
    exact ⟨ports_set_congr Port.role _ fun _ => hrole, ports_set_congr Port.reload _ fun _ => hreload,
      ports_set_congr Port.link _ fun _ => hlink⟩
  | _ => exact ⟨rfl, rfl, rfl⟩

section
variable {allow : Special → Prop} {c c' : Core} {p : PortId}

/-- R161, R170: a command that is not allowed roles leaves every port's role and reload. -/
theorem Extra.role_same (ha : ¬ allow .role) (h : Extra allow c c') :
    c'.ports[p].role = c.ports[p].role ∧ c'.ports[p].reload = c.ports[p].reload := by
  cases h with
  | prim _ hp => exact ⟨(hp.port_same p).1, (hp.port_same p).2.1⟩
  | port q x hx _ =>
    obtain ⟨hrole, hreload⟩ := hx.resolve_right ha
    exact ⟨ports_set_congr Port.role _ fun _ => hrole, ports_set_congr Port.reload _ fun _ => hreload⟩
  | _ => exact ⟨rfl, rfl⟩

/-- R1: a command that is not allowed a port's link leaves it. -/
theorem Extra.link_same (ha : ¬ allow (.link p)) (h : Extra allow c c') : c'.ports[p].link = c.ports[p].link := by
  cases h with
  | prim _ hp => exact (hp.port_same p).2.2
  | port q x _ hx =>
    exact ports_set_congr Port.link _ fun hq => hx.resolve_right fun hl => ha (hq ▸ hl)
  | _ => rfl

end

/-- R170: only PORT SET is allowed roles. -/
theorem not_allowed_role {i : Instr} (h : ∀ q tag, i ≠ .portSet q tag) : ¬ allowed i .role := by
  cases i with
  | portSet q tag => exact absurd rfl (h q tag)
  | _ => exact id

/-- R1: only the two events of a port's line are allowed its link. -/
theorem not_allowed_link {i : Instr} {p : PortId} (hup : i ≠ .serverLinkUp p) (hdown : i ≠ .serverLinkDown p) :
    ¬ allowed i (.link p) := by
  cases i with
  | serverLinkUp q => exact fun h : p = q => hup (h ▸ rfl)
  | serverLinkDown q => exact fun h : p = q => hdown (h ▸ rfl)
  | _ => exact id

/-- R179: RESET# going high reads the links from their lines and leaves every role and reload. -/
theorem exec_resetRelease_role {l : Lines} {s t : State} (h : exec (.resetRelease l) s = .next t) (p : PortId) :
    (t.dev.port p).role = (s.dev.port p).role ∧ (t.dev.port p).reload = (s.dev.port p).reload := by
  simp only [exec, execResetRelease] at h
  cases h
  split
  · have hport : (s.dev.release l).port p = { s.dev.port p with link := lineLink l.server[p] } :=
      Vector.getElem_zipWith p.isLt
    exact ⟨(congrArg Port.role hport).trans rfl, (congrArg Port.reload hport).trans rfl⟩
  · exact ⟨rfl, rfl⟩

/-- Settles O12: a command that is not allowed roles, or a port's link, makes only changes that leave them
(`exec_wide`). -/
theorem onlyPortSetChangesRoles : Obligations.OnlyPortSetChangesRoles := by
  intro i s t p h hassert
  refine ⟨fun hset => ?role, fun hrel hup hdown => ?link⟩
  case role =>
    by_cases hrel : ∃ l, i = .resetRelease l
    · obtain ⟨l, rfl⟩ := hrel
      exact exec_resetRelease_role h p
    · refine (exec_wide hassert (fun l hl => hrel ⟨l, hl⟩) h).kept
        (fun c => c.ports[p].role = (s.dev.port p).role ∧ c.ports[p].reload = (s.dev.port p).reload)
        (fun c c' he hc => ?_) ⟨rfl, rfl⟩
      obtain ⟨hrole, hreload⟩ := he.role_same (p := p) (not_allowed_role hset)
      exact ⟨hrole.trans hc.1, hreload.trans hc.2⟩
  case link =>
    exact (exec_wide hassert hrel h).kept (fun c => c.ports[p].link = (s.dev.port p).link)
      (fun c c' he hc => (he.link_same (not_allowed_link hup hdown)).trans hc) rfl

end Sys2Proof.Machine
end

section
/-! ### The checks on taking a management command (O22) -/

namespace Sys2Proof.Machine

/-! #### The taking of a command, for any of its bodies (R172, R173) -/

section
variable {α β : Type} {d : Device} {p : PortId} {tag : Nat} {n : CommandName} {t : Txn} {c : Command}
  {parse : List Byte → Option α} {done : Device → β} {body : Device → α → β}

/-- A transaction that does not hold this command is left as it stands (entry 4). -/
theorem take_absent (h : ∀ t c, d.txn? p tag = some t → t.command = some c → c.isNamed n = false) :
    d.take p tag n parse done body = done d := by
  unfold Device.take
  cases ht : d.txn? p tag with
  | none => rfl
  | some t =>
    cases hc : t.command with
    | none => simp only [hc]
    | some c => simp only [hc, h t c ht hc, Bool.false_eq_true, if_false]

section
variable (ht : d.txn? p tag = some t) (hc : t.command = some c) (hn : c.isNamed n = true)
include ht hc hn

/-- R173 check 2: an area of another shape. -/
theorem take_misshapen (ha : parse c.area = none) :
    d.take p tag n parse done body = done (d.answered p tag t .malformed none []) := by
  simp only [Device.take, ht, hc, hn, if_true, ha]
  exact congrArg done (reply_taken d p tag t .malformed none [])

/-- R172: a command that a DATA port may not issue. -/
theorem take_notPermitted (ha : parse c.area ≠ none) (hr : (d.port p).role = .data) (hf : n.forData = false) :
    d.take p tag n parse done body = done (d.answered p tag t .notPermitted none []) := by
  obtain ⟨a, ha⟩ := Option.ne_none_iff_exists'.1 ha
  have hrole : ((d.setTxn p tag { t with command := none }).port p).role = .data := hr
  simp only [Device.take, ht, hc, hn, if_true, ha, hrole, hf, true_and]
  exact congrArg done (reply_taken d p tag t .notPermitted none [])

end

end

/-! #### Which command an event takes -/

/-- R172, R173: f takes command n of a transaction: refused with MALFORMED or NOT_PERMITTED, or left alone where the
transaction does not hold it (entry 4). -/
structure TakesCommand (p : PortId) (tag : Nat) (n : CommandName) (f : Device → Device) : Prop where
  misshapen : ∀ d t c, d.txn? p tag = some t → t.command = some c → c.isNamed n = true →
    wellShaped n c.area = false → f d = d.answered p tag t .malformed none []
  notPermitted : ∀ d t c, d.txn? p tag = some t → t.command = some c → c.isNamed n = true →
    wellShaped n c.area = true → (d.port p).role = .data → n.forData = false →
    f d = d.answered p tag t .notPermitted none []
  absent : ∀ d, (∀ t c, d.txn? p tag = some t → t.command = some c → c.isNamed n = false) → f d = d

section
variable {p : PortId} {tag : Nat} {n : CommandName}

/-- A taking whose parse tells the command's shape, and whose outcome e embeds a part with nothing left to do. -/
theorem TakesCommand.of_take {α β : Type} {parse : List Byte → Option α} {done : Device → β}
    {body : Device → α → β} {e : β → Device} (he : ∀ d, e (done d) = d)
    (hs : ∀ area, wellShaped n area = (parse area).isSome) :
    TakesCommand p tag n fun d => e (d.take p tag n parse done body) where
  misshapen d t c ht hc hn ha := by
    rw [hs, Option.isSome_eq_false_iff, Option.isNone_iff_eq_none] at ha
    rw [take_misshapen ht hc hn ha, he]
  notPermitted d t c ht hc hn ha hr hf := by
    rw [hs, Option.isSome_iff_ne_none] at ha
    rw [take_notPermitted ht hc hn ha hr hf, he]
  absent d h := by rw [take_absent h, he]

theorem wellShaped_readArgs (hn : n ≠ .restore) (area : List Byte) :
    wellShaped n area = (readArgs n.shape area).isSome := if_neg hn

theorem TakesCommand.takeNow (hn : n ≠ .restore) (body : Device → List Arg → Device) :
    TakesCommand p tag n fun d => d.takeNow p tag n body :=
  .of_take (e := id) (fun _ => rfl) (wellShaped_readArgs hn)

theorem TakesCommand.takeThen (hn : n ≠ .restore) (body : Device → List Arg → Effect) :
    TakesCommand p tag n fun d => d.takeThen p tag n body :=
  .of_take (e := settle) settle_nil (wellShaped_readArgs hn)

end

/-- Every management command's event takes that command. -/
theorem exec_takesCommand {i : Instr} {p : PortId} {tag : Nat} {n : CommandName}
    (hi : commandOf i = some (p, tag, n)) : ∃ f, TakesCommand p tag n f ∧ ∀ s, exec i s = s.event f := by
  cases i with
  | identify q g | keepalive q g | portSet q g | portRead q g | unfence q g | timeSet q g | timeRead q g
  | scheduleSet q g | scheduleRead q g | accountLoad q g | accountRead q g | groupLoad q g | groupRead q g
  | preserveArea q g | volumeDefine q g | volumeRead q g | retire q g | snapshotList q g | restoreStatus q g
  | enrol q g | stagingSet q g | passStatus q g | noticeRead q g =>
    cases hi
    exact ⟨_, .takeNow (by decide) _, fun _ => rfl⟩
  | fence q g | pathReset q g | volumeRemove q g | reserveSet q g | cut q g | restoreCancel q g | duplicateNow q g
  | pacingSet q g | passStop q g | signalPeer q g =>
    cases hi
    exact ⟨_, .takeThen (by decide) _, fun _ => rfl⟩
  | restore q g =>
    cases hi
    exact ⟨_, .of_take (e := settle) settle_nil fun _ => if_pos rfl, fun _ => rfl⟩
  | _ => cases hi

/-- R172: the commands that a DATA port may issue. -/
theorem forData_false {n : CommandName}
    (h : n ∉ [CommandName.identify, .keepalive, .accountRead, .restoreStatus]) : n.forData = false := by
  cases n with
  | identify | keepalive | accountRead | restoreStatus => exact absurd h (by decide)
  | _ => rfl

theorem isNamed_false_iff (c : Command) (n : CommandName) :
    c.isNamed n = false ↔ upToZero c.name ≠ ascii n.text := by
  rw [← Bool.not_eq_true, isNamed_iff]

/-- R173 check 1: a name that is no command's is refused with MALFORMED, whatever the port's role. -/
theorem takeUnknown_eq {d : Device} {p : PortId} {tag : Nat} {t : Txn} {c : Command} (ht : d.txn? p tag = some t)
    (hc : t.command = some c) (hn : ∀ n, c.isNamed n = false) :
    d.takeUnknown p tag = d.answered p tag t .malformed none [] := by
  have hlookup : c.lookup = none := List.find?_eq_none.2 fun n _ => by simp [hn n]
  simp only [Device.takeUnknown, ht, hc, hlookup, if_true]
  exact deny_taken d p tag t .malformed

/-- Settles O22: the checks of the taking (`exec_takesCommand`), and those of a name that is no command's
(`takeUnknown_eq`). -/
theorem commandsRefusedOrAbsent : Obligations.CommandsRefusedOrAbsent := by
  refine ⟨fun s i p tag n t c hi hl ht hc hname => ?refused, fun s p tag hl => ⟨fun t c ht hc hname => ?unknown,
    fun i n hi hname => ?absent⟩⟩
  case refused =>
    obtain ⟨f, hf, hexec⟩ := exec_takesCommand hi
    have hn := (isNamed_iff c n).2 hname
    rw [hexec, event_high f hl]
    refine ⟨fun ha => ?_, fun ha hr hdata => ?_⟩
    · rw [hf.misshapen _ t c ht hc hn ha]
    · rw [hf.notPermitted _ t c ht hc hn ha hr (forData_false hdata)]
  case unknown =>
    simp only [exec, execUnknownCommand, event_high _ hl]
    rw [takeUnknown_eq ht hc fun n => (isNamed_false_iff c n).2 (hname n)]
  case absent =>
    obtain ⟨f, hf, hexec⟩ := exec_takesCommand hi
    rw [hexec, event_high f hl, hf.absent _ fun t c ht hc => (isNamed_false_iff c n).2 (hname t c ht hc)]

end Sys2Proof.Machine
end

section
/-! ### PORT READ, KEEPALIVE, PORT SET and UNFENCE (O25) -/

namespace Sys2Proof.Machine

/-! #### The records sent, in the statement's layout (R186) -/

theorem Link.name_eq (l : Link) : l.name = if l = .up then .up else .down := by cases l <;> rfl

theorem Role.name_eq (r : Role) : r.name = if r = .manager then .manager else .data := by cases r <;> rfl

theorem fenceName_eq (f : Option FenceReason) : fenceName f = if f = none then .clear else .fenced := by
  cases f <;> rfl

/-- R186: the reason of a fence, which may be absent. -/
theorem fenceReason_items (f : Option FenceReason) : Item.optName (f.map FenceReason.name) = match f with
    | none => [.num 1 0, .raw (List.replicate 16 0)]
    | some .liveness => [.num 1 1, .name .liveness]
    | some .command => [.num 1 1, .name .command] := by
  cases f with
  | none => rfl
  | some r => cases r <;> rfl

/-- The entries of a port's open transactions. -/
abbrev Device.openOf (d : Device) (q : PortId) : Table Txn := d.txns.filter fun e => e.1 / 32 = q.val

theorem portTxns_length (d : Device) (q : PortId) : (d.portTxns q).length = (d.openOf q).length :=
  List.length_map _

theorem portTxns_disowned (d : Device) (q : PortId) :
    ((d.portTxns q).filter fun t => t.2.owed = false).length = ((d.openOf q).filter fun e => e.2.owed = false).length := by
  rw [Device.portTxns, List.filter_map, List.length_map]
  rfl

/-- R186: the tags IN USE as a counted list. -/
theorem portTxns_tags (d : Device) (q : PortId) : Item.counted ((d.portTxns q).map fun t => [.num 1 t.1])
    = .num 1 (d.openOf q).length :: (d.openOf q).map fun e => .num 1 (e.1 % 32) := by
  have hflat (l : List (Nat × Txn)) : (l.map fun t => [Item.num 1 t.1]).flatten = l.map fun t => .num 1 t.1 := by
    rw [← List.flatMap_def, ← List.map_eq_flatMap]
  rw [Item.counted, List.length_map, portTxns_length, hflat, Device.portTxns, List.map_map]
  rfl

/-- R171: PORT READ's record of each port, one after another. -/
theorem portItems_all (d : Device) : fields ((List.finRange 4).map d.portItems)
    = d.portItems 0 ++ d.portItems 1 ++ d.portItems 2 ++ d.portItems 3 := by
  have hports : List.finRange 4 = [0, 1, 2, 3] := by decide
  simp only [fields, hports, List.map_cons, List.map_nil, List.flatten_cons, List.flatten_nil, List.append_nil,
    List.append_assoc]

/-! #### The arguments of PORT SET and UNFENCE -/

theorem toPort_none {n : Nat} (h : n > 3) : toPort n = none := dif_neg (by omega)

theorem toPort_val (q : PortId) : toPort q.val = some q := dif_pos q.isLt

theorem toPort_eq_some {n : Nat} {q : PortId} (h : q.val = n) : toPort n = some q := h ▸ toPort_val q

theorem readRole_manager : readRole (padded "MANAGER") = some .manager := if_pos (by decide)

theorem readRole_data : readRole (padded "DATA") = some .data := by
  have hm : isName (padded "DATA") .manager = false := by decide
  have hd : isName (padded "DATA") .data = true := by decide
  rw [readRole, hm, hd]
  rfl

theorem readRole_none {r : List Byte} (h1 : r ≠ padded "MANAGER") (h2 : r ≠ padded "DATA") : readRole r = none := by
  have hm : isName r .manager = false := decide_eq_false h1
  have hd : isName r .data = false := decide_eq_false h2
  rw [readRole, hm, hd]
  rfl

/-- R170: a port is the one MANAGER port. -/
theorem soleManager_iff (d : Device) (q : PortId) : d.soleManager q = true ↔
    (d.port q).role = .manager ∧ ∀ k : PortId, k ≠ q → (d.port k).role = .data := by
  have hports : d.ports.toList = (List.finRange 4).map d.port := by
    refine List.ext_getElem (by simp) fun i hi _ => ?_
    simp only [List.getElem_map, List.getElem_finRange, Vector.getElem_toList]
    rfl
  have hcount : (d.ports.toList.filter fun x => x.role = .manager).length
      = ((List.finRange 4).filter fun k => (d.port k).role = .manager).length := by
    rw [hports, List.filter_map, List.length_map]
    rfl
  have hdata (k : PortId) : (d.port k).role = .data ↔ (d.port k).role ≠ .manager := by
    cases (d.port k).role <;> decide
  simp only [Device.soleManager, Bool.and_eq_true, decide_eq_true_eq, hcount, hdata]
  refine and_congr_right fun hq => ⟨fun hone k hk hm => hk ?_, fun hothers => ?_⟩
  · obtain ⟨m, hm1⟩ := List.length_eq_one_iff.1 hone
    have hmem (j : PortId) (hj : (d.port j).role = .manager) : j = m :=
      List.mem_singleton.1 (hm1 ▸ List.mem_filter.2 ⟨List.mem_finRange j, decide_eq_true hj⟩)
    exact (hmem k hm).trans (hmem q hq).symm
  · have hfilter : ((List.finRange 4).filter fun k => (d.port k).role = .manager)
        = (List.finRange 4).filter fun k => k = q :=
      List.filter_congr fun k _ => decide_eq_decide.2
        ⟨fun hm => by_contra fun hk => hothers k hk hm, fun hk => hk ▸ hq⟩
    have hself : ∀ k : PortId, ((List.finRange 4).filter fun j => j = k).length = 1 := by decide
    rw [hfilter, hself]

/-- R170: the record that PORT SET stores. -/
theorem Port.stored_eq (x : Port) (role : Role) (reload : Nat) : x.stored role reload =
    { x with role := role, reload := reload, counter := if reload = x.reload then x.counter else reload } := by
  unfold Port.stored
  split
  · rename_i h
    rw [h]
  · rfl

/-- R169: the last-manager rule lets a port unfence itself. -/
theorem mayUnfenceSelf_iff (d : Device) (p : PortId) : d.mayUnfenceSelf p = true ↔ (d.port p).role = .manager
    ∧ ∀ k : PortId, ¬ ((d.port k).role = .manager ∧ (d.port k).link = .up ∧ (d.port k).fence = none) := by
  rw [← not_exists, ← managerUpClear_iff, Device.mayUnfenceSelf, Bool.and_eq_true, decide_eq_true_eq,
    decide_eq_true_eq, Bool.not_eq_true]

theorem port_setPort (d : Device) (q : PortId) (x : Port) : (d.setPort q x).port q = x := Vector.getElem_set_self q.isLt

theorem setPort_self (d : Device) (q : PortId) : d.setPort q (d.port q) = d := by
  rw [Device.setPort, show d.ports.set q.val (d.port q) q.isLt = d.ports from Vector.set_getElem_self q.isLt]

/-- A command just taken is answered once a port's record has been set. -/
theorem reply_setPort_taken (d : Device) (p q : PortId) (tag : Nat) (t : Txn) (x : Port) (st : MgmtStatus)
    (r : List Item) : ((d.taken p tag t).setPort q x).reply p tag st none r
      = (d.setPort q x).answered p tag t st none r := reply_taken (d.setPort q x) p tag t st none r

/-! #### The commands as they are taken -/

section
variable {s : State} {p : PortId} {tag : Nat} {t : Txn}

theorem exec_portRead (h : s.Issued p tag .portRead t []) : exec (.portRead p tag) s = .next { s with
    dev := s.dev.answered p tag t .ok none (fields ((List.finRange 4).map (s.dev.taken p tag t).portItems)) } := by
  simp only [exec, execPortRead, event_high _ h.high, takeNow_issued h, Device.portRead, reply_taken]

theorem exec_keepalive (h : s.Issued p tag .keepalive t []) : exec (.keepalive p tag) s = .next { s with
    dev := (s.dev.setPort p (s.dev.port p).load).answered p tag t .ok none
      [.num 1 p.val, .num 2 (s.dev.port p).reload, .num 1 (s.dev.port p).reload] } := by
  simp only [exec, execKeepalive, event_high _ h.high, takeNow_issued h, Device.keepalive, port_taken,
    reply_setPort_taken]
  rfl

section
variable {n reload : Nat} {r : List Byte} (h : s.Issued p tag .portSet t [.num n, .text r, .num reload])
include h

theorem exec_portSet : exec (.portSet p tag) s =
    .next { s with dev := (s.dev.taken p tag t).portSet p tag [.num n, .text r, .num reload] } := by
  simp only [exec, execPortSet, event_high _ h.high, takeNow_issued h]

/-- R170: a port above 3, a name that is no role's, or a reload above 255. -/
theorem exec_portSet_badArgument (hbad : toPort n = none ∨ readRole r = none ∨ reload > 255) :
    exec (.portSet p tag) s = .next { s with dev := s.dev.answered p tag t .badArgument none [] } := by
  rw [exec_portSet h, Device.portSet]
  split
  · rename_i q role hq hr
    have hlarge : reload > 255 := by simpa [hq, hr] using hbad
    rw [if_pos hlarge, deny_taken]
  · rw [deny_taken]

section
variable {q : PortId} {role : Role} (hq : toPort n = some q) (hr : readRole r = some role) (hle : reload ≤ 255)
include hq hr hle

/-- R170: the last MANAGER port keeps its role. -/
theorem exec_portSet_conflict (hrole : role = .data) (hsole : s.dev.soleManager q = true) :
    exec (.portSet p tag) s = .next { s with dev := s.dev.answered p tag t .conflict none [] } := by
  have hsole' : (s.dev.taken p tag t).soleManager q = true := hsole
  simp only [exec_portSet h, Device.portSet, hq, hr, if_neg (Nat.not_lt.2 hle), hrole, hsole', and_self, if_true,
    deny_taken]

/-- R170: role and reload are stored, and the answer is the record as stored. -/
theorem exec_portSet_stored {y : Port} (hy : (s.dev.port q).stored role reload = y)
    (hok : ¬ (role = .data ∧ s.dev.soleManager q = true)) : exec (.portSet p tag) s = .next { s with
      dev := (s.dev.setPort q y).answered p tag t .ok none (((s.dev.taken p tag t).setPort q y).portRecord q) } := by
  have hok' : ¬ (role = .data ∧ (s.dev.taken p tag t).soleManager q = true) := hok
  simp only [exec_portSet h, Device.portSet, hq, hr, if_neg (Nat.not_lt.2 hle), if_neg hok', port_taken, hy,
    reply_setPort_taken]

end

end

section
variable {n : Nat} (h : s.Issued p tag .unfence t [.num n])
include h

theorem exec_unfence : exec (.unfence p tag) s =
    .next { s with dev := (s.dev.taken p tag t).unfenceCommand p tag [.num n] } := by
  simp only [exec, execUnfence, event_high _ h.high, takeNow_issued h]

theorem exec_unfence_badArgument (hn : n > 3) :
    exec (.unfence p tag) s = .next { s with dev := s.dev.answered p tag t .badArgument none [] } := by
  simp only [exec_unfence h, Device.unfenceCommand, toPort_none hn, deny_taken]

section
variable {q : PortId} (hq : toPort n = some q)
include hq

/-- R169: a FENCED port outside the last-manager rule may not unfence itself. -/
theorem exec_unfence_fenced (hp : q = p) (hf : (s.dev.port p).fenced = true) (hm : s.dev.mayUnfenceSelf p = false) :
    exec (.unfence p tag) s = .next { s with dev := s.dev.answered p tag t .fenced none [] } := by
  have hm' : (s.dev.taken p tag t).mayUnfenceSelf p = false := hm
  simp only [exec_unfence h, Device.unfenceCommand, hq, hp, port_taken, hf, hm', and_self, if_true, deny_taken]

/-- R168: the named port is cleared, and the answer is its fence and its counter. -/
theorem exec_unfence_cleared {y : Port} (hy : (s.dev.port q).cleared = y)
    (hok : ¬ (q = p ∧ (s.dev.port p).fenced = true ∧ s.dev.mayUnfenceSelf p = false)) :
    exec (.unfence p tag) s = .next { s with
      dev := (s.dev.setPort q y).answered p tag t .ok none [.name (fenceName y.fence), .num 1 y.counter] } := by
  have hok' : ¬ (q = p ∧ (s.dev.port p).fenced = true ∧ (s.dev.taken p tag t).mayUnfenceSelf p = false) := hok
  simp only [exec_unfence h, Device.unfenceCommand, hq, port_taken, if_neg hok', hy, reply_setPort_taken]

end

end

end

/-- Settles O25: each command as it is taken (`exec_portRead`, `exec_keepalive`, `exec_portSet_stored`,
`exec_unfence_cleared`), its refusals, and the layouts of the records sent. -/
theorem portCommands : Obligations.PortCommands := by
  refine ⟨fun s p tag t h => ?read, fun s p tag t h => ?keepalive, fun s p tag t n reload r h => ?set,
    fun s p tag t n h => ?unfence⟩
  case read =>
    intro record
    have hrecord (q : PortId) : (s.dev.taken p tag t).portItems q = record q := by
      simp only [Device.portItems, portTxns_length, portTxns_disowned, Link.name_eq, Role.name_eq, fenceName_eq,
        fenceReason_items, port_taken]
      rfl
    rw [exec_portRead h, portItems_all]
    simp only [hrecord]
  case keepalive => exact exec_keepalive h
  case set =>
    intro Answers
    refine ⟨fun hbad => ?_, fun q role hq hle hr => ?_⟩
    · refine exec_portSet_badArgument h ?_
      rcases hbad with hn | ⟨hm, hd⟩ | hlarge
      · exact .inl (toPort_none hn)
      · exact .inr (.inl (readRole_none hm hd))
      · exact .inr (.inr hlarge)
    have hrole : readRole r = some role := by
      rcases hr with ⟨rfl, rfl⟩ | ⟨rfl, rfl⟩
      · exact readRole_manager
      · exact readRole_data
    intro x mine sole y
    refine ⟨fun hdata hsole => ?_, fun hok => ?_⟩
    · exact exec_portSet_conflict h (toPort_eq_some hq) hrole hle hdata ((soleManager_iff _ _).2 hsole)
    · have hmay : ¬ (role = .data ∧ s.dev.soleManager q = true) := by
        rintro ⟨rfl, hs⟩
        exact hok.elim (fun hm => by cases hm) fun hn => hn ((soleManager_iff _ _).1 hs)
      have hstored : (s.dev.port q).stored role reload = y := Port.stored_eq _ _ _
      have hset := exec_portSet_stored h (toPort_eq_some hq) hrole hle hstored hmay
      simp only [Device.portRecord, port_setPort, portTxns_tags, Link.name_eq, Role.name_eq, fenceName_eq,
        fenceReason_items] at hset
      exact hset
  case unfence =>
    intro Answers
    refine ⟨exec_unfence_badArgument h, fun q hq => ?_⟩
    have hport := toPort_eq_some hq
    intro x last
    have hfenced : x.fenced = true ↔ x.fence ≠ none := Option.isSome_iff_ne_none
    refine ⟨fun hp hf hlast => ?_, fun hf hok => ?_, fun hclear => ?_⟩
    · subst hp
      exact exec_unfence_fenced h hport rfl (hfenced.2 hf)
        (Bool.not_eq_true _ ▸ fun hm => hlast ((mayUnfenceSelf_iff _ _).1 hm))
    · have hmay : ¬ (q = p ∧ (s.dev.port p).fenced = true ∧ s.dev.mayUnfenceSelf p = false) := by
        rintro ⟨rfl, -, hm⟩
        exact hok.elim (fun hne => hne rfl) fun hlast => by
          rw [(mayUnfenceSelf_iff _ _).2 hlast] at hm
          cases hm
      have hcleared : (s.dev.port q).cleared = { x with fence := none, counter := x.reload } := if_pos (hfenced.2 hf)
      exact exec_unfence_cleared h hport hcleared hmay
    · have hnot : ¬ x.fenced = true := fun hf => hfenced.1 hf hclear
      have hmay : ¬ (q = p ∧ (s.dev.port p).fenced = true ∧ s.dev.mayUnfenceSelf p = false) := by
        rintro ⟨rfl, hf, -⟩
        exact hnot hf
      have hcleared : (s.dev.port q).cleared = s.dev.port q := if_neg hnot
      have hset := exec_unfence_cleared h hport hcleared hmay
      rw [setPort_self, show (s.dev.port q).fence = none from hclear] at hset
      exact hset

end Sys2Proof.Machine
end

section
/-! ### A port that loses its server: its open work (O36) -/

namespace Sys2Proof.Machine

/-! #### Keys of transactions (R2) -/

theorem txnKey_div {g : Nat} (q : PortId) (hg : g < 32) : txnKey q g / 32 = q.val := by
  unfold txnKey
  omega

/-! #### What the discard of one transaction leaves alone (R165) -/

/-- From d to d' a transaction of port q was discarded or disowned: the other ports' transactions, the ports and what
was sent are as they were. -/
structure LeavesOthers (q : PortId) (d d' : Device) : Prop where
  txn : ∀ k, k / 32 ≠ q.val → d'.txns.find k = d.txns.find k
  ports : d'.ports = d.ports
  out : d'.out = d.out

theorem LeavesOthers.refl (q : PortId) (d : Device) : LeavesOthers q d d := ⟨fun _ _ => rfl, rfl, rfl⟩

theorem LeavesOthers.trans {q : PortId} {a b c : Device} (h : LeavesOthers q a b) (h' : LeavesOthers q b c) :
    LeavesOthers q a c :=
  ⟨fun k hk => (h'.txn k hk).trans (h.txn k hk), h'.ports.trans h.ports, h'.out.trans h.out⟩

/-- A change that leaves transactions, ports and what was sent. -/
theorem LeavesOthers.of_eq {q : PortId} {d d' : Device} (ht : d'.txns = d.txns) (hp : d'.ports = d.ports)
    (ho : d'.out = d.out) : LeavesOthers q d d' := ⟨fun k _ => congrArg (Table.find · k) ht, hp, ho⟩

/-- A change that closes a transaction of the port. -/
theorem LeavesOthers.of_erase {q : PortId} {g : Nat} {d d' : Device} (hg : g < 32)
    (ht : d'.txns = d.txns.erase (txnKey q g)) (hp : d'.ports = d.ports) (ho : d'.out = d.out) : LeavesOthers q d d' where
  txn k hk := by
    have hne : k ≠ txnKey q g := fun h => hk (h ▸ txnKey_div q hg)
    rw [ht, Table.find_erase, if_neg hne]
  ports := hp
  out := ho

theorem LeavesOthers.foldl {α : Type} {q : PortId} {f : Device → α → Device} {l : List α}
    (h : ∀ a ∈ l, ∀ d, LeavesOthers q d (f d a)) (d : Device) : LeavesOthers q d (l.foldl f d) := by
  induction l generalizing d with
  | nil => exact .refl q d
  | cons a l ih => exact (h a List.mem_cons_self d).trans (ih (fun b hb => h b (List.mem_cons_of_mem _ hb)) _)

section
variable {q : PortId} {g : Nat} (d : Device)

theorem onEntry_leavesOthers (v k : Nat) (f : Pending → Pending) : LeavesOthers q d (d.onEntry v k f) := by
  unfold Device.onEntry
  split
  · exact .of_eq rfl rfl rfl
  · exact .refl q d

theorem lowerInFlight_leavesOthers (v : Nat) : LeavesOthers q d (d.lowerInFlight v) := by
  unfold Device.lowerInFlight Device.onVolume
  split
  · exact .of_eq rfl rfl rfl
  · exact .refl q d

theorem setTxn_leavesOthers (hg : g < 32) (t : Txn) : LeavesOthers q d (d.setTxn q g t) where
  txn k hk := by
    have hne : k ≠ txnKey q g := fun h => hk (h ▸ txnKey_div q hg)
    exact Table.find_insert_other _ _ hne
  ports := rfl
  out := rfl

theorem discardWrite_leavesOthers (hg : g < 32) (j : Job) : LeavesOthers q d (d.discardWrite q g j) := by
  have hleave : LeavesOthers q d (d.leaveWaits (.server q g) j) :=
    .foldl (fun _ _ d => onEntry_leavesOthers d _ _ _) d
  unfold Device.discardWrite
  dsimp only
  split
  · exact (hleave.trans (lowerInFlight_leavesOthers _ _)).trans (.of_erase hg rfl rfl rfl)
  · have hrelease (b : Device) : LeavesOthers q b (b.releaseCharge j.account (j.charge.getD 0)) := .of_eq rfl rfl rfl
    exact ((hleave.trans (hrelease _)).trans (lowerInFlight_leavesOthers _ _)).trans (.of_erase hg rfl rfl rfl)

theorem discardTxn_leavesOthers (hg : g < 32) (t : Txn) : LeavesOthers q d (d.discardTxn q g t) := by
  have hset := setTxn_leavesOthers (q := q) d hg { t with owed := false }
  have hpath (b : Device) : LeavesOthers q b (b.withdrawPath q g) := .of_eq rfl rfl rfl
  unfold Device.discardTxn
  dsimp only
  split
  · exact hset.trans (.of_erase hg rfl rfl rfl)
  · exact hset.trans (discardWrite_leavesOthers _ hg _)
  · split
    · exact (hset.trans (hpath _)).trans (discardWrite_leavesOthers _ hg _)
    · exact (hset.trans (hpath _)).trans (.of_erase hg rfl rfl rfl)
  · exact hset
  · exact hset

end

/-! #### What is taken and what follows (R165, R167) -/

/-- R165: the part with every open transaction of the port discarded or disowned, in ascending tag order. -/
def Device.discarded (d : Device) (q : PortId) : Device :=
  (d.openOf q).foldl (fun d f => d.discardTxn q (f.1 % 32) f.2) d

/-- R165: the admitted writes of the port that are not yet FORWARDED. -/
def Device.admittedOf (d : Device) (q : PortId) : List Job :=
  ((d.openOf q).filter fun f => f.2.job.stage = .admitting ∨ (f.2.job.stage = .queued ∧ f.2.kind = .write)).map
    fun f => f.2.job

theorem endsAtFence_eq (t : Txn) :
    t.endsAtFence = decide (t.job.stage = .admitting ∨ (t.job.stage = .queued ∧ t.kind = .write)) := by
  unfold Txn.endsAtFence
  cases t.job.stage <;> simp

theorem discardPort_eq (d : Device) (q : PortId) : d.discardPort q = (d.discarded q, discardTasks (d.admittedOf q)) := by
  have hjobs : ((d.portTxns q).filter fun t => t.2.endsAtFence).map (fun t => t.2.job) = d.admittedOf q := by
    simp only [Device.portTxns, Device.admittedOf, List.filter_map, List.map_map, endsAtFence_eq]
    rfl
  rw [Device.discardPort, hjobs, Device.portTxns, List.foldl_map]
  rfl

theorem discarded_leavesOthers (d : Device) (q : PortId) : LeavesOthers q d (d.discarded q) :=
  .foldl (fun f _ d => discardTxn_leavesOthers d (Nat.mod_lt f.1 (by decide)) f.2) d

/-- R165: the part with a port FENCED and its notice handed over, its work not yet looked at. -/
def Device.fencedFor (d : Device) (q : PortId) (r : FenceReason) : Device :=
  { d.noted .portFenced (.port q.val) (.name r.name) with
    ports := d.ports.set q.val { d.port q with fence := some r, counter := 0 } q.isLt }

theorem fencePort_eq (d : Device) (q : PortId) (r : FenceReason) :
    d.fencePort q r = ((d.fencedFor q r).discarded q, discardTasks ((d.fencedFor q r).admittedOf q)) := by
  unfold Device.fencePort
  dsimp only
  rw [notify_eq, discardPort_eq]
  rfl

theorem port_fencedFor (d : Device) (q : PortId) (r : FenceReason) :
    (d.fencedFor q r).port q = { d.port q with fence := some r, counter := 0 } := Vector.getElem_set_self q.isLt

/-! #### The events that take a port's work -/

section
variable {s : State} {q : PortId} (hl : s.dev.resetLow = false)
include hl

/-- R167: the loss of the link. -/
theorem exec_serverLinkDown (hup : (s.dev.port q).link = .up) :
    let e := s.dev.setPort q { s.dev.port q with link := .down }
    exec (.serverLinkDown q) s = .next { s with dev := settle (e.discarded q, discardTasks (e.admittedOf q)) } := by
  simp only [exec, execServerLinkDown, event_high _ hl, hup, if_true, discardPort_eq]

/-- R162: the expiry of the port's counter (entry 5). -/
theorem exec_livenessExpiry (hx : (s.dev.port q).link = .up ∧ (s.dev.port q).fence = none
      ∧ (s.dev.port q).reload > 0 ∧ (s.dev.port q).counter = 0) :
    let e := s.dev.fencedFor q .liveness
    exec (.livenessExpiry q) s = .next { s with dev := settle (e.discarded q, discardTasks (e.admittedOf q)) } := by
  simp only [exec, execLivenessExpiry, event_high _ hl, Device.livenessExpiry]
  rw [if_pos hx, fencePort_eq]

end

section
variable {s : State} {p q : PortId} {tag n : Nat} {t : Txn} (h : s.Issued p tag .fence t [.num n])
include h

theorem exec_fence : exec (.fence p tag) s =
    .next { s with dev := settle ((s.dev.taken p tag t).fenceCommand p tag [.num n]) } := by
  simp only [exec, execFence, event_high _ h.high, takeThen_issued h]

/-- R164: a port above 3. -/
theorem exec_fence_badArgument (hn : n > 3) :
    exec (.fence p tag) s = .next { s with dev := s.dev.answered p tag t .badArgument none [] } := by
  simp only [exec_fence h, Device.fenceCommand, toPort_none hn, Device.denyEffect, settle_nil, deny_taken]

/-- R164: the issuing port itself. -/
theorem exec_fence_conflict (hn : toPort n = some p) :
    exec (.fence p tag) s = .next { s with dev := s.dev.answered p tag t .conflict none [] } := by
  simp only [exec_fence h, Device.fenceCommand, hn, if_true, Device.denyEffect, settle_nil, deny_taken]

/-- R164: a port that is FENCED already. -/
theorem exec_fence_fenced (hn : toPort n = some q) (hq : q ≠ p) {r : FenceReason} (hr : (s.dev.port q).fence = some r) :
    exec (.fence p tag) s = .next { s with
      dev := s.dev.answered p tag t .ok none [.name .fenced, .num 1 1, .name r.name] } := by
  have hf : (s.dev.port q).fenced = true := by rw [Port.fenced, hr]; rfl
  simp only [exec_fence h, Device.fenceCommand, hn, if_neg hq, port_taken, hf, if_true, settle_nil, reply_taken,
    Device.fenceItems, hr]
  rfl

/-- R164: a CLEAR port is fenced and its work taken; the answer is sent before what follows is settled (entry 14). -/
theorem exec_fence_clear (hn : toPort n = some q) (hq : q ≠ p) (hr : (s.dev.port q).fence = none) (htag : tag < 32) :
    let e := (s.dev.taken p tag t).fencedFor q .command
    exec (.fence p tag) s = .next { s with dev := settle (
      (e.discarded q).answered p tag t .ok none [.name .fenced, .num 1 1, .name .command],
      discardTasks (e.admittedOf q)) } := by
  intro e
  have hf : (s.dev.port q).fenced = false := by rw [Port.fenced, hr]; rfl
  have hleaves := discarded_leavesOthers e q
  have htxn : (e.discarded q).txn? p tag = some { t with command := none } := by
    have hkey : txnKey p tag / 32 ≠ q.val := by
      rw [txnKey_div p htag]
      exact fun hpq => hq (Fin.ext hpq.symm)
    exact (hleaves.txn _ hkey).trans (txn_taken s.dev p tag t)
  have hport : (e.discarded q).port q = { s.dev.port q with fence := some .command, counter := 0 } :=
    (congrArg (fun ports : Vector Port 4 => ports[q]) hleaves.ports).trans (port_fencedFor _ _ _)
  have hanswer : (e.discarded q).reply p tag .ok none ((e.discarded q).fenceItems q)
      = (e.discarded q).answered p tag t .ok none [.name .fenced, .num 1 1, .name .command] := by
    rw [reply_eq _ htxn, Device.fenceItems, hport]
    rfl
  simp only [exec_fence h, Device.fenceCommand, hn, if_neg hq, port_taken, hf, Bool.false_eq_true, if_false,
    fencePort_eq]
  exact congrArg (fun d => Host.Outcome.next { s with dev := settle (d, discardTasks (e.admittedOf q)) }) hanswer

end

/-! #### The answer that comes before what follows (entry 14) -/

/-- The step between the discards and what follows from them: none, or the answer of a transaction. -/
def AnswersAtMost (f : Device → Device) : Prop :=
  f = id ∨ ∃ (p : PortId) (tag : Nat) (t : Txn) (st : MgmtStatus) (r : List Item),
    f = fun d => d.answered p tag t st none r

theorem quotaChecks_answered (d : Device) (p : PortId) (tag : Nat) (t : Txn) (st : MgmtStatus) (r : List Item) (a : Nat) :
    (d.answered p tag t st none r).quotaChecks a = (d.quotaChecks a).answered p tag t st none r := by
  have hre : (d.answered p tag t st none r).recheckState a = (d.recheckState a).answered p tag t st none r := by
    unfold Device.recheckState
    rw [show (d.answered p tag t st none r).account a = d.account a from rfl]
    dsimp only
    split <;> rfl
  unfold Device.quotaChecks
  rw [hre]
  rfl

section
variable {f : Device → Device} (hf : AnswersAtMost f) (d : Device)
include hf

theorem AnswersAtMost.volume (v : Nat) : (f d).volume? v = d.volume? v := by
  rcases hf with rfl | ⟨p, tag, t, st, r, rfl⟩ <;> rfl

theorem AnswersAtMost.entry (v k : Nat) : (f d).entry? v k = d.entry? v k := by
  rcases hf with rfl | ⟨p, tag, t, st, r, rfl⟩ <;> rfl

theorem AnswersAtMost.readerWait : (f d).pres.readerWait = d.pres.readerWait := by
  rcases hf with rfl | ⟨p, tag, t, st, r, rfl⟩ <;> rfl

theorem AnswersAtMost.setVolume (v : Nat) (x : Volume) : (f d).setVolume v x = f (d.setVolume v x) := by
  rcases hf with rfl | ⟨p, tag, t, st, r, rfl⟩ <;> rfl

theorem AnswersAtMost.withEntry (v k : Nat) (m : Pending) : (f d).withEntry v k m = f (d.withEntry v k m) := by
  rcases hf with rfl | ⟨p, tag, t, st, r, rfl⟩ <;> rfl

theorem AnswersAtMost.removeEntry (v k : Nat) : (f d).removeEntry v k = f (d.removeEntry v k) := by
  rcases hf with rfl | ⟨p, tag, t, st, r, rfl⟩ <;> rfl

theorem AnswersAtMost.quotaChecks (a : Nat) : (f d).quotaChecks a = f (d.quotaChecks a) := by
  rcases hf with rfl | ⟨p, tag, t, st, r, rfl⟩
  · rfl
  · exact quotaChecks_answered d p tag t st r a

end

/-! #### One open transaction, by its stage (R165, R167) -/

section
variable {e : Device} {q : PortId} {g : Nat} {y : Txn}

theorem discardTxn_held (hs : y.job.stage = .held) : e.discardTxn q g y = { e with
    txns := e.txns.erase (txnKey q g), cutHold := e.cutHold.filter fun w => w ≠ .server q g } := by
  simp only [Device.discardTxn, hs, Device.freeTag, Device.setTxn, Table.erase_insert]

theorem discardTxn_queued (hk : y.kind ≠ .write) (hs : y.job.stage = .queued) : e.discardTxn q g y = { e with
    txns := e.txns.erase (txnKey q g)
    pool.pathQ := e.pool.pathQ.filter fun r => r.requester ≠ .server q g } := by
  simp only [Device.discardTxn, hs, hk, if_false, Device.freeTag, Device.withdrawPath, Device.setTxn,
    Table.erase_insert]

/-- R167: a transaction that runs on is no longer owed an answer. -/
theorem discardTxn_running (hs : y.job.stage = .command ∨ ∃ k, y.job.stage = .forwarded k) :
    e.discardTxn q g y = { e with txns := e.txns.insert (txnKey q g) { y with owed := false } } := by
  unfold Device.discardTxn
  rcases hs with hs | ⟨k, hs⟩ <;> rw [hs] <;> rfl

/-- R165: an admitted write whose request, if it waits in the pool queue, has been withdrawn. -/
def Device.withdrawn (e : Device) (q : PortId) (g : Nat) (y : Txn) : Device := { e with
  txns := e.txns.insert (txnKey q g) { y with owed := false }
  pool.pathQ := if y.job.stage = .queued then e.pool.pathQ.filter fun r => r.requester ≠ .server q g else e.pool.pathQ }

theorem discardTxn_admitted (hs : y.job.stage = .admitting ∨ (y.job.stage = .queued ∧ y.kind = .write)) :
    e.discardTxn q g y = (e.withdrawn q g y).discardWrite q g y.job := by
  unfold Device.discardTxn Device.withdrawn
  rcases hs with hs | ⟨hs, hk⟩
  · simp only [hs, reduceCtorEq, if_false]
    rfl
  · simp only [hs, hk, if_true]
    rfl

/-- R29, R66, R165: a discarded write, once it has left its entries. -/
theorem discardWrite_eq {d d' : Device} {j : Job} {c : Nat} {z : Volume} (hleave : d.leaveWaits (.server q g) j = d')
    (hc : j.charge = some c) (hv : d'.volume? j.volume = some z) : d.discardWrite q g j =
      ((if c = 0 then d' else d'.releaseCharge j.account c).setVolume j.volume
        { z with inFlight := z.inFlight - 1 }).freeTag q g := by
  unfold Device.discardWrite
  rw [hleave, hc]
  dsimp only [Option.getD_some]
  by_cases h0 : c = 0
  · rw [if_pos h0, lowerInFlight_eq hv]
  · rw [if_neg h0, lowerInFlight_eq (d := d'.releaseCharge j.account c) hv]

/-- R66, R165: the part e with one admitted write gone and its volume's count lowered; its charge and its entries not
yet looked at. -/
def Device.writeGone (e : Device) (q : PortId) (g : Nat) (y : Txn) (z : Volume) : Device := { e with
  txns := e.txns.erase (txnKey q g)
  pool.pathQ := if y.job.stage = .queued then e.pool.pathQ.filter fun r => r.requester ≠ .server q g else e.pool.pathQ
  volumes := e.volumes.insert y.job.volume { z with inFlight := z.inFlight - 1 } }

section
variable {c : Nat} {z : Volume} (hs : y.job.stage = .admitting ∨ (y.job.stage = .queued ∧ y.kind = .write))
  (hc : y.job.charge = some c) (hv : e.volume? y.job.volume = some z)
include hs hc hv

/-- R165: an admitted write that waits on no entry. -/
theorem discardTxn_noWaits (hw : y.job.waits = []) : e.discardTxn q g y =
    if c = 0 then e.writeGone q g y z else (e.writeGone q g y z).releaseCharge y.job.account c := by
  have hleave : (e.withdrawn q g y).leaveWaits (.server q g) y.job = e.withdrawn q g y := by
    rw [Device.leaveWaits, hw]
    rfl
  rw [discardTxn_admitted hs, discardWrite_eq hleave hc hv]
  have hgone : (e.withdrawn q g y).txns.erase (txnKey q g) = e.txns.erase (txnKey q g) := Table.erase_insert _ _ _
  split
  · simp only [Device.freeTag, Device.setVolume, hgone]
    rfl
  · simp only [Device.freeTag, Device.setVolume, Device.releaseCharge, Device.setGroup, Device.setAccount, hgone]
    rfl

/-- R85, R165: an admitted write without charge that waits on one entry. -/
theorem discardTxn_oneWait {k : Nat} {b : Pending} (hw : y.job.waits = [k]) (h0 : c = 0)
    (hb : e.entry? y.job.volume k = some b) : e.discardTxn q g y =
      (e.writeGone q g y z).withEntry y.job.volume k
        { b with waiters := b.waiters.filter fun w => w ≠ .server q g } := by
  have hleave : (e.withdrawn q g y).leaveWaits (.server q g) y.job
      = (e.withdrawn q g y).withEntry y.job.volume k { b with waiters := b.waiters.filter fun w => w ≠ .server q g } := by
    rw [Device.leaveWaits, hw]
    exact onEntry_eq (d := e.withdrawn q g y) hb _
  have hgone : (e.withdrawn q g y).txns.erase (txnKey q g) = e.txns.erase (txnKey q g) := Table.erase_insert _ _ _
  rw [discardTxn_admitted hs, discardWrite_eq hleave hc hv, if_pos h0]
  simp only [Device.freeTag, Device.setVolume, Device.withEntry, hgone]
  rfl

end

end

/-! #### The look at an entry that a write has left (R85) -/

section
variable {d : Device} {v k base p : Nat} {x : Volume} {m : Pending}

/-- A SLOT_WAIT entry leaves the slot-wait queue (R85, R88, R90). -/
theorem leaveSlotWait_eq (hv : d.volume? v = some x) (hm : d.entry? v k = some m) : d.leaveSlotWait v k =
    (d.setVolume v { x with slotWait := x.slotWait.filter (· ≠ k) }).withEntry v k { m with phase := .reading } := by
  unfold Device.leaveSlotWait
  rw [onVolume_eq hv]
  exact onEntry_eq (d := d.setVolume v _) hm _

/-- R85: an entry that has lost its last waiter gives up its wait. -/
theorem giveUp_leaves (hv : d.volume? v = some x) (hm : d.entry? v k = some m) (hp : m.phase = .slotWait base p)
    (hw : m.waiters = []) : perform (.giveUp v k) d =
      ((d.setVolume v { x with slotWait := x.slotWait.filter (· ≠ k) }).withEntry v k { m with phase := .reading },
        [.dropEntry v k]) := by
  rw [← leaveSlotWait_eq hv hm]
  show giveUpWait v k d = _
  simp only [giveUpWait, hm, hp, hw, if_true]

/-- R84, R85: such an entry is kept while copy reads read it. -/
theorem runs_giveUp_read (hv : d.volume? v = some x) (hm : d.entry? v k = some m) (hp : m.phase = .slotWait base p)
    (hw : m.waiters = []) (hr : m.readers > 0) : Runs 2 [.giveUp v k] d
      ((d.setVolume v { x with slotWait := x.slotWait.filter (· ≠ k) }).withEntry v k { m with phase := .reading }) := by
  refine Runs.task (giveUp_leaves hv hm hp hw) (Runs.one (dropEntry_quiet fun n hn => .inr ?_))
  cases (entry_withEntry _ _ _ _).symm.trans hn
  exact Nat.pos_iff_ne_zero.1 hr

/-- R84, R85: and removed when none does; here no copy read waits for its place. -/
theorem runs_giveUp_removed (hv : d.volume? v = some x) (hm : d.entry? v k = some m) (hp : m.phase = .slotWait base p)
    (hw : m.waiters = []) (hr : m.readers = 0) (hrw : d.pres.readerWait = []) (hs : x.state ≠ .removing) :
    Runs 5 [.giveUp v k] d
      ((d.setVolume v { x with slotWait := x.slotWait.filter (· ≠ k) }).removeEntry v k) := by
  have hdrop := dropEntry_runs (d := (d.setVolume v { x with slotWait := x.slotWait.filter (· ≠ k) }).withEntry v k
    { m with phase := .reading }) (entry_withEntry _ _ _ _) rfl hr hw hrw (volume_setVolume d v _) hs
  have hgone : ((d.setVolume v { x with slotWait := x.slotWait.filter (· ≠ k) }).withEntry v k
      { m with phase := .reading }).removeEntry v k
        = (d.setVolume v { x with slotWait := x.slotWait.filter (· ≠ k) }).removeEntry v k := by
    simp only [Device.withEntry, Device.removeEntry, Table.erase_insert]
  rw [hgone] at hdrop
  exact Runs.task (giveUp_leaves hv hm hp hw) hdrop

end

/-! #### What follows from one discarded write (R85, R165, entry 27) -/

theorem discardTasks_nil : discardTasks [] = [] := rfl

theorem discardTasks_one (j : Job) : discardTasks [j] = j.waits.map (Task.giveUp j.volume)
    ++ (.volumeCheck j.volume :: if j.charge.getD 0 = 0 then [] else [.recheck j.account]) := by
  unfold discardTasks
  split
  · rename_i h
    simp [h]
  · rename_i h
    simp [h]

section
variable {e : Device} {q : PortId} {g c : Nat} {y : Txn} {z : Volume} {f : Device → Device} (hf : AnswersAtMost f)
  (hs : y.job.stage = .admitting ∨ (y.job.stage = .queued ∧ y.kind = .write)) (hc : y.job.charge = some c)
  (hv : e.volume? y.job.volume = some z) (hcut : z.cut = none) (hstate : z.state ≠ .removing)
include hf hs hc hv hcut hstate

/-- A write without charge that waits on no entry: its volume alone is looked at. -/
theorem afterWrite_uncharged (hw : y.job.waits = []) (h0 : c = 0) :
    settle (f (e.discardTxn q g y), discardTasks [y.job]) = f (e.writeGone q g y z) := by
  have htasks : discardTasks [y.job] = [.volumeCheck y.job.volume] := by
    simp [discardTasks_one, hw, hc, h0]
  have hcheck : perform (.volumeCheck y.job.volume) (f (e.writeGone q g y z)) = (f (e.writeGone q g y z), []) :=
    volumeCheck_quiet (x := { z with inFlight := z.inFlight - 1 })
      ((hf.volume _ _).trans (Table.find_insert_same _ _ _)) hcut hstate
  rw [htasks, discardTxn_noWaits hs hc hv hw, if_pos h0]
  exact (Runs.one hcheck).settle (by decide)

/-- A write with a charge that waits on no entry: its account is checked again after the look at its volume. -/
theorem afterWrite_charged (hw : y.job.waits = []) (hpos : c > 0) :
    settle (f (e.discardTxn q g y), discardTasks [y.job])
      = f ((e.writeGone q g y z).settleCharge y.job.account c false) := by
  have h0 : c ≠ 0 := Nat.pos_iff_ne_zero.1 hpos
  have htasks : discardTasks [y.job] = [.volumeCheck y.job.volume, .recheck y.job.account] := by
    simp [discardTasks_one, hw, hc, h0]
  let d : Device := (e.writeGone q g y z).releaseCharge y.job.account c
  have hcheck : perform (.volumeCheck y.job.volume) (f d) = (f d, []) :=
    volumeCheck_quiet (x := { z with inFlight := z.inFlight - 1 })
      ((hf.volume _ _).trans (Table.find_insert_same _ _ _)) hcut hstate
  have hrecheck : perform (.recheck y.job.account) (f d) = (f (d.quotaChecks y.job.account), []) :=
    congrArg (·, []) (hf.quotaChecks d _)
  have hsettled : (e.writeGone q g y z).settleCharge y.job.account c false = d.quotaChecks y.job.account := if_neg h0
  rw [htasks, discardTxn_noWaits hs hc hv hw, if_neg h0, hsettled]
  exact ((Runs.one hcheck).cons (Runs.one hrecheck)).settle (by decide)

section
variable {k : Nat} {b : Pending} (hw : y.job.waits = [k]) (h0 : c = 0) (hb : e.entry? y.job.volume k = some b)
include hw h0 hb

omit hf hs hv hcut hstate hb in
theorem discardTasks_oneWait : discardTasks [y.job] = [.giveUp y.job.volume k, .volumeCheck y.job.volume] := by
  simp [discardTasks_one, hw, hc, h0]

/-- R85: the entry keeps its wait, or has none. -/
theorem afterWrite_entryStays (hstays : (∀ base p, b.phase ≠ .slotWait base p)
      ∨ (b.waiters.filter fun w => w ≠ .server q g) ≠ []) :
    settle (f (e.discardTxn q g y), discardTasks [y.job]) = f ((e.writeGone q g y z).withEntry y.job.volume k
      { b with waiters := b.waiters.filter fun w => w ≠ .server q g }) := by
  rw [discardTasks_oneWait hc hw h0, discardTxn_oneWait hs hc hv hw h0 hb]
  refine ((Runs.one (giveUp_quiet fun m hm => ?_)).cons (Runs.one (volumeCheck_quiet
    (x := { z with inFlight := z.inFlight - 1 }) ?_ hcut hstate))).settle (by decide)
  · rw [hf.entry, entry_withEntry] at hm
    cases hm
    exact hstays
  · exact (hf.volume _ _).trans (Table.find_insert_same _ _ _)

section
variable {base p : Nat} (hp : b.phase = .slotWait base p) (hleft : (b.waiters.filter fun w => w ≠ .server q g) = [])
include hp hleft

/-- R85: the entry, its last waiter gone, gives up its wait and stays for the copy reads that read it. -/
theorem afterWrite_entryRead (hr : b.readers > 0) :
    settle (f (e.discardTxn q g y), discardTasks [y.job]) = f { e.writeGone q g y z with
      pres.table := e.pres.table.insert (pendKey y.job.volume k) { b with phase := .reading, waiters := [] }
      volumes := e.volumes.insert y.job.volume
        { z with inFlight := z.inFlight - 1, slotWait := z.slotWait.filter fun h => h ≠ k } } := by
  have hgive := runs_giveUp_read (d := f ((e.writeGone q g y z).withEntry y.job.volume k { b with waiters := [] }))
    (x := { z with inFlight := z.inFlight - 1 }) ((hf.volume _ _).trans (Table.find_insert_same _ _ _))
    ((hf.entry _ _ _).trans (entry_withEntry _ _ _ _)) hp rfl hr
  rw [hf.setVolume, hf.withEntry] at hgive
  rw [discardTasks_oneWait hc hw h0, discardTxn_oneWait hs hc hv hw h0 hb, hleft]
  refine ((hgive.cons (Runs.one (volumeCheck_quiet (x := { z with
    inFlight := z.inFlight - 1, slotWait := z.slotWait.filter fun h => h ≠ k }) ?_ hcut hstate))).settle
    (by decide)).trans (congrArg f ?_)
  · exact (hf.volume _ _).trans (volume_setVolume _ _ _)
  · simp only [Device.withEntry, Device.setVolume, Device.writeGone, Table.insert_insert]

/-- R84, R85: or is removed when none does; here no copy read waits for its place. -/
theorem afterWrite_entryRemoved (hr : b.readers = 0) (hrw : e.pres.readerWait = []) :
    settle (f (e.discardTxn q g y), discardTasks [y.job]) = f { e.writeGone q g y z with
      pres.table := e.pres.table.erase (pendKey y.job.volume k)
      volumes := e.volumes.insert y.job.volume
        { z with inFlight := z.inFlight - 1, slotWait := z.slotWait.filter fun h => h ≠ k } } := by
  have hgive := runs_giveUp_removed (d := f ((e.writeGone q g y z).withEntry y.job.volume k { b with waiters := [] }))
    (x := { z with inFlight := z.inFlight - 1 }) ((hf.volume _ _).trans (Table.find_insert_same _ _ _))
    ((hf.entry _ _ _).trans (entry_withEntry _ _ _ _)) hp rfl hr ((hf.readerWait _).trans hrw) hstate
  rw [hf.setVolume, hf.removeEntry] at hgive
  rw [discardTasks_oneWait hc hw h0, discardTxn_oneWait hs hc hv hw h0 hb, hleft]
  refine ((hgive.cons (Runs.one (volumeCheck_quiet (x := { z with
    inFlight := z.inFlight - 1, slotWait := z.slotWait.filter fun h => h ≠ k }) ?_ hcut hstate))).settle
    (by decide)).trans (congrArg f ?_)
  · exact (hf.volume _ _).trans (volume_setVolume _ _ _)
  · simp only [Device.withEntry, Device.removeEntry, Device.setVolume, Device.writeGone, Table.insert_insert,
      Table.erase_insert]

end

end

end

/-! #### The one open transaction of a port -/

section
variable {e : Device} {q : PortId} {g : Nat} {y : Txn} (hmine : e.openOf q = [(txnKey q g, y)])
include hmine

theorem discarded_one (hg : g < 32) : e.discarded q = e.discardTxn q g y := by
  rw [Device.discarded, hmine, List.foldl_cons, List.foldl_nil, txnKey_mod q hg]

theorem admittedOf_one (hs : y.job.stage = .admitting ∨ (y.job.stage = .queued ∧ y.kind = .write)) :
    e.admittedOf q = [y.job] := by
  rw [Device.admittedOf, hmine, List.filter_cons_of_pos (by simpa using hs)]
  rfl

theorem admittedOf_none (hs : ¬ (y.job.stage = .admitting ∨ (y.job.stage = .queued ∧ y.kind = .write))) :
    e.admittedOf q = [] := by
  rw [Device.admittedOf, hmine, List.filter_cons_of_neg (by simpa using hs)]
  rfl

end

/-- Settles O36: each event takes the port's work (`exec_serverLinkDown`, `exec_livenessExpiry`, `exec_fence_clear`);
one open transaction by its stage, an admitted write by what it waits on. -/
theorem portWorkDiscarded : Obligations.PortWorkDiscarded := by
  intro s q hl x fenced
  refine ⟨fun i e done hevent => ?work, fun p tag n t h => ?refused⟩
  case refused =>
    intro Answers
    refine ⟨exec_fence_badArgument h, fun hn => ?_, fun hn hq r hr => ?_⟩
    · exact exec_fence_conflict h (toPort_eq_some hn.symm)
    · exact exec_fence_fenced h (toPort_eq_some hn.symm) hq hr
  case work =>
    intro Ends mine admitted later discarded
    obtain ⟨hexec, hdone, hframe⟩ : exec i s = .next { s with
        dev := settle (done (e.discarded q), discardTasks (e.admittedOf q)) } ∧ AnswersAtMost done
        ∧ e = { s.dev with txns := e.txns, ports := e.ports, mgmt := e.mgmt } := by
      rcases hevent with ⟨rfl, hup, rfl, rfl⟩ | ⟨rfl, hup, hclear, hreload, hcounter, rfl, rfl⟩
        | ⟨p, tag, t, rfl, htag, hq, hclear, h, rfl, rfl⟩
      · exact ⟨exec_serverLinkDown hl hup, .inl rfl, rfl⟩
      · exact ⟨exec_livenessExpiry hl ⟨hup, hclear, hreload, hcounter⟩, .inl rfl, rfl⟩
      · exact ⟨exec_fence_clear h (toPort_eq_some rfl) hq hclear htag, .inr ⟨p, tag, t, _, _, rfl⟩, rfl⟩
    refine ⟨hexec, fun hnone => ?_, fun g y hg hone => ?_⟩
    · have hnone : e.openOf q = [] := hnone
      rw [Device.discarded, Device.admittedOf, hnone] at hexec
      exact hexec.trans (by rw [List.filter_nil, List.map_nil, discardTasks_nil, settle_nil]; rfl)
    intro gone requests
    rw [discarded_one hone hg] at hexec
    refine ⟨fun hs => ?held, fun hk hs => ?queued, fun hs => ?running, fun z c hs hc hv hcut hstate => ?admitted⟩
    case held =>
      rw [admittedOf_none hone (by simp [hs]), discardTasks_nil, settle_nil, discardTxn_held hs] at hexec
      exact hexec
    case queued =>
      rw [admittedOf_none hone (by simp [hs, hk]), discardTasks_nil, settle_nil, discardTxn_queued hk hs] at hexec
      exact hexec
    case running =>
      have hnot : ¬ (y.job.stage = .admitting ∨ (y.job.stage = .queued ∧ y.kind = .write)) := by
        rcases hs with hs | ⟨k, hs⟩ <;> simp [hs]
      rw [admittedOf_none hone hnot, discardTasks_nil, settle_nil, discardTxn_running hs] at hexec
      exact hexec
    case admitted =>
      intro v f
      have hv : e.volume? y.job.volume = some z := by rw [hframe]; exact hv
      rw [admittedOf_one hone hs] at hexec
      refine ⟨fun hw h0 => ?_, fun hw hpos => ?_, fun k b hw h0 hb => ?_⟩
      · rw [afterWrite_uncharged hdone hs hc hv hcut hstate hw h0] at hexec
        exact hexec
      · rw [afterWrite_charged hdone hs hc hv hcut hstate hw hpos] at hexec
        obtain ⟨hleft, hsettled⟩ := settleCharge_spec (e.writeGone q g y z) hpos false (n := y.job.account)
        have hacc : (e.writeGone q g y z).account y.job.account = s.dev.account y.job.account := by rw [hframe]; rfl
        rw [if_neg Bool.false_ne_true, hacc] at hsettled
        refine ⟨_, hexec, hleft, hsettled.congr ?_ ?_ ?_ rfl rfl rfl⟩
        all_goals rw [hframe]; rfl
      · have hb : e.entry? y.job.volume k = some b := by rw [hframe]; exact hb
        intro left waits
        refine ⟨fun hstays => ?_, fun base p hp hleft hr => ?_, fun base p hp hleft hr hrw => ?_⟩
        · rw [afterWrite_entryStays hdone hs hc hv hcut hstate hw h0 hb hstays] at hexec
          exact hexec
        · rw [afterWrite_entryRead hdone hs hc hv hcut hstate hw h0 hb hp hleft hr] at hexec
          exact hexec
        · rw [afterWrite_entryRemoved hdone hs hc hv hcut hstate hw h0 hb hp hleft hr hrw] at hexec
          exact hexec

end Sys2Proof.Machine
end
